-- ==== Sys2Proof/Word.lean ====
section
/-! DEFINITION. The word types of the T24 and the canonical sparse map in which the model keeps
every memory and every replicated unit. -/

namespace Sys2Proof

/-- A register word (00_scope.md, Registers: every register is 32 bits wide). -/
abbrev Word := BitVec 32

/-- A byte of a memory. -/
abbrev Byte := BitVec 8

/-- A 48-bit position in grains (R8). -/
abbrev Pos48 := BitVec 48

/-- A sparse map from numbers: a list of key and value pairs. In canonical form the keys rise
strictly and no listed value equals what the unlisted key reads as (`d`). -/
abbrev SMap (α : Type) := List (Nat × α)

/-- The value at key `k`; an unlisted key reads `d k`. -/
def SMap.get {α : Type} (d : Nat → α) : SMap α → Nat → α
  | [], k => d k
  | (j, v) :: m, k => if k = j then v else SMap.get d m k

/-- Write `v` at key `k`, keeping the canonical form: a value equal to the default is not listed. -/
def SMap.set {α : Type} [DecidableEq α] (d : Nat → α) (m : SMap α) (k : Nat) (v : α) : SMap α :=
  if v = d k then m.filter fun e => decide (e.1 ≠ k) else put m k v
where
  put : SMap α → Nat → α → SMap α
    | [], k, v => [(k, v)]
    | (j, w) :: m, k, v =>
      if k = j then (k, v) :: m else if k < j then (k, v) :: (j, w) :: m else (j, w) :: put m k v

/-- The keys of `m` all lie at or above `lo`, rise strictly, and no entry equals its default. -/
def SMap.wfFrom {α : Type} [DecidableEq α] (d : Nat → α) : Nat → SMap α → Bool
  | _, [] => true
  | lo, (j, v) :: m => decide (lo ≤ j) && decide (v ≠ d j) && SMap.wfFrom d (j + 1) m

/-- The canonical form of a sparse map. -/
def SMap.wf {α : Type} [DecidableEq α] (d : Nat → α) (m : SMap α) : Bool := SMap.wfFrom d 0 m

/-- Write a list of consecutive values from key `k` upward. -/
def SMap.setList {α : Type} [DecidableEq α] (d : Nat → α) (m : SMap α) (k : Nat) : List α → SMap α
  | [] => m
  | v :: vs => SMap.setList d (SMap.set d m k v) (k + 1) vs

/-- Read `n` consecutive values from key `k` upward. -/
def SMap.getList {α : Type} (d : Nat → α) (m : SMap α) (k : Nat) : Nat → List α
  | 0 => []
  | n + 1 => SMap.get d m k :: SMap.getList d m (k + 1) n

/-- Forget every entry whose key lies from `lo` up to, but not including, `hi`. -/
def SMap.clear {α : Type} (m : SMap α) (lo hi : Nat) : SMap α :=
  m.filter fun e => decide (e.1 < lo) || decide (hi ≤ e.1)

end Sys2Proof
end

