-- ==== Sys2Proof/Syntax.lean ====
section
/-! DEFINITION. The commands of the block (spec/opcode_table.json) and the data they carry. -/

namespace Sys2Proof

/-- A position channel (R40). -/
abbrev Chan := Fin 8
/-- A strike group (R51). -/
abbrev Grp := Fin 8
/-- A head port (R3). -/
abbrev Hd := Fin 24
/-- A correction pipeline (R17). -/
abbrev Pl := Fin 26
/-- A Troek thread (R237). -/
abbrev Thr := Fin 4
/-- A Troek register g0 to g31 (R237). -/
abbrev GReg := Fin 32
/-- An action queue entry (R202). -/
abbrev ActIx := Fin 4096
/-- A stream number (R265). -/
abbrev Strm := Fin 198
/-- An instant inside the current tick, in units of 62.5 ps after it (R395). -/
abbrev Sub := Fin 32

/-- Who makes a register access (R377). -/
inductive Requester where
  | host
  | thread (t : Thr)
  | svc
  deriving DecidableEq, Repr

/-- The three inputs of an encoder channel (R28). -/
inductive EncPin where
  | a | b | z
  deriving DecidableEq, Repr

/-- A vote disagreement (R65). -/
inductive Vote where
  /-- one copy of a unit (0 to 7 a position channel, 8 to 15 a strike group) differs from the other two -/
  | minority (unit : Fin 16) (copy : Fin 3)
  /-- the three copies of a channel's position, no two of which agree -/
  | noMajority (ch : Chan) (p0 p1 p2 : Pos48)
  deriving DecidableEq, Repr

/-- What a PTM ResponseD reports (R47): the receive time t2 and the turnaround t3 - t2 of the
previous exchange, in ns. -/
structure PtmData where
  t2 : BitVec 64
  turn : BitVec 32
  deriving DecidableEq, Repr

/-- The registers whose write recomputes a strike point (R53). -/
inductive PitchReg where
  | pitch | anchorLo | anchorHi
  deriving DecidableEq, Repr

/-- A 66-bit block of an upstream lane (R74): its sync header, 01 data, 10 control, and its 8 bytes, byte 0 in the low bits. -/
structure LaneBlock where
  sync : BitVec 2
  bytes : BitVec 64
  deriving DecidableEq, Repr

/-- What the four upstream lanes of a port deliver from the start blocks of a packet on, up to a control block that ends it
or the end of what is received; `sub` is the instant of the packet's CRC check. -/
structure Upstream where
  lane0 : List LaneBlock
  lane1 : List LaneBlock
  lane2 : List LaneBlock
  lane3 : List LaneBlock
  sub : Sub
  deriving DecidableEq, Repr

/-- Where a multiply-add that disagrees with its residue stands (R98, R164): stage 2, stage 3 or the merge step, stage 7, the
division of the ratio temperature. -/
inductive Checked where
  | correct | sharpen | linear | ratio
  deriving DecidableEq, Repr

/-- A residue mismatch at a pixel of a line (R98). -/
structure Mismatch where
  line : Nat
  col : Nat
  stage : Checked
  deriving DecidableEq, Repr

/-- A pixel of a line. -/
structure PixelAt where
  line : Nat
  col : Nat
  deriving DecidableEq, Repr

/-- A carat record that a read finds uncorrectable, in HBM or in the coefficient prefetch (R349), by its pixel. -/
structure LostRecord where
  pixel : PixelAt
  prefetch : Bool := false
  deriving DecidableEq, Repr

/-- The restrike of a head, and the residue mismatches of its own operations (R98, R120). -/
structure Restrike where
  head : Hd
  mismatch : List Mismatch
  deriving DecidableEq, Repr

/-- Sync headers that an upstream lane has received outside packets, oldest first (R75). -/
structure LaneHeaders where
  lane : Fin 4
  headers : List (BitVec 2)
  deriving DecidableEq, Repr

/-- The fields the host writes into a descriptor (R270). -/
structure Descriptor where
  addr : BitVec 64
  len : BitVec 32
  irq : Bool
  lkind : Fin 4
  lsrc : Chan
  late : Fin 4
  lkey : BitVec 64
  deriving DecidableEq, Repr

/-- The bytes of a descriptor as the host wrote them (R270); bytes that are missing read 0. -/
def Descriptor.ofBytes (xs : List Byte) : Descriptor :=
  let num (lo n : Nat) : Nat := (List.range n).foldr (fun i a => (xs.getD (lo + i) 0).toNat + 256 * a) 0
  let c := num 12 1
  { addr := BitVec.ofNat 64 (num 0 8), len := BitVec.ofNat 32 (num 8 4), irq := c % 2 == 1, lkind := Fin.ofNat 4 (c / 2),
    lsrc := Fin.ofNat 8 (c / 8), late := Fin.ofNat 4 (c / 64), lkey := BitVec.ofNat 64 (num 16 8) }

/-- How a descriptor fetch ends (R271): with the bytes read, in a completion timeout, or with an error completion. -/
inductive FetchEnd where
  | data (bytes : List Byte)
  | timeout
  | error
  deriving DecidableEq, Repr

/-- The errors that the part reports through AER (R261). Those of the link layer and of requests that the table has no row for are
reported by no command. -/
inductive AerError where
  | receiverError | badTlp | badDllp | replayTimeout | replayRollover
  | dataLinkProtocol | receiverOverflow | malformedTlp | unsupportedRequest
  | poisonedTlp | completionTimeout | unexpectedCompletion | uncorrectableInternal
  deriving DecidableEq, Repr

/-- The byte enables of a register write, or that the host's link delivers it poisoned (R11, R261). -/
inductive WriteEn where
  | bytes (be : BitVec 4)
  | poisoned
  deriving DecidableEq, Repr

/-- The data of a host write to HBM, byte by byte as its byte enables let it, or that it is delivered poisoned (R261, R264). -/
inductive Bar2Data where
  | bytes (data : List (Option Byte))
  | poisoned
  deriving DecidableEq, Repr

/-- A configuration-space write (R46, R260, R261, R263, R278). -/
inductive CfgWrite where
  | busMasterEnable (on : Bool)
  | d3hot (on : Bool)
  /-- PTM Control: PTM Enable, Root Select, Effective Granularity -/
  | ptmControl (enable root : Bool) (granularity : Byte)
  | msixEnable (on : Bool)
  /-- MSI-X Function Mask -/
  | msixMask (on : Bool)
  /-- Max_Payload_Size: 128 x 2^n bytes -/
  | maxPayload (n : Fin 3)
  /-- the completion timeout's range value, and its disable -/
  | cplTimeout (value : Fin 16) (disable : Bool)
  /-- an AER status bit is cleared -/
  | aerClear (e : AerError)
  /-- Resizable BAR: window size 2^(28 + n) bytes -/
  | bar2Size (n : Fin 7)
  deriving DecidableEq, Repr

/-- A heartbeat as received (R333, R336); `nak` is FLAGS bit 1, `ack` the ACK of its header. -/
structure HbFrame where
  nak : Bool
  ack : BitVec 16
  role : Fin 4
  join : Fin 4
  /-- the sender's Class B step: how a member learns its partner's (R297) is the model's own (DESIGN CHOICE, log entry 129) -/
  step : Fin 5
  eoLevel : BitVec 16
  /-- SEQ of the last issued strike of groups 0 to 7 -/
  seqs : List (BitVec 16)
  /-- send time of our last heartbeat plus the partner's turnaround -/
  echo : BitVec 64
  /-- device time at which its first bit was sent -/
  sent : BitVec 64
  sub : Sub
  deriving DecidableEq, Repr

/-- A forecast reading: the T_FPA and BIAS of a trailer and the instant of its CRC check (R113). -/
structure Reading where
  e : BitVec 64
  t : BitVec 32
  b : BitVec 16
  deriving DecidableEq, Repr

/-- What a WRITE frame mirrors (R338). -/
inductive PairWrite where
  /-- a register write with its writer and the tick at which it was made (R338) -/
  | reg (r : Requester) (tick : BitVec 64) (off : BitVec 21) (val : Word)
  /-- the same to the stage registers of the pipeline bound to a head (R110) -/
  | stage (r : Requester) (tick : BitVec 64) (h : Hd) (off : BitVec 12) (val : Word)
  | hbm (off : Nat) (data : List (Option Byte))
  /-- a thread starts or stops running at the active member, so that the standby knows which run there (R344; that this goes
  as a WRITE is the model's: DESIGN CHOICE, log entry 152) -/
  | thread (t : Thr) (on : Bool)
  | forecast (h : Hd) (readings : List Reading) (bound : BitVec 24) (eps : List (BitVec 32))
  /-- the fine trims of a head after an update or a write, and the first frame that they serve (R192) -/
  | trim (h : Hd) (frame : BitVec 32) (rgFine roFine : Word)
  | calStart (h : Hd) (forced : Bool)
  | calFrame (h : Hd) (frame : BitVec 32)
  | calOutcome (h : Hd) (cause : BitVec 4)
  /-- the device times in 62.5 ps from which and up to which strikes are shuttered (R222; that they go as a WRITE is the model's:
  DESIGN CHOICE, log entry 155) -/
  | calShut (h : Hd) (from_ : BitVec 68) (to_ : Option (BitVec 68))
  | calSwitch (h : Hd) (after : BitVec 32)
  | frameStep (h : Hd) (frame : BitVec 32) (step : Fin 5)
  | ledger (kind : Byte) (head : Hd) (body : List Byte) (seq : BitVec 32)
  | increment (ns : Byte) (fr : Word)
  deriving DecidableEq, Repr

/-- An ARM frame (R340): the entry, its words, its writer and the start time. -/
structure ArmFrame where
  i : ActIx
  key : BitVec 64
  ctrl : Word
  arg : BitVec 24
  writer : Fin 6
  start : BitVec 64
  deriving DecidableEq, Repr

/-- A DIGEST frame (R341): kind 0 head frame, 1 strip window, 2 verdict window, 4 bank. -/
structure DigestFrame where
  kind : Fin 5
  head : BitVec 5
  frame : BitVec 32
  value : BitVec 64
  deriving DecidableEq, Repr

/-- LINECRC frames of one frame or window (R342): the partner's CRC-32C per line. -/
structure LineCrcFrame where
  kind : Fin 5
  head : BitVec 5
  frame : BitVec 32
  crcs : List (BitVec 16 × Word)
  deriving DecidableEq, Repr

/-- One part of a bulk transfer (R345). -/
inductive BulkItem where
  | reg (off : BitVec 21) (val : Word)
  | hbm (addr : Nat) (data : List Byte)
  | action (f : ArmFrame)
  | forecast (h : Hd) (readings : List Reading) (bound : BitVec 24) (eps : List (BitVec 32))
  /-- what no register holds of a strike group: the SEQ of its next strike (R64), the device time of its last one and of its
  next idle strike (R57, R58), in units of 62.5 ps -/
  | group (g : Grp) (seq : BitVec 16) (last idle : Option Nat)
  /-- a position channel: its position without the running fraction, the fraction where it stands still, the slip motion, the
  high-water mark, and the device time of its last counted transition (R33, R37, R39) -/
  | position (ch : Chan) (base : BitVec 48) (frozen : Option Int) (slip : Int) (hwm : BitVec 48) (last : Option Nat)
  | done
  deriving DecidableEq, Repr

/-- The partner as the link comes up (R334). -/
structure PartnerId where
  id : BitVec 64
  member : Bool
  pref : Bool
  role : Fin 4
  join : Fin 4
  deriving DecidableEq, Repr


/-- A memory item that an error has made uncorrectable (R349). -/
inductive Upset where
  /-- a byte of HBM -/
  | hbm (addr : BitVec 34)
  | action (i : ActIx)
  /-- the strike record entry of a group with a stamp -/
  | strike (g : Grp) (stamp : BitVec 21)
  | imem (i : BitVec 14)
  | dmem (addr : BitVec 16)
  /-- a word of the journal, by number -/
  | journal (word : BitVec 14)
  /-- a defect table entry, by its bits [26:0] -/
  | defect (key : BitVec 27)
  /-- column x of the open integrated line j of a head -/
  | accumulator (h : Hd) (j : Int) (x : Nat)
  /-- the k-th entry of the pending store -/
  | pending (k : Fin 4096)
  /-- the k-th item of a stream's staging, of a record ring's -/
  | staged (st : Strm) (k : Nat)
  | record (ring : Fin 2) (k : Nat)
  deriving DecidableEq, Repr

/-- The commands of the block: one constructor per row of spec/opcode_table.json. -/
inductive Instr where
  /-- REGISTER_WRITE (R10): A write to a register that has no step of its own is applied under the access codes, reserved-bit and byte-enable rules. -/
  | registerWrite (r : Requester) (off : BitVec 21) (val : Word) (en : WriteEn)
  /-- TIME_TICK (R41): Every 2 ns tick the time unit adds its increment, and the tick's position evaluation and ordered unit actions run. -/
  | timeTick (votes : List Vote) (sramCe hbmCe : Nat) (upsets : List Upset)
  /-- ENCODER_LEVEL_CHANGE (R29): A level change on an encoder A, B or Z input starts the glitch filter's hold. -/
  | encoderLevelChange (ch : Chan) (pin : EncPin) (level : Bool) (sub : Sub)
  /-- FILTER_ACCEPT (R29): An input that has held its new level for FILT_NS is accepted as a transition stamped with its threshold crossing. -/
  | filterAccept (ch : Chan) (pin : EncPin)
  /-- STANDSTILL (R32): No counted transition for STALL_US puts the channel at standstill, zeroing velocity and freezing the fraction. -/
  | standstill (ch : Chan)
  /-- POS_CTL_WRITE (R32): A POS_CTL write enables or disables the channel, adopting the A/B state, or enables the slip check and clears its sums. -/
  | posCtlWrite (r : Requester) (ch : Chan) (val : Word)
  /-- POS_STALL_WRITE (R32): A POS_STALL write applies at once, including to an interval already running. -/
  | posStallWrite (r : Requester) (ch : Chan) (val : Word)
  /-- HWM_TO_POS (R37): The command sets the high-water mark to the current position. -/
  | hwmToPos (ch : Chan)
  /-- SLIP_REARM (R39): The command sets the accumulated motion of both slip channels to 0. -/
  | slipRearm (ch : Chan)
  /-- LOAD (R38): The command loads position and high-water mark from POS_SET, clears BEHIND and INTERP_VALID, and acts as a jump for keys. -/
  | load (ch : Chan)
  /-- TIM_INC_WRITE (R42): A write to TIM_INC_NS makes the increment take effect at the next tick, clamped to ±31,250 ppm. -/
  | timIncWrite (r : Requester) (val : Word)
  /-- STEP (R43): TIM_CMD.STEP adds TIM_STEP to the counter at the next tick, acting as a jump for time keys. -/
  | step
  /-- SET (R43): TIM_CMD.SET loads the counter from TIM_SET at the next tick, discarding any STEP. -/
  | set
  /-- PPS_EDGE (R44): An enabled PPS_IN edge is captured into TIM_PPS and sets PPS_SEEN. -/
  | ppsEdge (rising : Bool) (sub : Sub)
  /-- PPS_MISS (R44): More than 1.1 s without a PPS edge adds one to PPS_MISS. -/
  | ppsMiss
  /-- TOUT_ARM (R45): TIM_CMD.TOUT_ARM schedules the TIME_OUT edges, skipping those already past. -/
  | toutArm
  /-- TOUT_STOP (R45): TIM_CMD.TOUT_STOP ends the TIME_OUT train after the pulse in progress. -/
  | toutStop
  /-- TOUT_EDGE (R45): A scheduled TIME_OUT rising edge is emitted at its time. -/
  | toutEdge
  /-- TOUT_PULSE_END (R45): A TIME_OUT pulse ends after TOUT_WIDTH. -/
  | toutPulseEnd
  /-- PTM_REQ (R46): TIM_CMD.PTM_REQ starts one PTM exchange at once. -/
  | ptmReq
  /-- PTM_AUTO_INTERVAL (R46): With PTM_AUTO, every PTM_INT_MS a PTM exchange starts. -/
  | ptmAutoInterval
  /-- PTM_RESPONSE (R47): A PTM ResponseD is paired with t1 and t4, filtered and written to the PTM registers, setting PTM_NEW. -/
  | ptmResponse (data : Option PtmData) (sub : Sub)
  /-- PTM_TIMEOUT (R46): An exchange with no response within 100 µs is abandoned and counted. -/
  | ptmTimeout
  /-- ROUTE_HOLD_END (R48): When the route hold expires, dest takes the latest measurement. -/
  | routeHoldEnd
  /-- STK_GRP_CTL_WRITE (R53): A group control write enables or disables striking and recomputes the next point on enable or a SRC or MODE change. -/
  | stkGrpCtlWrite (r : Requester) (g : Grp) (val : Word)
  /-- STK_PITCH_ANCHOR_WRITE (R53): A write to STK_PITCH or STK_ANCHOR while EN is 1 recomputes the next strike point. -/
  | stkPitchAnchorWrite (r : Requester) (g : Grp) (reg : PitchReg) (val : Word)
  /-- STK_PORT_WRITE (R51): A port write sets DESKEW for later strikes and moves an unbound port's group, sending SET_PORT. -/
  | stkPortWrite (r : Requester) (h : Hd) (val : Word)
  /-- INTERPOLATED_STRIKE (R55): Once the filter delay has passed a predicted instant with no overtaking transition, the interpolated strike is issued. -/
  | interpolatedStrike (g : Grp)
  /-- IDLE_STRIKE (R57): Each PERIOD_US while the idle condition holds, an idle strike is issued. -/
  | idleStrike (g : Grp)
  /-- STRIKE_NOW (R60): STK_CMD.STRIKE_NOW issues one manual strike at the next tick, subject to the rate limit. -/
  | strikeNow (g : Grp)
  /-- STRIKE_SYMBOL_EMIT (R62): After the fixed latency and deskew, the K28.1 strike symbol and stamp leave each linked port's command lane, cutting any command. -/
  | strikeSymbolEmit (h : Hd)
  /-- COMMAND_SEND (R70): The next queued head command is sent as a K27.7 packet on the command lane. -/
  | commandSend (h : Hd)
  /-- CMD_GO (R73): HD_LINK_CMD.CMD_GO sends the mailbox command, or refuses a disallowed OPC with RSTAT 0xFE. -/
  | cmdGo (h : Hd)
  /-- RESPONSE_PACKET (R73): A response packet answers the outstanding command with its TAG, or is discarded as stray. -/
  | responsePacket (h : Hd) (u : Upstream)
  /-- CMD_TIMEOUT (R73): A command with no response within CMD_TMO is resent, and after the fourth attempt CMD_FAIL is set. -/
  | cmdTimeout (h : Hd)
  /-- BLOCK_LOCK (R75): After 64 consecutive valid sync headers an upstream lane is block-locked. -/
  | blockLock (h : Hd) (x : LaneHeaders)
  /-- LOCK_LOSS (R75): Sixteen invalid sync headers within 64 blocks make a lane lose lock. -/
  | lockLoss (h : Hd) (x : LaneHeaders)
  /-- ALIGNMENT_MARKER (R74): Alignment markers on all four lanes within 4 block periods align the lanes. -/
  | alignmentMarker (h : Hd) (spread : Nat)
  /-- ALIGNMENT_LOSS (R75): A lane missing its marker for 8,192 blocks loses alignment. -/
  | alignmentLoss (h : Hd) (lane : Fin 4)
  /-- RETRAIN (R75): HD_LINK_CMD.RETRAIN sends HEAD_RESET, takes the link down and trains again. -/
  | retrain (h : Hd)
  /-- RELOAD (R78): HD_LINK_CMD.RELOAD starts or holds a characterisation load of an unbound head, and is discarded while bound. -/
  | reload (h : Hd)
  /-- CHAR_LOAD_COMPLETE (R78): When all sections are read, records are written to both banks, the tables stored, the CRC verified, defects merged and READY set. -/
  | charLoadComplete (h : Hd)
  /-- CHAR_TIMEOUT (R78): A load not finished within CHAR_TMO fails with CAUSE 1. -/
  | charTimeout (h : Hd)
  /-- MEASURE (R80): HD_LINK_CMD.MEASURE sends K28.3 and starts timing the lane delay. -/
  | measure (h : Hd)
  /-- ECHO_ANSWER (R80): The head's 0xB4 control block ends the round trip, and HD_RTT and HD_LDELAY are written. -/
  | echoAnswer (h : Hd) (sub : Sub)
  /-- ECHO_TIMEOUT (R80): No answer within 10 µs sets HD_RTT to 0xFFFF and leaves HD_LDELAY unchanged. -/
  | echoTimeout (h : Hd)
  /-- LINE_PACKET (R82): A line packet is tested for misroute, binding, CRC, format, order, length and stamp, and its line is accepted or discarded. -/
  | linePacket (h : Hd) (u : Upstream)
  /-- TRAILER_PACKET (R83): A frame or band trailer is tested and, with a good CRC and matching FRAME, closes the frame and gives a reading. -/
  | trailerPacket (h : Hd) (u : Upstream)
  /-- TRAILER_TIMEOUT (R83): TR_TMO with no packet from the head closes the open frame without a trailer. -/
  | trailerTimeout (h : Hd)
  /-- HD_BIND_BIND (R23): HD_BIND.BIND requests a bind of the head to PIPE, which passes the admission check or is refused with a code. -/
  | hdBindBind (r : Requester) (h : Hd) (val : Word)
  /-- HD_BIND_UNBIND (R87): HD_BIND.UNBIND requests an unbind that waits for the frame boundary. -/
  | hdBindUnbind (r : Requester) (h : Hd)
  /-- HD_BANK_SWITCH (R102): HD_BANK.SWITCH switches banks at once or sets PEND for the frame boundary, and is refused while CAL_OWN is 1. -/
  | hdBankSwitch (h : Hd)
  /-- HD_BANK_CANCEL (R102): HD_BANK.CANCEL clears a pending switch. -/
  | hdBankCancel (h : Hd)
  /-- DIG_GO (R103): HD_BANK.DIG_GO starts the inactive bank's digest as Class C work. -/
  | digGo (h : Hd)
  /-- DIGEST_DONE (R103): A bank digest completes and sets its valid bit unless the bank was written during it. -/
  | digestDone (h : Hd)
  /-- PL_BIST (R107): PL_CMD.BIST requests BIST, starting it, reserving a spare for a move, or refusing it. -/
  | plBist (p : Pl)
  /-- BIST_CANCEL (R107): PL_CMD.BIST_CANCEL ends a pending move and releases the spare. -/
  | bistCancel (p : Pl)
  /-- BIST_START (R109): When the pipeline has drained and Class C is granted, BIST begins. -/
  | bistStart (p : Pl)
  /-- BIST_END (R109): BIST ends, making the pipeline a spare or retiring it and recording the retirement in the ledger. -/
  | bistEnd (p : Pl) (failUnit : Fin 11)
  /-- PRESET (R112): PL_CMD.PRESET discards the lines in flight and resumes the pipeline with the head's next frame. -/
  | preset (p : Pl)
  /-- LINE_CORRECTION (R100): Once its look-ahead windows are complete, a line passes stages 2 to 8 and leaves at the taps. -/
  | lineCorrection (h : Hd) (mismatch : List Mismatch) (records : List LostRecord) (buffers : List PixelAt)
  /-- SEAL_DECISION (R119): 64 + L cycles after the reading, the frame is sealed, restruck or declared a bound breach, and β is recomputed. -/
  | sealDecision (h : Hd)
  /-- RESTRIKE_START (R120): A queued restrike starts when the previous one ends, re-correcting the frame from the replay ring. -/
  | restrikeStart (h : Hd)
  /-- RESTRIKE_END (R120): A restrike finishes, its frame is sealed and revised lines replace the earlier ones. -/
  | restrikeEnd (r : Restrike)
  /-- FC_RESET (R133): PL_FC_CMD.FC_RESET clears the readings and the ε window. -/
  | fcReset (p : Pl)
  /-- INSERT (R154): DEF_CMD.INSERT adds or replaces the DEF_KEY entry, queued for a bound head. -/
  | insert
  /-- DELETE (R154): DEF_CMD.DELETE removes the entry with DEF_KEY's key. -/
  | delete
  /-- CLEAR_HEAD (R154): DEF_CMD.CLEAR_HEAD removes every entry of DEF_KEY.HEAD. -/
  | clearHead
  /-- DEF_EDIT_DONE (R154): A defect edit completes in its last BUSY cycle, and the next queued edit starts. -/
  | defEditDone
  /-- DEF_DATA_READ (R156): A read of DEF_DATA returns the entry at DEF_IDX and advances it. -/
  | defDataRead (r : Requester)
  /-- EMIS_SWITCH (R161): PL_LIN_CMD.EMIS_SWITCH swaps the emissivity copies at the next frame boundary. -/
  | emisSwitch (p : Pl)
  /-- CURVE_LOAD (R167): PL_LIN_CMD.CURVE_LOAD starts copying the head's curves from HBM. -/
  | curveLoad (p : Pl)
  /-- CURVE_LOAD_DONE (R167): The curve copy completes and takes effect at the next frame boundary. -/
  | curveLoadDone (h : Hd)
  /-- TBL_DATA_ACCESS (R173): A PL_TBL_DATA read or write accesses the table entry at TBL_IDX and advances it. -/
  | tblDataAccess (r : Requester) (p : Pl) (write : Option Word)
  /-- MG_START (R168): PL_MG_CMD.START requests a merge run, or refuses it with a cause. -/
  | mgStart (p : Pl)
  /-- MG_ABORT (R168): PL_MG_CMD.ABORT ends a merge run with cause 2 and sends TNORM. -/
  | mgAbort (p : Pl)
  /-- MERGE_RUN_BEGIN (R168): Once Class C is granted, the merge run sends SET_LADDER and resets the committed plane. -/
  | mergeRunBegin (h : Hd)
  /-- MERGE_ACCUMULATE (R170): The pair of decided merge frames is accumulated into the residual sums, or dropped if late. -/
  | mergeAccumulate (h : Hd)
  /-- BAND_INTEGRATION (R176): A ready band is integrated into output lines once the previous band's integration has ended. -/
  | bandIntegration (h : Hd)
  /-- FLUSH (R178): PL_TDI_CMD.FLUSH closes every open output line at once. -/
  | flush (p : Pl)
  /-- STRIP_LINE_FORM (R187): When every included head has supplied or passed strip line i, the strip line is formed and sent. -/
  | stripLineForm
  /-- SEAM_WAIT_EXPIRY (R187): SEAM_WAIT_US after the first head line, strip line i is formed with missing lines counted. -/
  | seamWaitExpiry
  /-- RELAY_UPDATE (R190): Every SEAM_UPD_MS, seam estimates are formed and the heads' relay trims are updated. -/
  | relayUpdate
  /-- TRIM_WRITE (R192): A write to SEAM_H_RG or SEAM_H_RO sets the fine trim exactly and wins over a same-cycle update. -/
  | trimWrite (r : Requester) (h : Hd) (gain : Bool) (val : Word)
  /-- VERDICT_EVALUATION (R199): A line entering the verdict engine is tested against the zones, issuing early verdicts and making pending entries. -/
  | verdictEvaluation
  /-- ACT_ARM (R203): A word +0xC write with ARM arms the queue entry, or the arm is refused. -/
  | actArm (r : Requester) (i : ActIx) (val : Word)
  /-- ACT_CANCEL (R203): A word +0xC write with CANCEL frees an armed entry with an action record. -/
  | actCancel (r : Requester) (i : ActIx)
  /-- KEY_REACHED (R205): A time or position key is reached, and the entry goes to execution. -/
  | keyReached (i : ActIx)
  /-- ACTION_EXECUTE_DEFERRED (R207): Reached entries beyond 16 execute in following ticks with their lateness unchanged. -/
  | actionExecuteDeferred
  /-- EO_SET (R210): A host write to EO_SET drives outputs active as executed SET actions. -/
  | eoSet (r : Requester) (val : Word)
  /-- EO_CLR (R210): A host write to EO_CLR drives outputs inactive as executed CLR actions. -/
  | eoClr (r : Requester) (val : Word)
  /-- EO_PULSE_END (R210): An event-output pulse ends after its width, returning the level to 0. -/
  | eoPulseEnd (k : Fin 16)
  /-- EI_EDGE (R211): A filtered, enabled event-input edge captures time and position and sets SEEN. -/
  | eiEdge (i : Fin 8)
  /-- CAL_AGE_TRIGGER (R215): CAL_H_AGE passing RECAL_MAX requests a calibration run. -/
  | calAgeTrigger (h : Hd)
  /-- CAL_RETRY_TIMER (R228): RECAL_RETRY after a rejection, a retry request is made. -/
  | calRetryTimer (h : Hd)
  /-- REQ (R216): CAL_H_CMD.REQ requests an unforced run, merging with one pending. -/
  | req (r : Requester) (h : Hd)
  /-- REQ_FORCE (R216): CAL_H_CMD.REQ_FORCE requests a forced run. -/
  | reqForce (r : Requester) (h : Hd)
  /-- CAL_ABORT (R229): CAL_H_CMD.ABORT abandons the run with CAUSE 10 and reopens the shutter. -/
  | calAbort (h : Hd)
  /-- STOP_RETRY (R228): CAL_H_CMD.STOP_RETRY cancels a waiting retry and clears RETRIES. -/
  | stopRetry (h : Hd)
  /-- RESTORE (R233): CAL_H_CMD.RESTORE computes the inactive bank's digest for comparison with RDIG, or is refused. -/
  | restore (h : Hd)
  /-- CAL_RUN_START (R217): A pending run whose coverage and gap conditions hold moves to waiting for the grant. -/
  | calRunStart (h : Hd)
  /-- CAL_GRANT (R220): With Class C granted, the run resets the committed plane and sends SHUTTER close. -/
  | calGrant (h : Hd)
  /-- CAL_SETTLE_END (R221): SETTLE ms after the close response, collection begins. -/
  | calSettleEnd (h : Hd)
  /-- CAL_BANK_WRITE (R226): Once RETAIN and PEND are 0, the inactive bank is written with new Δs under CAL_OWN. -/
  | calBankWrite (h : Hd)
  /-- CAL_OPEN_SETTLE_END (R221): SETTLE_OPEN ms after the open response, the run ends. -/
  | calOpenSettleEnd (h : Hd)
  /-- THREAD_START (R238): SEQ_T_CTL.START runs a halted or faulted thread from ENTRY. -/
  | threadStart (t : Thr)
  /-- RESUME (R238): SEQ_T_CTL.RESUME continues a halted thread at its PC. -/
  | resume (t : Thr)
  /-- THREAD_STEP (R238): SEQ_T_CTL.STEP executes one instruction of a halted thread. -/
  | threadStep (t : Thr)
  /-- STOP (R238): SEQ_T_CTL.STOP halts a running or waiting thread. -/
  | stop (t : Thr)
  /-- TRESET (R238): SEQ_T_CTL.TRESET halts the thread and clears its PC, registers and wake bits. -/
  | treset (t : Thr)
  /-- WAKESET (R247): A host write to SEQ_T_WAKESET sets wake bits. -/
  | wakeset (r : Requester) (t : Thr) (val : Byte)
  /-- WAIT_RESUME (R245): A waiting thread whose condition or deadline first holds resumes two cycles later with its result. -/
  | waitResume (t : Thr)
  /-- SAVE (R257): SEQ_CMD.SAVE writes the instruction memory as the standing program record, or sets SAVE_FAIL. -/
  | save
  /-- ERASE (R257): SEQ_CMD.ERASE writes an empty standing program record. -/
  | erase
  /-- SAVE_DONE (R257): The standing program write completes and SAVE_BUSY clears. -/
  | saveDone
  /-- LEDGER_HOLD_TIMEOUT (R254): A ledger hold or LWR start exceeding LTMO faults the thread with cause 4. -/
  | ledgerHoldTimeout (t : Thr)
  /-- NOP (R243): Does nothing for one cycle. -/
  | nop (t : Thr)
  /-- HALT (R243): Halts the thread with PC on the next instruction. -/
  | halt (t : Thr)
  /-- ADD (R243): rd = ra + rb. -/
  | add (t : Thr) (rd ra rb : GReg)
  /-- SUB (R243): rd = ra − rb. -/
  | sub (t : Thr) (rd ra rb : GReg)
  /-- AND (R243): rd = ra AND rb. -/
  | and (t : Thr) (rd ra rb : GReg)
  /-- OR (R243): rd = ra OR rb. -/
  | or (t : Thr) (rd ra rb : GReg)
  /-- XOR (R243): rd = ra XOR rb. -/
  | xor (t : Thr) (rd ra rb : GReg)
  /-- SHL (R243): rd = ra shifted left by rb[5:0]. -/
  | shl (t : Thr) (rd ra rb : GReg)
  /-- SHR (R243): rd = ra shifted right logically by rb[5:0]. -/
  | shr (t : Thr) (rd ra rb : GReg)
  /-- SAR (R243): rd = ra shifted right arithmetically by rb[5:0]. -/
  | sar (t : Thr) (rd ra rb : GReg)
  /-- MUL (R243): rd = low 64 bits of ra × rb. -/
  | mul (t : Thr) (rd ra rb : GReg)
  /-- SLT (R243): rd = 1 if ra < rb signed. -/
  | slt (t : Thr) (rd ra rb : GReg)
  /-- SLTU (R243): rd = 1 if ra < rb unsigned. -/
  | sltu (t : Thr) (rd ra rb : GReg)
  /-- ADDI (R243): rd = ra + sign-extended immediate. -/
  | addi (t : Thr) (rd ra : GReg) (imm : BitVec 16)
  /-- ANDI (R243): rd = ra AND zero-extended immediate. -/
  | andi (t : Thr) (rd ra : GReg) (imm : BitVec 16)
  /-- ORI (R243): rd = ra OR zero-extended immediate. -/
  | ori (t : Thr) (rd ra : GReg) (imm : BitVec 16)
  /-- XORI (R243): rd = ra XOR zero-extended immediate. -/
  | xori (t : Thr) (rd ra : GReg) (imm : BitVec 16)
  /-- SHLI (R243): rd = ra shifted left by imm[5:0]. -/
  | shli (t : Thr) (rd ra : GReg) (amount : BitVec 6)
  /-- SHRI (R243): rd = ra shifted right logically by imm[5:0]. -/
  | shri (t : Thr) (rd ra : GReg) (amount : BitVec 6)
  /-- SARI (R243): rd = ra shifted right arithmetically by imm[5:0]. -/
  | sari (t : Thr) (rd ra : GReg) (amount : BitVec 6)
  /-- INS (R243): Inserts a 16-bit immediate into quarter q of rd. -/
  | ins (t : Thr) (rd : GReg) (q : Fin 4) (imm : BitVec 16)
  /-- SLTI (R243): rd = 1 if ra < sign-extended immediate. -/
  | slti (t : Thr) (rd ra : GReg) (imm : BitVec 16)
  /-- LD (R243): Loads a 64-bit data memory word. -/
  | ld (t : Thr) (rd ra : GReg) (imm : BitVec 16)
  /-- LDW (R243): Loads a 32-bit data memory word zero-extended. -/
  | ldw (t : Thr) (rd ra : GReg) (imm : BitVec 16)
  /-- ST (R243): Stores a 64-bit data memory word. -/
  | st (t : Thr) (rs ra : GReg) (imm : BitVec 16)
  /-- STW (R243): Stores a 32-bit data memory word. -/
  | stw (t : Thr) (rs ra : GReg) (imm : BitVec 16)
  /-- LDC (R244): Reads a control-space register at issue. -/
  | ldc (t : Thr) (rd ra : GReg) (imm : BitVec 16)
  /-- LDCD (R244): Reads a LO/HI control-space register pair, LO first. -/
  | ldcd (t : Thr) (rd ra : GReg) (imm : BitVec 16)
  /-- STC (R244): Writes a control-space register in its last cycle. -/
  | stc (t : Thr) (rs ra : GReg) (imm : BitVec 16)
  /-- BEQ (R243): Branches if ra equals rb. -/
  | beq (t : Thr) (ra rb : GReg) (off : BitVec 16)
  /-- BNE (R243): Branches if ra differs from rb. -/
  | bne (t : Thr) (ra rb : GReg) (off : BitVec 16)
  /-- BLT (R243): Branches if ra < rb signed. -/
  | blt (t : Thr) (ra rb : GReg) (off : BitVec 16)
  /-- BGE (R243): Branches if ra ≥ rb signed. -/
  | bge (t : Thr) (ra rb : GReg) (off : BitVec 16)
  /-- BLTU (R243): Branches if ra < rb unsigned. -/
  | bltu (t : Thr) (ra rb : GReg) (off : BitVec 16)
  /-- BGEU (R243): Branches if ra ≥ rb unsigned. -/
  | bgeu (t : Thr) (ra rb : GReg) (off : BitVec 16)
  /-- J (R243): Jumps to the target. -/
  | j (t : Thr) (target : BitVec 14)
  /-- JAL (R243): Jumps to the target, saving PC + 1 in rd. -/
  | jal (t : Thr) (rd : GReg) (target : BitVec 14)
  /-- JR (R243): Jumps to ra[13:0]. -/
  | jr (t : Thr) (ra : GReg)
  /-- TIME (R243): rd = device time in ns. -/
  | time (t : Thr) (rd : GReg)
  /-- POS (R243): rd = position or high-water mark of a source, sign-extended. -/
  | pos (t : Thr) (rd : GReg) (s : Chan) (hwm : Bool)
  /-- WAITT (R245): Waits until device time reaches ra. -/
  | waitt (t : Thr) (rd ra : GReg)
  /-- WAITP (R246): Waits until a source's high-water mark reaches ra, or a deadline. -/
  | waitp (t : Thr) (rd ra rb : GReg) (s : Chan)
  /-- WAITE (R247): Waits on wake bits or event-input levels, or a deadline. -/
  | waite (t : Thr) (rd rb : GReg) (s : BitVec 3) (mask : Byte)
  /-- SIG (R243): Sets wake bits of a thread. -/
  | sig (t : Thr) (ra : GReg) (bits : Byte)
  /-- ARM (R248): Arms an action in the lowest free entry below SPLIT. -/
  | arm (t : Thr) (rd ra rb : GReg)
  /-- CANA (R248): Cancels an armed action entry. -/
  | cana (t : Thr) (rd ra : GReg)
  /-- BIND (R249): Requests a bind of a head and returns the bind code. -/
  | bind (t : Thr) (rd ra rb : GReg)
  /-- UNBIND (R249): Requests an unbind of a head. -/
  | unbind (t : Thr) (rd ra : GReg)
  /-- TEMP (R250): Evaluates the thermal model and returns the hottest node estimate. -/
  | temp (t : Thr) (rd : GReg)
  /-- BUDG (R250): Returns the budget state without evaluating the model. -/
  | budg (t : Thr) (rd : GReg)
  /-- LWR (R253): Writes a user record to the ledger and stalls until it is programmed. -/
  | lwr (t : Thr) (rd ra rb : GReg)
  /-- LOG (R253): Queues an event log entry, or drops it under the rate limit. -/
  | log (t : Thr) (rd ra : GReg) (imm : BitVec 16)
  /-- ILLEGAL_OPCODE (R254): An unlisted opcode or ALU FUNC faults the thread with cause 1. -/
  | illegalOpcode (t : Thr)
  /-- BAR2_READ (R264): A host BAR2 read returns HBM contents, poisoned on an uncorrectable error. -/
  | bar2Read (off : Nat) (len : Nat) (uncorrectable : Bool)
  /-- BAR2_WRITE (R20): A host BAR2 write is performed or discarded byte by byte by area and counted in B2DENY. -/
  | bar2Write (off : Nat) (data : Bar2Data)
  /-- B2_BASE_WRITE (R263): A HOST_B2_BASE write moves the BAR2 window for later requests. -/
  | b2BaseWrite (r : Requester) (hi : Bool) (val : Word)
  /-- STR_TAIL_WRITE (R270): A STR_TAIL write makes descriptors available, or is discarded with BADTAIL. -/
  | strTailWrite (r : Requester) (st : Strm) (val : Word)
  /-- DESC_FETCH (R271): The T24 fetches descriptors ahead of HEAD within the in-flight limits. -/
  | descFetch (st : Strm)
  /-- DESC_FETCH_DONE (R271): A descriptor fetch completes, or its error stops the ring with FETCH_ERR. -/
  | descFetchDone (st : Strm) (e : FetchEnd)
  /-- DESC_CLOSE_TIMEOUT (R271): STR_CTL.TMO after its first item, an open descriptor closes. -/
  | descCloseTimeout (st : Strm)
  /-- DESC_LAUNCH (R272): A held descriptor's launch key is reached and its data is written. -/
  | descLaunch (st : Strm)
  /-- DESC_COMPLETE (R273): After its data is written, the descriptor's completion, shadow HEAD and interrupt are written. -/
  | descComplete (st : Strm)
  /-- RDIDX_WRITE (R274): A record ring RDIDX write frees slots for staged records. -/
  | rdidxWrite (r : Requester) (ring : Fin 2) (val : Word)
  /-- RECORD_RING_WRITE (R274): A batch of records is written to a record ring with WRIDX and the ring's vector. -/
  | recordRingWrite (ring : Fin 2)
  /-- EGRESS_ROUND (R276): A round of stream data writes is granted in rotating stream order. -/
  | egressRound
  /-- MSIX_MODERATION_EXPIRY (R278): At the end of an IMOD interval, one message signals the events within it. -/
  | msixModerationExpiry (ring : Fin 201)
  /-- STREAM_ENABLE (R279): Setting a stream's EN sets HEAD to 0 and clears FETCH_ERR. -/
  | streamEnable (r : Requester) (st : Strm) (val : Word)
  /-- STREAM_DISABLE (R279): Clearing a stream's EN completes every fetched descriptor with OUTCOME 4. -/
  | streamDisable (r : Requester) (st : Strm) (val : Word)
  /-- PERST (R353): An assertion of PERST# after its first deassertion causes a warm reset. -/
  | perst (asserted : Bool)
  /-- PCIE_LINK_DOWN (R353): A PCIe link-down resets configuration space and HOST and abandons descriptors in flight. -/
  | pcieLinkDown
  /-- POWER_SAMPLE (R282): Every 100 µs domain powers are sampled and a budget decision is made. -/
  | powerSample (mw : List (BitVec 24)) (hbmUtil : Byte)
  /-- THERMAL_EVALUATION (R283): The thermal model is advanced, thresholds updated and a budget decision made. -/
  | thermalEvaluation
  /-- EVAL_GO (R284): THM_EVAL.GO starts one model evaluation. -/
  | evalGo
  /-- STALENESS_GUARD (R284): THM_STALE ms without an evaluation starts one and sets STALE. -/
  | stalenessGuard
  /-- SHUTDOWN_STOP (R295): After the shutdown record, the T24 stops its clocks and enters the shutdown state. -/
  | shutdownStop
  /-- THM_AMB_WRITE (R285): A host write to THM_AMB delivers a new ambient value. -/
  | thmAmbWrite (r : Requester) (val : Word)
  /-- AMBIENT_AGE_OUT (R285): An ambient more than 1 s old is replaced by THM_AMB_WORST and AMB_STALE set. -/
  | ambientAgeOut
  /-- LEDGER_WINDOW_WRITE (R302): A window write programs the user area or is discarded and counted in DENY. -/
  | ledgerWindowWrite (r : Requester) (addr : BitVec 18) (val : Word) (be : BitVec 4)
  /-- LEDGER_WRITE_START (R304): The next queued ledger write begins when none is in progress and the supply allows. -/
  | ledgerWriteStart
  /-- LEDGER_PAGE_DONE (R303): A page program completes, held accesses are served and the write continues or ends. -/
  | ledgerPageDone
  /-- UFREE (R314): LDG_CMD.UFREE releases the user kind in LDG_UKIND. -/
  | ufree
  /-- COUNTERS_PERIOD (R310): Every CNT_PER s the COUNTERS record is queued. -/
  | countersPeriod
  /-- JSUM_WRITE (R310): A JSUM record is written at most once per second on a fault. -/
  | jsumWrite
  /-- SSEL0_FALL (R321): SSEL0 falling starts a target transaction, detecting the SPI mode. -/
  | ssel0Fall (sck : Bool)
  /-- TARGET_HEADER (R321): The header word is decoded as read or write, or refused with BADHDR. -/
  | targetHeader (w : Word)
  /-- TARGET_WRITE_WORD (R322): A write data word takes effect at its 32nd bit. -/
  | targetWriteWord (w : Word)
  /-- TARGET_READ_WORD (R322): A read data word is fetched and shifted out, or 0xFFFF_FFFF when late. -/
  | targetReadWord
  /-- SSEL0_RISE (R324): SSEL0 rising ends the transaction, discarding a partial word with ABORT. -/
  | ssel0Rise (partialBits : Fin 32)
  /-- GO (R326): SVC_MCMD.GO starts a controller transfer, or is refused. -/
  | go
  /-- BUS_IDLE_EXPIRY (R327): After IDLE_US of idle bus, the controller takes the bus. -/
  | busIdleExpiry
  /-- TRANSFER_DONE (R326): A controller transfer completes, storing received words and setting MDONE. -/
  | transferDone (words : List Word)
  /-- COLLISION (R327): SSEL0 falling while the T24 drives the bus releases it and abandons the transfer. -/
  | collision
  /-- BACKOFF_EXPIRY (R327): BACKOFF_US after idle, the collided transfer restarts from word 0. -/
  | backoffExpiry
  /-- AMBIENT_POLL (R329): Every PER ms an ambient sensor poll is started. -/
  | ambientPoll
  /-- HEARTBEAT_SEND (R333): Every 10 µs a member sends a HEARTBEAT frame. -/
  | heartbeatSend
  /-- HEARTBEAT (R336): A received heartbeat updates role, time agreement and strike comparison. -/
  | heartbeat (f : HbFrame)
  /-- WRITE (R338): A WRITE frame applies a mirrored write at the standby. -/
  | write (w : PairWrite)
  /-- ARM_FRAME (R340): An ARM frame arms the mirrored entry with start time t_s. -/
  | armFrame (f : ArmFrame)
  /-- CANCEL_FRAME (R340): A CANCEL frame cancels the mirrored entry. -/
  | cancelFrame (i : ActIx)
  /-- EXEC (R340): An EXEC frame confirms an execution at the standby. -/
  | exec (i : ActIx)
  /-- DIGEST (R341): A DIGEST frame is compared with the member's own digest, raising DIVERGE on mismatch. -/
  | digest (f : DigestFrame)
  /-- LINECRC (R342): LINECRC frames locate the first differing line. -/
  | linecrc (f : LineCrcFrame)
  /-- HANDOVER_FRAME (R343): A HANDOVER frame sets the partner's strike boundaries and ball time. -/
  | handoverFrame (bounds : List (BitVec 16)) (th : BitVec 64)
  /-- FAULT_FRAME (R344): A FAULT frame makes an in-step standby take over. -/
  | faultFrame
  /-- BULK (R345): A BULK frame installs join state at the standby. -/
  | bulk (b : BulkItem)
  /-- PAIR_FRAME_ERROR (R333): A bad or out-of-order frame is discarded, NAK set and the sender replays. -/
  | pairFrameError
  /-- PAIR_LINK_DOWN (R333): The pair link goes down after failed replays or lost lock and retrains. -/
  | pairLinkDown
  /-- PAIR_LINK_UP (R334): The link comes up with a valid partner and roles are decided. -/
  | pairLinkUp (f : PartnerId)
  /-- HEARTBEAT_LOSS (R336): No valid frame for (HB_MISS + 1) × 10 µs loses the heartbeat. -/
  | heartbeatLoss
  /-- ROLE_TIMEOUT (R334): No valid partner within 1 s makes the member active alone, or sets SPLIT. -/
  | roleTimeout
  /-- PAIR_PHASE_STEP (R337): Every 1 ms the standby steps its time by −θ, clamped. -/
  | pairPhaseStep
  /-- HANDOVER (R343): PAIR_CMD.HANDOVER starts moving the active role to the partner. -/
  | handover
  /-- HANDOVER_BALL_DRIVE (R343): At T_h ± 100 ns, the partner drives and the old active member releases the output balls. -/
  | handoverBallDrive
  /-- JOIN (R345): PAIR_CMD.JOIN starts the bulk transfer to the partner. -/
  | join
  /-- JOIN_COMPLETE (R345): After the bulk transfer and a frame of each bound head, JOIN becomes 2. -/
  | joinComplete
  /-- LEAVE (R345): PAIR_CMD.LEAVE ends the pair. -/
  | leave
  /-- ID_SAVE (R335): PAIR_CMD.ID_SAVE writes the PAIRID record. -/
  | idSave
  /-- RELEASE (R354): JNL_CMD.RELEASE rebuilds the journal and resumes recording. -/
  | release
  /-- SUPPLY_WARNING (R351): A rail below its warning level sets SUP_WARN, holds ledger writes and marks lines SUPPLY. -/
  | supplyWarning (rail : Fin 8)
  /-- SUPPLY_RECOVERY (R317): A rail recovering above its warning level resumes queued ledger writes. -/
  | supplyRecovery (rail : Fin 8)
  /-- SUPPLY_RESET (R364): A rail reaching its reset level causes a cold reset. -/
  | supplyReset (rail : Fin 8)
  /-- POR_FALL (R364): POR# falling causes a cold reset. -/
  | porFall
  /-- WARM (R369): SUP_CMD.WARM with the key causes a warm reset. -/
  | warm (r : Requester) (key : BitVec 16)
  /-- COLD (R369): SUP_CMD.COLD with the key causes a cold reset, in shutdown only under R296. -/
  | cold (r : Requester) (key : BitVec 16)
  /-- CONFIGURATION_WRITE (R260): A host configuration-space write changes Bus Master Enable, the D3hot power state, PTM Enable, MSI-X Enable or the Resizable BAR size. -/
  | configurationWrite (w : CfgWrite)
  /-- LO_WORD_READ (R378): A read of a LO word snapshots its HI word, and its fraction word where there is one, into the requester's shadow. -/
  | loWordRead (r : Requester) (off : BitVec 21)
  /-- EVENT_INPUT_CHANGE (R211): A level change on an event input starts its glitch filter, and once accepted it updates EI_STAT.LEVEL, which the gap window, the pair fence and WAITE tests use. -/
  | eventInputChange (i : Fin 8) (level : Bool) (sub : Sub)
  /-- POWER_OK (R364): Rails, POR# and SYSCLK all valid release the device into start-up. -/
  | powerOk
  /-- FUSE_TRIM (R366): At 1 ms the fuse trim is applied and the clocks run. -/
  | fuseTrim
  /-- LEDGER_SELECT (R366): By 5 ms ledger winners are selected, retirements and PAIR_ID loaded. -/
  | ledgerSelect
  /-- SRAM_ZERO (R366): By 12 ms all SRAM is zeroed. -/
  | sramZero
  /-- STARTUP_20MS (R366): At 20 ms the position, strike, time and action units run and command lanes are enabled. -/
  | startup20ms
  /-- HBM_ZEROED (R366): By 100 ms HBM is zeroed and held BAR2 requests complete. -/
  | hbmZeroed
  /-- CONFIG_READY (R366): Configuration requests are accepted and the ledger window becomes readable. -/
  | configReady
  deriving DecidableEq, Repr

end Sys2Proof
end

