-- ==== Sys2Proof/Decode.lean ====
section
/-! DEFINITION. Commands from the words of spec/opcode_table.json, which gives no row a bit, so that no word spells a
command; and the Troek instruction words of R242 and R243, which the sequencer fetches from its own memory. -/

namespace Sys2Proof

/-- The command a word of `nbits` bits spells by the table's bits: the table gives none. -/
def decodeTableWord (_nbits _w : Nat) : Option Instr := none

/-! ### Troek words (R242, R243) -/

/-- Bits [lo + n - 1 : lo] of a word. -/
def bitsAt (w : Word) (lo n : Nat) : Nat := (w.toNat >>> lo) % 2 ^ n

/-- A register number of a word. -/
def regAt (w : Word) (lo : Nat) : GReg := ⟨bitsAt w lo 5, Nat.mod_lt _ (by decide)⟩

/-- The ALU instruction of a FUNC (R243); 11 to 15 are illegal. -/
def decodeAlu (t : Thr) (func : Nat) (rd ra rb : GReg) : Option Instr :=
  match func with
  | 0 => some (.add t rd ra rb)
  | 1 => some (.sub t rd ra rb)
  | 2 => some (.and t rd ra rb)
  | 3 => some (.or t rd ra rb)
  | 4 => some (.xor t rd ra rb)
  | 5 => some (.shl t rd ra rb)
  | 6 => some (.shr t rd ra rb)
  | 7 => some (.sar t rd ra rb)
  | 8 => some (.mul t rd ra rb)
  | 9 => some (.slt t rd ra rb)
  | 10 => some (.sltu t rd ra rb)
  | _ => none

/-- The instruction of thread `t` that a word of instruction memory spells (R242, R243); bits shown as zero are
ignored, and a word that is none of these is an illegal opcode. -/
def decodeTroek (t : Thr) (w : Word) : Option Instr :=
  let rd := regAt w 21
  let ra := regAt w 16
  let rb := regAt w 11
  let imm := BitVec.ofNat 16 (bitsAt w 0 16)
  let amount := BitVec.ofNat 6 (bitsAt w 0 6)
  let target := BitVec.ofNat 14 (bitsAt w 0 14)
  let m := BitVec.ofNat 8 (bitsAt w 0 8)
  match bitsAt w 26 6 with
  | 0x01 => some (.nop t)
  | 0x02 => some (.halt t)
  | 0x04 => decodeAlu t (bitsAt w 0 4) rd ra rb
  | 0x08 => some (.addi t rd ra imm)
  | 0x09 => some (.andi t rd ra imm)
  | 0x0A => some (.ori t rd ra imm)
  | 0x0B => some (.xori t rd ra imm)
  | 0x0C => some (.shli t rd ra amount)
  | 0x0D => some (.shri t rd ra amount)
  | 0x0E => some (.sari t rd ra amount)
  | 0x0F => some (.ins t rd ⟨bitsAt w 16 2, Nat.mod_lt _ (by decide)⟩ imm)
  | 0x10 => some (.slti t rd ra imm)
  | 0x11 => some (.ld t rd ra imm)
  | 0x12 => some (.ldw t rd ra imm)
  | 0x13 => some (.st t rd ra imm)
  | 0x14 => some (.stw t rd ra imm)
  | 0x15 => some (.ldc t rd ra imm)
  | 0x16 => some (.ldcd t rd ra imm)
  | 0x17 => some (.stc t rd ra imm)
  | 0x18 => some (.beq t rd ra imm)
  | 0x19 => some (.bne t rd ra imm)
  | 0x1A => some (.blt t rd ra imm)
  | 0x1B => some (.bge t rd ra imm)
  | 0x1C => some (.bltu t rd ra imm)
  | 0x1D => some (.bgeu t rd ra imm)
  | 0x1E => some (.j t target)
  | 0x1F => some (.jal t rd target)
  | 0x20 => some (.jr t ra)
  | 0x21 => some (.time t rd)
  | 0x22 => some (.pos t rd ⟨bitsAt w 0 3, Nat.mod_lt _ (by decide)⟩ (bitsAt w 3 1 == 1))
  | 0x23 => some (.waitt t rd ra)
  | 0x24 => some (.waitp t rd ra rb ⟨bitsAt w 8 3, Nat.mod_lt _ (by decide)⟩)
  | 0x25 => some (.waite t rd rb (BitVec.ofNat 3 (bitsAt w 8 3)) m)
  | 0x26 => some (.sig t ra m)
  | 0x27 => some (.arm t rd ra rb)
  | 0x28 => some (.cana t rd ra)
  | 0x29 => some (.bind t rd ra rb)
  | 0x2A => some (.unbind t rd ra)
  | 0x2B => some (.temp t rd)
  | 0x2C => some (.budg t rd)
  | 0x2D => some (.lwr t rd ra rb)
  | 0x2E => some (.log t rd ra imm)
  | _ => none

/-- A word from its opcode, the fields at [25:21] and [20:16], and its low half. -/
def word4 (op rd ra low : Nat) : Word := BitVec.ofNat 32 (op * 2 ^ 26 + rd * 2 ^ 21 + ra * 2 ^ 16 + low)

/-- Format R of an ALU instruction (R242). -/
def wordAlu (func : Nat) (rd ra rb : GReg) : Word := word4 0x04 rd.val ra.val (rb.val * 2 ^ 11 + func)

/-- The word of a Troek instruction (R242, R243), with its zero bits zero; 0 for a command that is none. -/
def encodeTroek : Instr → Word
  | .nop _ => word4 0x01 0 0 0
  | .halt _ => word4 0x02 0 0 0
  | .add _ rd ra rb => wordAlu 0 rd ra rb
  | .sub _ rd ra rb => wordAlu 1 rd ra rb
  | .and _ rd ra rb => wordAlu 2 rd ra rb
  | .or _ rd ra rb => wordAlu 3 rd ra rb
  | .xor _ rd ra rb => wordAlu 4 rd ra rb
  | .shl _ rd ra rb => wordAlu 5 rd ra rb
  | .shr _ rd ra rb => wordAlu 6 rd ra rb
  | .sar _ rd ra rb => wordAlu 7 rd ra rb
  | .mul _ rd ra rb => wordAlu 8 rd ra rb
  | .slt _ rd ra rb => wordAlu 9 rd ra rb
  | .sltu _ rd ra rb => wordAlu 10 rd ra rb
  | .addi _ rd ra imm => word4 0x08 rd.val ra.val imm.toNat
  | .andi _ rd ra imm => word4 0x09 rd.val ra.val imm.toNat
  | .ori _ rd ra imm => word4 0x0A rd.val ra.val imm.toNat
  | .xori _ rd ra imm => word4 0x0B rd.val ra.val imm.toNat
  | .shli _ rd ra amount => word4 0x0C rd.val ra.val amount.toNat
  | .shri _ rd ra amount => word4 0x0D rd.val ra.val amount.toNat
  | .sari _ rd ra amount => word4 0x0E rd.val ra.val amount.toNat
  | .ins _ rd q imm => word4 0x0F rd.val q.val imm.toNat
  | .slti _ rd ra imm => word4 0x10 rd.val ra.val imm.toNat
  | .ld _ rd ra imm => word4 0x11 rd.val ra.val imm.toNat
  | .ldw _ rd ra imm => word4 0x12 rd.val ra.val imm.toNat
  | .st _ rs ra imm => word4 0x13 rs.val ra.val imm.toNat
  | .stw _ rs ra imm => word4 0x14 rs.val ra.val imm.toNat
  | .ldc _ rd ra imm => word4 0x15 rd.val ra.val imm.toNat
  | .ldcd _ rd ra imm => word4 0x16 rd.val ra.val imm.toNat
  | .stc _ rs ra imm => word4 0x17 rs.val ra.val imm.toNat
  | .beq _ ra rb off => word4 0x18 ra.val rb.val off.toNat
  | .bne _ ra rb off => word4 0x19 ra.val rb.val off.toNat
  | .blt _ ra rb off => word4 0x1A ra.val rb.val off.toNat
  | .bge _ ra rb off => word4 0x1B ra.val rb.val off.toNat
  | .bltu _ ra rb off => word4 0x1C ra.val rb.val off.toNat
  | .bgeu _ ra rb off => word4 0x1D ra.val rb.val off.toNat
  | .j _ target => word4 0x1E 0 0 target.toNat
  | .jal _ rd target => word4 0x1F rd.val 0 target.toNat
  | .jr _ ra => word4 0x20 0 ra.val 0
  | .time _ rd => word4 0x21 rd.val 0 0
  | .pos _ rd s hwm => word4 0x22 rd.val 0 ((if hwm then 8 else 0) + s.val)
  | .waitt _ rd ra => word4 0x23 rd.val ra.val 0
  | .waitp _ rd ra rb s => word4 0x24 rd.val ra.val (rb.val * 2 ^ 11 + s.val * 2 ^ 8)
  | .waite _ rd rb s mask => word4 0x25 rd.val 0 (rb.val * 2 ^ 11 + s.toNat * 2 ^ 8 + mask.toNat)
  | .sig _ ra bits => word4 0x26 0 ra.val bits.toNat
  | .arm _ rd ra rb => word4 0x27 rd.val ra.val (rb.val * 2 ^ 11)
  | .cana _ rd ra => word4 0x28 rd.val ra.val 0
  | .bind _ rd ra rb => word4 0x29 rd.val ra.val (rb.val * 2 ^ 11)
  | .unbind _ rd ra => word4 0x2A rd.val ra.val 0
  | .temp _ rd => word4 0x2B rd.val 0 0
  | .budg _ rd => word4 0x2C rd.val 0 0
  | .lwr _ rd ra rb => word4 0x2D rd.val ra.val (rb.val * 2 ^ 11)
  | .log _ rd ra imm => word4 0x2E rd.val ra.val imm.toNat
  | _ => 0

end Sys2Proof
end

