-- ==== Sys2Proof/Machine/Num.lean ====
section
/-! DEFINITION. The arithmetic rules of the manual: narrowing (R7), saturation, signed position
differences (R34), bit fields. -/

namespace Sys2Proof.Machine

/-- `a / b` rounded to nearest, ties away from zero (R7); `b` is positive. -/
def roundDiv (a : Int) (b : Nat) : Int :=
  if 0 ≤ a then ((2 * a + b) / (2 * b) : Int) else -((2 * (-a) + b) / (2 * b) : Int)

/-- Saturate at the limits `lo` and `hi` (R7). -/
def clampI (lo hi x : Int) : Int := if x < lo then lo else if hi < x then hi else x

/-- Saturate to an unsigned field of `w` bits. -/
def satU (w : Nat) (x : Int) : Nat := (clampI 0 (2 ^ w - 1) x).toNat

/-- Saturate to a two's complement field of `w` bits. -/
def satS (w : Nat) (x : Int) : Int := clampI (-(2 ^ (w - 1))) (2 ^ (w - 1) - 1) x

/-- A rational rounded to the nearest integer, ties away from zero (R7). -/
def roundRat (q : Rat) : Int := roundDiv q.num q.den

/-- The difference of two positions as a signed 48-bit number (R34). -/
def posDiff (a b : Pos48) : Int := (a - b).toInt

/-- An integer number of grains as a position, modulo 2^48 (R34). -/
def toPos (x : Int) : Pos48 := BitVec.ofInt 48 x

/-- Field [hi:lo] of a word, as a number. -/
def fieldOf (w : Word) (hi lo : Nat) : Nat := (w.toNat >>> lo) % 2 ^ (hi + 1 - lo)

/-- A word of ones at [hi:lo]. -/
def fieldMask (hi lo : Nat) : Word := BitVec.ofNat 32 ((2 ^ (hi + 1 - lo) - 1) <<< lo)

/-- A word with field [hi:lo] replaced by the low bits of `v`. -/
def setFieldOf (w : Word) (hi lo v : Nat) : Word :=
  (w &&& ~~~ fieldMask hi lo) ||| (BitVec.ofNat 32 (v <<< lo) &&& fieldMask hi lo)

/-- Bit `i` of a word. -/
def bitOf (w : Word) (i : Nat) : Bool := w.getLsbD i

/-- Bits [47:32] of a position with [31:16] copies of bit 47: the HI word of a read-only 48-bit value
(R378). -/
def posHi (p : Pos48) : Word := ((p.signExtend 64) >>> 32).setWidth 32

/-- Bits [31:0] of a position. -/
def posLo (p : Pos48) : Word := p.setWidth 32

/-- A position from its LO and HI words. -/
def posOf (lo hi : Word) : Pos48 := (hi.setWidth 16) ++ lo

/-- Two words as a 64-bit value. -/
def u64 (lo hi : Word) : BitVec 64 := hi ++ lo

/-- A number as a 0 or 1. -/
def b2n (b : Bool) : Nat := if b then 1 else 0

/-- Little-endian bytes of a number (R5). -/
def leBytes : Nat → Nat → List Byte
  | 0, _ => []
  | n + 1, v => BitVec.ofNat 8 v :: leBytes n (v / 256)

/-- The number that little-endian bytes spell (R5). -/
def ofLe : List Byte → Nat
  | [] => 0
  | b :: bs => b.toNat + 256 * ofLe bs

/-- Add `n` to a counter of `w` bits that saturates at all ones (R14). -/
def satAdd (w v n : Nat) : Nat := min (v + n) (2 ^ w - 1)

/-- Apply `f` to a state once for each listed index. -/
def forEach {α β : Type} (xs : List α) (f : α → β → β) (b : β) : β := xs.foldl (fun b x => f x b) b

end Sys2Proof.Machine
end

