-- ==== Sys2Proof/Config.lean ====
section
/-! DEFINITION. What a part fixes and what the manual leaves open: constants with no body, so that no
proof can see a value of them. -/

namespace Sys2Proof

/-- The 64-bit die identity, fused per part (R371, R372). -/
opaque Config.uid : BitVec 64

/-- THM_RHOT, the fused thermal value of the part (R299, R371). -/
opaque Config.rhot : BitVec 16

/-- The thermal resistance of a node from a domain, fused per part and not readable (R283): 1/256 °C per mW. -/
opaque Config.rth : Nat → Nat → Rat

/-- The time constant of a node, fused per part and not readable (R283), in ns. -/
opaque Config.tau : Nat → Nat

/-- The thermal headroom in mW of a part fused with THM_RHOT 0, which R294 does not state, by the temperature
difference. -/
opaque Config.headroomByZero : Int → Int

/-- A free value of 64 bits: what the manual leaves undefined, by the number of the draw. -/
opaque Config.freeValue : Nat → BitVec 64

/-- The ratio temperature of a quad whose denominator x2_b is 0, which R164 does not state, by x2_a. -/
opaque Config.ratioByZero : Int → BitVec 24

/-- The sensitivity s of such a ratio temperature (R166), by x2_a. -/
opaque Config.slopeByZero : Int → BitVec 16

/-- The body of a frame on the pair link other than a HEARTBEAT, whose layout R333 does not give, by the number of frames sent
before it; at most 4,096 bytes of it are the frame's. -/
opaque Config.pairBody : Nat → List Byte

/-- Width and speed of the PCI Express link as HOST_STAT [6:1] codes them: what link training, outside the block, has
negotiated. -/
opaque Config.hostLink : BitVec 6

end Sys2Proof
end

