-- ==== Sys2Proof/Machine/RegMap.lean ====
section
/-! DEFINITION. The register map of BAR0 (R370, R371 and the register tables of every chapter): each
register's offset, its reset value and the access code of its bits (R10). -/

namespace Sys2Proof.Machine

/-- One register of a block: `count` words from block offset `off`, `stride` bytes apart.
`read` marks the bits that read back, `rw` those a write stores, `w1c` the W1C status bits and
`cnts` the W1C counter fields as (high bit, low bit). -/
structure RegRow where
  off : Nat
  count : Nat
  stride : Nat
  reset : Word
  read : Word
  rw : Word
  w1c : Word
  cnts : List (Nat × Nat)

/-- One block of BAR0: `count` replicas of `stride` bytes from `base`, and the registers of one replica. -/
structure RegBlock where
  base : Nat
  count : Nat
  stride : Nat
  regs : List RegRow

/-- The registers of block GLB (R372 of 20_register_map.md). -/
def regsGlb : List RegRow :=
  [⟨0x0, 1, 0, 0x724000B1, 0xFFFF00FF, 0x0, 0x0, []⟩,
   ⟨0x4, 1, 0, Config.uid.setWidth 32, 0xFFFFFFFF, 0x0, 0x0, []⟩,
   ⟨0x8, 1, 0, (Config.uid >>> 32).setWidth 32, 0xFFFFFFFF, 0x0, 0x0, []⟩,
   ⟨0xC, 1, 0, 0x8081A18, 0xFFFFFFFF, 0x0, 0x0, []⟩,
   ⟨0x10, 1, 0, 0x0, 0x1FFFF, 0x0, 0x0, []⟩,
   ⟨0x14, 1, 0, 0x1, 0x1FFFF, 0x1FFFF, 0x0, []⟩,
   ⟨0x18, 1, 0, 0x0, 0xFFFF, 0xFFFF, 0x0, []⟩,
   ⟨0x1C, 1, 0, 0x0, 0xFFFFFFFF, 0x0, 0x0, [(31, 0)]⟩,
   ⟨0x20, 1, 0, 0x0, 0xFFFF, 0x0, 0x0, []⟩,
   ⟨0x24, 1, 0, 0x0, 0xFFFFFF, 0x0, 0x0, []⟩,
   ⟨0x28, 1, 0, 0x0, 0x3FFFFFF, 0x0, 0x0, []⟩,
   ⟨0x2C, 1, 0, 0x0, 0xFFFFFF, 0x0, 0x0, []⟩]

/-- The registers of block SUP (R369 of 19_power_up.md). -/
def regsSup : List RegRow :=
  [⟨0x0, 1, 0, 0x300, 0xFFF, 0x0, 0x400, []⟩,
   ⟨0x4, 1, 0, 0x0, 0xFF, 0x0, 0xFF, []⟩,
   ⟨0x8, 1, 0, 0, 0x7F, 0x0, 0x0, []⟩,
   ⟨0xC, 1, 0, 0x0, 0x0, 0x0, 0x0, []⟩,
   ⟨0x10, 4, 4, 0x0, 0xFFFFFFFF, 0x0, 0x0, [(31, 16), (15, 0)]⟩]

/-- The registers of block POS (R40 of 02_position_and_time.md). -/
def regsPos : List RegRow :=
  [⟨0x0, 1, 0, 0x200, 0x3FF, 0x3FF, 0x0, []⟩,
   ⟨0x4, 1, 0, 0x8, 0x3FF, 0x3FF, 0x0, []⟩,
   ⟨0x8, 1, 0, 0xC350, 0xFFFFF, 0xFFFFF, 0x0, []⟩,
   ⟨0xC, 1, 0, 0x1, 0x1FF, 0x0, 0x170, []⟩,
   ⟨0x10, 1, 0, 0x0, 0xFFFFFFFF, 0x0, 0x0, []⟩,
   ⟨0x14, 1, 0, 0x0, 0xFFFFFFFF, 0x0, 0x0, []⟩,
   ⟨0x18, 1, 0, 0x0, 0xFFFFFFFF, 0x0, 0x0, []⟩,
   ⟨0x1C, 1, 0, 0x0, 0xFFFFFFFF, 0x0, 0x0, []⟩,
   ⟨0x20, 1, 0, 0x0, 0xFFFFFFFF, 0x0, 0x0, []⟩,
   ⟨0x24, 1, 0, 0x0, 0xFFFFFFFF, 0x0, 0x0, []⟩,
   ⟨0x28, 1, 0, 0x0, 0xFFFFFFFF, 0xFFFFFFFF, 0x0, []⟩,
   ⟨0x2C, 1, 0, 0x0, 0xFFFF, 0xFFFF, 0x0, []⟩]
  ++ [⟨0x30, 1, 0, 0x0, 0xFFFFFFFF, 0x0, 0x0, []⟩,
   ⟨0x34, 1, 0, 0x0, 0xFFFFFFFF, 0x0, 0x0, [(31, 16), (15, 0)]⟩,
   ⟨0x38, 1, 0, 0xA00, 0xFFFFFF, 0xFFFFFF, 0x0, []⟩,
   ⟨0x3C, 1, 0, 0x1000000, 0xFFFFFFFF, 0xFFFFFFFF, 0x0, []⟩,
   ⟨0x40, 1, 0, 0x0, 0x0, 0x0, 0x0, []⟩]

/-- The registers of block STK_GRP (R67 of 03_strike_and_lockstep.md). -/
def regsStkGrp : List RegRow :=
  [⟨0x0, 1, 0, 0x0, 0x377, 0x377, 0x0, []⟩,
   ⟨0x4, 1, 0, 0x100, 0xFFFFFFFF, 0xFFFFFFFF, 0x0, []⟩,
   ⟨0x8, 1, 0, 0x0, 0xFFFFFFFF, 0xFFFFFFFF, 0x0, []⟩,
   ⟨0xC, 1, 0, 0x0, 0xFFFF, 0xFFFF, 0x0, []⟩,
   ⟨0x10, 1, 0, 0x3E8, 0xFFFFFF, 0xFFFFFF, 0x0, []⟩,
   ⟨0x14, 1, 0, 0xC8, 0xFFFFFFFF, 0x0, 0x0, []⟩,
   ⟨0x18, 1, 0, 0x0, 0xF, 0x0, 0x7, []⟩,
   ⟨0x1C, 1, 0, 0x0, 0xFFFFFFFF, 0x0, 0x0, [(31, 16), (15, 0)]⟩,
   ⟨0x20, 1, 0, 0x0, 0xFFFF0000, 0x0, 0x0, [(31, 16)]⟩,
   ⟨0x24, 1, 0, 0x0, 0x1FFFFF, 0x0, 0x0, []⟩,
   ⟨0x28, 1, 0, 0x0, 0xFFFFFFFF, 0x0, 0x0, []⟩,
   ⟨0x2C, 1, 0, 0x0, 0xFFFFFFFF, 0x0, 0x0, []⟩]
  ++ [⟨0x30, 1, 0, 0x0, 0xFFFFFFFF, 0x0, 0x0, []⟩,
   ⟨0x34, 1, 0, 0x0, 0xFFFFFFFF, 0x0, 0x0, []⟩,
   ⟨0x38, 1, 0, 0x0, 0xF, 0x0, 0x0, []⟩,
   ⟨0x3C, 1, 0, 0x0, 0xFFFFFFFF, 0x0, 0x0, []⟩,
   ⟨0x40, 1, 0, 0x0, 0xFFFFFFFF, 0x0, 0x0, []⟩,
   ⟨0x44, 1, 0, 0x0, 0x0, 0x0, 0x0, []⟩]

/-- The registers of block STK (R67 of 03_strike_and_lockstep.md). -/
def regsStk : List RegRow :=
  [⟨0x0, 24, 4, 0x0, 0xFF07, 0xFF07, 0x0, []⟩,
   ⟨0x400, 1, 0, 0x0, 0xFFFFFFFF, 0x0, 0x0, [(31, 16), (15, 0)]⟩,
   ⟨0x404, 1, 0, 0x0, 0xF03, 0x0, 0x0, []⟩]

/-- The registers of block TIM (R50 of 02_position_and_time.md). -/
def regsTim : List RegRow :=
  [⟨0x0, 1, 0, 0xA00, 0xFF3F, 0xFF3F, 0x0, []⟩,
   ⟨0x4, 1, 0, 0x0, 0x0, 0x0, 0x0, []⟩,
   ⟨0x8, 1, 0, 0x0, 0xFF, 0x0, 0x97, []⟩,
   ⟨0xC, 1, 0, 0x0, 0xFFFFFFFF, 0x0, 0x0, [(31, 24), (23, 16), (15, 8), (7, 0)]⟩,
   ⟨0x10, 1, 0, 0x0, 0xFFFFFFFF, 0x0, 0x0, []⟩,
   ⟨0x14, 1, 0, 0x0, 0xFFFFFFFF, 0x0, 0x0, []⟩,
   ⟨0x18, 1, 0, 0x0, 0xFFFFFFFF, 0x0, 0x0, []⟩,
   ⟨0x1C, 1, 0, 0x0, 0xFFFFFFFF, 0xFFFFFFFF, 0x0, []⟩,
   ⟨0x20, 1, 0, 0x2, 0xFF, 0xFF, 0x0, []⟩,
   ⟨0x24, 1, 0, 0x0, 0xFFFFFFFF, 0xFFFFFFFF, 0x0, []⟩,
   ⟨0x28, 1, 0, 0x0, 0xFFFFFFFF, 0xFFFFFFFF, 0x0, []⟩,
   ⟨0x2C, 1, 0, 0x0, 0xFFFFFFFF, 0xFFFFFFFF, 0x0, []⟩]
  ++ [⟨0x30, 1, 0, 0x0, 0xFFFFFFFF, 0x0, 0x0, []⟩,
   ⟨0x34, 1, 0, 0x0, 0xFFFFFFFF, 0x0, 0x0, []⟩,
   ⟨0x38, 1, 0, 0x0, 0xFFFFFFFF, 0x0, 0x0, []⟩,
   ⟨0x3C, 1, 0, 0x0, 0xFFFFFFFF, 0xFFFFFFFF, 0x0, []⟩,
   ⟨0x40, 1, 0, 0x0, 0xFFFFFFFF, 0xFFFFFFFF, 0x0, []⟩,
   ⟨0x44, 1, 0, 0x3B9ACA00, 0xFFFFFFFF, 0xFFFFFFFF, 0x0, []⟩,
   ⟨0x48, 1, 0, 0x3E8, 0xFFFFFFFF, 0xFFFFFFFF, 0x0, []⟩,
   ⟨0x4C, 1, 0, 0x0, 0xFFFFFFFF, 0xFFFFFFFF, 0x0, []⟩,
   ⟨0x50, 1, 0, 0x0, 0xFFFFFFFF, 0x0, 0x0, []⟩,
   ⟨0x54, 1, 0, 0x0, 0xFFFFFFFF, 0x0, 0x0, []⟩,
   ⟨0x58, 1, 0, 0x0, 0xFFFFFFFF, 0x0, 0x0, []⟩,
   ⟨0x5C, 1, 0, 0x0, 0xFFFFFFFF, 0x0, 0x0, []⟩]
  ++ [⟨0x60, 1, 0, 0x0, 0xFFFFFFFF, 0x0, 0x0, []⟩,
   ⟨0x64, 1, 0, 0x0, 0xFFFFFFFF, 0x0, 0x0, []⟩,
   ⟨0x68, 1, 0, 0x0, 0xFFFFFFFF, 0xFFFFFFFF, 0x0, []⟩,
   ⟨0x6C, 1, 0, 0x14, 0xFFFFFFFF, 0xFFFFFFFF, 0x0, []⟩,
   ⟨0x70, 1, 0, 0x3E8, 0xFFFFFFFF, 0xFFFFFFFF, 0x0, []⟩]

/-- The registers of block ACT (R213 of 10_verdicts_and_actions.md). -/
def regsAct : List RegRow :=
  [⟨0x0, 1, 0, 0x800, 0x11FFF, 0x11FFF, 0x0, []⟩,
   ⟨0x4, 1, 0, 0x0, 0x71FFF, 0x0, 0x70000, []⟩,
   ⟨0x8, 1, 0, 0x2710, 0xFFFFFFFF, 0xFFFFFFFF, 0x0, []⟩,
   ⟨0xC, 1, 0, 0x100, 0xFFFFFF, 0xFFFFFF, 0x0, []⟩,
   ⟨0x10, 1, 0, 0x0, 0xFFFFFFFF, 0x0, 0x0, [(31, 16), (15, 0)]⟩,
   ⟨0x14, 1, 0, 0x0, 0xFFFFFFFF, 0x0, 0x0, [(31, 16), (15, 0)]⟩,
   ⟨0x18, 1, 0, 0x0, 0xFFFFFFFF, 0x0, 0x0, [(31, 16), (15, 0)]⟩,
   ⟨0x1C, 1, 0, 0x0, 0x1FFF, 0x0, 0x0, []⟩,
   ⟨0x20, 1, 0, 0xFFFF0000, 0xFFFFFFFF, 0xFFFFFFFF, 0x0, []⟩,
   ⟨0x24, 1, 0, 0x0, 0xFFFF, 0x0, 0x0, []⟩,
   ⟨0x28, 1, 0, 0x0, 0x0, 0x0, 0x0, []⟩,
   ⟨0x2C, 1, 0, 0x0, 0x0, 0x0, 0x0, []⟩]
  ++ [⟨0x30, 1, 0, 0x0, 0x7FFFF, 0x7FFFF, 0x0, []⟩,
   ⟨0x34, 1, 0, 0x64, 0x1FFFF, 0x1FFFF, 0x0, []⟩,
   ⟨0x38, 1, 0, 0x0, 0xFFFF, 0x0, 0xFF00, []⟩,
   ⟨0x100, 8, 16, 0x0, 0xFFFFFFFF, 0x0, 0x0, []⟩,
   ⟨0x104, 8, 16, 0x0, 0xFFFFFFFF, 0x0, 0x0, []⟩,
   ⟨0x108, 8, 16, 0x0, 0xFFFFFFFF, 0x0, 0x0, []⟩,
   ⟨0x10C, 8, 16, 0x0, 0xFFFFFFFF, 0x0, 0x0, []⟩]

/-- The registers of block ACTQ (R202 of 10_verdicts_and_actions.md). -/
def regsActq : List RegRow :=
  [⟨0x0, 1, 0, 0x0, 0xFFFFFFFF, 0xFFFFFFFF, 0x0, []⟩,
   ⟨0x4, 1, 0, 0x0, 0xFFFFFFFF, 0xFFFFFFFF, 0x0, []⟩,
   ⟨0x8, 1, 0, 0x200, 0x1F07FF, 0x1F07FF, 0x0, []⟩,
   ⟨0xC, 1, 0, 0x0, 0x30FFFFFF, 0xFFFFFF, 0x0, []⟩]

/-- The registers of block SEQ (R258 of 12_troek_sequencer.md). -/
def regsSeq : List RegRow :=
  [⟨0x0, 1, 0, 0xA01, 0xFF01, 0xFF01, 0x0, []⟩,
   ⟨0x4, 1, 0, 0x0, 0x1FFF, 0x0, 0x120F, []⟩,
   ⟨0x8, 1, 0, 0x0, 0x0, 0x0, 0x0, []⟩,
   ⟨0xC, 1, 0, 0x0, 0x3FFF3FFF, 0x3FFF3FFF, 0x0, []⟩,
   ⟨0x10, 1, 0, 0x0, 0xFFFFFFFF, 0x0, 0x0, [(31, 16), (15, 0)]⟩]

/-- The registers of block SEQ_T (R258 of 12_troek_sequencer.md). -/
def regsSeqT : List RegRow :=
  [⟨0x0, 1, 0, 0x0, 0x0, 0x0, 0x0, []⟩,
   ⟨0x4, 1, 0, 0x0, 0x3FFF, 0x3FFF, 0x0, []⟩,
   ⟨0x8, 1, 0, 0x0, 0x3FFF0F7F, 0x0, 0x0, []⟩,
   ⟨0xC, 1, 0, 0x0, 0x3FFF, 0x0, 0x0, []⟩,
   ⟨0x10, 1, 0, 0x0, 0xFF, 0x0, 0xFF, []⟩,
   ⟨0x14, 1, 0, 0x0, 0x0, 0x0, 0x0, []⟩,
   ⟨0x18, 1, 0, 0x0, 0xFFFFFFFF, 0x0, 0x0, []⟩,
   ⟨0x1C, 1, 0, 0x0, 0xFFFFFFFF, 0x0, 0x0, []⟩,
   ⟨0x20, 1, 0, 0x0, 0xFFFFFFFF, 0x0, 0x0, []⟩]

/-- The registers of block HOST (R280 of 13_host_interface.md). -/
def regsHost : List RegRow :=
  [⟨0x0, 1, 0, 0x1, 0x1, 0x1, 0x0, []⟩,
   ⟨0x4, 1, 0, 0x0, 0x3FF, 0x0, 0x200, []⟩,
   ⟨0x8, 1, 0, 0x0, 0xFFFFFFFF, 0xFFFFFFFF, 0x0, []⟩,
   ⟨0xC, 1, 0, 0x0, 0x3, 0x3, 0x0, []⟩,
   ⟨0x10, 1, 0, 0x0, 0xFFFFFFFF, 0x0, 0x0, [(31, 0)]⟩,
   ⟨0x14, 1, 0, 0x0, 0xFFFFFFFF, 0x0, 0x0, [(31, 16), (15, 0)]⟩,
   ⟨0x18, 1, 0, 0x0, 0x7FF, 0x0, 0x0, []⟩,
   ⟨0x1C, 1, 0, 0x0, 0xFF, 0x0, 0x0, []⟩]

/-- The registers of block HOST_RING (R280 of 13_host_interface.md). -/
def regsHostRing : List RegRow :=
  [⟨0x0, 1, 0, 0, 0xFFFF0001, 0xFFFF0001, 0x0, []⟩,
   ⟨0x4, 1, 0, 0x0, 0xFFFFFFC0, 0xFFFFFFC0, 0x0, []⟩,
   ⟨0x8, 1, 0, 0x0, 0xFFFFFFFF, 0xFFFFFFFF, 0x0, []⟩,
   ⟨0xC, 1, 0, 0x0, 0xFFFF, 0xFFFF, 0x0, []⟩,
   ⟨0x10, 1, 0, 0x0, 0xFFFF, 0x0, 0x0, []⟩,
   ⟨0x14, 1, 0, 0x0, 0x7, 0x0, 0x4, []⟩,
   ⟨0x18, 1, 0, 0x0, 0xFFFFFFFF, 0x0, 0x0, [(31, 0)]⟩]

/-- The registers of block STR (R280 of 13_host_interface.md). -/
def regsStr : List RegRow :=
  [⟨0x0, 1, 0, 0x300, 0xFFFF3F3F, 0xFFFF3F3F, 0x0, []⟩,
   ⟨0x4, 1, 0, 0x1006, 0xFFFFFF0F, 0xFFFFFF0F, 0x0, []⟩,
   ⟨0x8, 1, 0, 0x0, 0xFFFFFFC0, 0xFFFFFFC0, 0x0, []⟩,
   ⟨0xC, 1, 0, 0x0, 0xFFFFFFFF, 0xFFFFFFFF, 0x0, []⟩,
   ⟨0x10, 1, 0, 0x0, 0xFFF, 0xFFF, 0x0, []⟩,
   ⟨0x14, 1, 0, 0x0, 0x1F0FFF, 0x0, 0x0, []⟩,
   ⟨0x18, 1, 0, 0x0, 0x7, 0x0, 0x6, []⟩,
   ⟨0x1C, 1, 0, 0x0, 0xFFFFFFFF, 0x0, 0x0, [(31, 16), (15, 0)]⟩]

/-- The registers of block MSIX (R280 of 13_host_interface.md). -/
def regsMsix : List RegRow :=
  [⟨0x0, 64, 16, 0x0, 0xFFFFFFFC, 0xFFFFFFFC, 0x0, []⟩,
   ⟨0x4, 64, 16, 0x0, 0xFFFFFFFF, 0xFFFFFFFF, 0x0, []⟩,
   ⟨0x8, 64, 16, 0x0, 0xFFFFFFFF, 0xFFFFFFFF, 0x0, []⟩,
   ⟨0xC, 64, 16, 0x0, 0x1, 0x1, 0x0, []⟩,
   ⟨0x1000, 2, 4, 0x0, 0xFFFFFFFF, 0x0, 0x0, []⟩]

/-- The registers of block BUD (R298 of 14_budget_and_thermal.md). -/
def regsBud : List RegRow :=
  [⟨0x0, 1, 0, 0x0, 0x701, 0x701, 0x0, []⟩,
   ⟨0x4, 1, 0, 0x3E80008, 0x3FF007F, 0x0, 0x0, []⟩,
   ⟨0x8, 1, 0, 0x0, 0xFFFFFFFF, 0xFFFFFFFF, 0x0, []⟩,
   ⟨0xC, 1, 0, 0x2710, 0xFFFFFFFF, 0xFFFFFFFF, 0x0, []⟩,
   ⟨0x10, 1, 0, 0x0, 0xFFFFFFFF, 0x0, 0x0, []⟩,
   ⟨0x14, 1, 0, 0x7FFFFFFF, 0xFFFFFFFF, 0x0, 0x0, []⟩,
   ⟨0x18, 1, 0, 0x0, 0xFFFFFFFF, 0x0, 0x0, [(31, 16), (15, 0)]⟩,
   ⟨0x1C, 1, 0, 0x0, 0xFF, 0x0, 0x0, []⟩,
   ⟨0x20, 8, 4, 0x0, 0xFFFFFF, 0x0, 0x0, []⟩]

/-- The registers of block THM (R299 of 14_budget_and_thermal.md). -/
def regsThm : List RegRow :=
  [⟨0x0, 1, 0, 0x33, 0xFF, 0xFF, 0x0, []⟩,
   ⟨0x4, 1, 0, 0x10, 0x7F, 0x0, 0x48, []⟩,
   ⟨0x8, 1, 0, 0x0, 0x0, 0x0, 0x0, []⟩,
   ⟨0xC, 1, 0, 0xA, 0xFFFF, 0xFFFF, 0x0, []⟩,
   ⟨0x10, 1, 0, 0x5500, 0xFFFFFFFF, 0x0, 0x0, []⟩,
   ⟨0x14, 1, 0, 0x0, 0x7, 0x0, 0x0, []⟩,
   ⟨0x18, 1, 0, 0x0, 0xFFFFFFFF, 0xFFFFFFFF, 0x0, []⟩,
   ⟨0x1C, 1, 0, 0xFFFFFFFF, 0xFFFFFFFF, 0x0, 0x0, []⟩,
   ⟨0x20, 1, 0, 0x5500, 0xFFFFFFFF, 0xFFFFFFFF, 0x0, []⟩,
   ⟨0x24, 1, 0, 0x5F00, 0xFFFFFFFF, 0xFFFFFFFF, 0x0, []⟩,
   ⟨0x28, 1, 0, 0x6400, 0xFFFFFFFF, 0xFFFFFFFF, 0x0, []⟩,
   ⟨0x2C, 1, 0, 0x7300, 0xFFFFFFFF, 0xFFFFFFFF, 0x0, []⟩]
  ++ [⟨0x30, 1, 0, 0x280808, 0xFFFFFF, 0xFFFFFF, 0x0, []⟩,
   ⟨0x34, 1, 0, 0x0, 0xFFFFFFFF, 0x0, 0x0, [(31, 16), (15, 0)]⟩,
   ⟨0x38, 1, 0, 0x0, 0xFFFFFFFF, 0x0, 0x0, [(31, 16), (15, 0)]⟩,
   ⟨0x40, 6, 4, 0x5500, 0xFFFFFFFF, 0x0, 0x0, []⟩,
   ⟨0x60, 1, 0, Config.rhot.setWidth 32, 0xFFFF, 0x0, 0x0, []⟩,
   ⟨0x68, 1, 0, 0x0, 0xFFFFFFFF, 0x0, 0x0, []⟩,
   ⟨0x6C, 1, 0, 0x0, 0xFFFFFFFF, 0x0, 0x0, []⟩]

/-- The registers of block SVC (R331 of 16_service_port.md). -/
def regsSvc : List RegRow :=
  [⟨0x0, 1, 0, 0x80040103, 0xF0FFFF03, 0xF0FFFF03, 0x0, []⟩,
   ⟨0x4, 1, 0, 0x0, 0xFF, 0x0, 0xEE, []⟩,
   ⟨0x8, 1, 0, 0x0, 0xFFFFFFFF, 0x0, 0x0, [(31, 16), (15, 0)]⟩,
   ⟨0xC, 1, 0, 0x0, 0xFFFFFFFF, 0x0, 0x0, [(31, 16), (15, 0)]⟩,
   ⟨0x10, 1, 0, 0x4002001, 0xFF0F3F0F, 0xFF0F3F0F, 0x0, []⟩,
   ⟨0x14, 1, 0, 0x0, 0x0, 0x0, 0x0, []⟩,
   ⟨0x18, 1, 0, 0x6441002, 0xFFFF3F1F, 0xFFFF3F1F, 0x0, []⟩,
   ⟨0x1C, 1, 0, 0x0, 0xFFFFFFFF, 0xFFFFFFFF, 0x0, []⟩,
   ⟨0x20, 1, 0, 0x0, 0xFFFFFFFF, 0x0, 0x0, []⟩,
   ⟨0x24, 1, 0, 0x0, 0xFFFFFFFF, 0x0, 0x0, [(31, 16), (15, 0)]⟩,
   ⟨0x40, 16, 4, 0x0, 0xFFFFFFFF, 0xFFFFFFFF, 0x0, []⟩,
   ⟨0x80, 16, 4, 0x0, 0xFFFFFFFF, 0x0, 0x0, []⟩]

/-- The registers of block PAIR (R346 of 17_pair_operation.md). -/
def regsPair : List RegRow :=
  [⟨0x0, 1, 0, 0x22F74, 0xFF3FFF, 0xFF3FFF, 0x0, []⟩,
   ⟨0x4, 1, 0, 0x0, 0x3F3F, 0x0, 0x3700, []⟩,
   ⟨0x8, 1, 0, 0x0, 0x0, 0x0, 0x0, []⟩,
   ⟨0xC, 1, 0, 0x0, 0x3, 0x0, 0x0, []⟩,
   ⟨0x10, 1, 0, 0x0, 0xFFFFFFFF, 0x0, 0x0, []⟩,
   ⟨0x14, 1, 0, 0x0, 0xFFFFFFFF, 0x0, 0x0, []⟩,
   ⟨0x18, 1, 0, 0x0, 0xFFFFFFFF, 0xFFFFFFFF, 0x0, []⟩,
   ⟨0x1C, 1, 0, 0x0, 0xFFFFFFFF, 0x0, 0x0, []⟩,
   ⟨0x20, 1, 0, 0x0, 0xFFFFFFFF, 0x0, 0x0, [(31, 16), (15, 0)]⟩,
   ⟨0x24, 1, 0, 0x0, 0xFFFFFFFF, 0x0, 0x0, [(31, 16), (15, 0)]⟩,
   ⟨0x28, 1, 0, 0x0, 0xFFFFFFFF, 0x0, 0x0, [(31, 16), (15, 0)]⟩,
   ⟨0x2C, 1, 0, 0x1F, 0x71F, 0x0, 0x0, []⟩]
  ++ [⟨0x30, 1, 0, 0x0, 0xFFFFFFFF, 0x0, 0x0, []⟩,
   ⟨0x34, 1, 0, 0xFFFF, 0xFFFF, 0x0, 0x0, []⟩,
   ⟨0x38, 1, 0, 0x0, 0xFFFFFFFF, 0xFFFFFFFF, 0x0, []⟩,
   ⟨0x3C, 1, 0, 0x0, 0xFFFFFFFF, 0xFFFFFFFF, 0x0, []⟩,
   ⟨0x40, 1, 0, 0x0, 0x1, 0x1, 0x0, []⟩]

/-- The registers of block FLT (R361 of 18_faults_and_recovery.md). -/
def regsFlt : List RegRow :=
  [⟨0x0, 1, 0, 0x0, 0x3FFFF, 0x0, 0x3FFFF, []⟩,
   ⟨0x4, 1, 0, 0x3FFFE, 0x3FFFF, 0x3FFFF, 0x0, []⟩,
   ⟨0x8, 1, 0, 0x0, 0x8000001F, 0x0, 0x0, []⟩,
   ⟨0xC, 1, 0, 0x0, 0xFFFFFFFF, 0x0, 0x0, []⟩,
   ⟨0x10, 1, 0, 0x0, 0xFFFFFFFF, 0x0, 0x0, []⟩,
   ⟨0x14, 1, 0, 0x0, 0xFFFFFFFF, 0x0, 0x0, [(31, 16), (15, 0)]⟩,
   ⟨0x18, 1, 0, 0x0, 0xFFFFFFFF, 0x0, 0x0, [(31, 16), (15, 0)]⟩,
   ⟨0x1C, 1, 0, 0x0, 0x7, 0x0, 0x0, []⟩,
   ⟨0x20, 1, 0, 0x0, 0x3, 0x0, 0x2, []⟩,
   ⟨0x24, 1, 0, 0x0, 0x0, 0x0, 0x0, []⟩,
   ⟨0x28, 1, 0, 0x0, 0xFFFFFFFF, 0x0, 0x0, []⟩]

/-- The registers of block CAL (R235 of 11_shutter_calibration.md). -/
def regsCal : List RegRow :=
  [⟨0x0, 1, 0, 0x10080003, 0xFFFF0007, 0xFFFF0007, 0x0, []⟩,
   ⟨0x4, 1, 0, 0x0, 0x1FF, 0x1FF, 0x0, []⟩,
   ⟨0x8, 1, 0, 0x4000, 0xFFFFFF, 0xFFFFFF, 0x0, []⟩,
   ⟨0xC, 1, 0, 0x708, 0xFFFFFFFF, 0xFFFFFFFF, 0x0, []⟩,
   ⟨0x10, 1, 0, 0x3C, 0xFFFFFFFF, 0xFFFFFFFF, 0x0, []⟩,
   ⟨0x14, 1, 0, 0x258, 0xFFFFFFFF, 0xFFFFFFFF, 0x0, []⟩,
   ⟨0x18, 1, 0, 0x78, 0xFFFF, 0xFFFF, 0x0, []⟩,
   ⟨0x1C, 1, 0, 0x28, 0xFFFF, 0xFFFF, 0x0, []⟩,
   ⟨0x20, 1, 0, 0x800, 0xFFFFFF, 0xFFFFFF, 0x0, []⟩,
   ⟨0x24, 1, 0, 0x100, 0xFFFFFF, 0xFFFFFF, 0x0, []⟩,
   ⟨0x28, 1, 0, 0x20000, 0xFFFFFF, 0xFFFFFF, 0x0, []⟩,
   ⟨0x2C, 1, 0, 0x40, 0x3FFFFF, 0x3FFFFF, 0x0, []⟩]
  ++ [⟨0x30, 1, 0, 0x10, 0xFF, 0xFF, 0x0, []⟩,
   ⟨0x34, 1, 0, 0x0, 0xFFFFFFFF, 0xFFFFFFFF, 0x0, []⟩,
   ⟨0x38, 1, 0, 0x0, 0xFFFF, 0xFFFF, 0x0, []⟩,
   ⟨0x3C, 1, 0, 0x0, 0xFFFFFFFF, 0xFFFFFFFF, 0x0, []⟩,
   ⟨0x40, 1, 0, 0x0, 0xFFFF, 0xFFFF, 0x0, []⟩,
   ⟨0x44, 1, 0, 0x0, 0x1, 0x0, 0x0, []⟩]

/-- The registers of block CAL_H (R236 of 11_shutter_calibration.md). -/
def regsCalH : List RegRow :=
  [⟨0x0, 1, 0, 0x0, 0x0, 0x0, 0x0, []⟩,
   ⟨0x4, 1, 0, 0x0, 0xFFFFF0FF, 0x0, 0xE0, []⟩,
   ⟨0x8, 1, 0, 0x0, 0xFFFFFFFF, 0xFFFFFFFF, 0x0, []⟩,
   ⟨0xC, 1, 0, 0x0, 0xFFFFFFFF, 0x0, 0x0, []⟩,
   ⟨0x10, 1, 0, 0xFFFFFFFF, 0xFFFFFFFF, 0x0, 0x0, []⟩,
   ⟨0x14, 1, 0, 0x0, 0xFFFFFF, 0x0, 0x0, []⟩,
   ⟨0x18, 1, 0, 0x0, 0xFFFFFF, 0x0, 0x0, []⟩,
   ⟨0x1C, 1, 0, 0x0, 0xFFFFFFFF, 0x0, 0x0, []⟩,
   ⟨0x20, 1, 0, 0x0, 0x3FFFFF, 0x0, 0x0, []⟩,
   ⟨0x24, 1, 0, 0x0, 0xFFFFFFFF, 0x0, 0x0, []⟩,
   ⟨0x28, 1, 0, 0x0, 0xFFFFFFFF, 0x0, 0x0, []⟩,
   ⟨0x2C, 1, 0, 0x0, 0xFFFFFFFF, 0xFFFFFFFF, 0x0, []⟩]
  ++ [⟨0x30, 1, 0, 0x0, 0xFFFFFFFF, 0x0, 0x0, [(31, 16), (15, 0)]⟩,
   ⟨0x34, 1, 0, 0x0, 0xFFFF, 0x0, 0x0, [(15, 0)]⟩]

/-- The registers of block LDG (R319 of 15_ledger.md). -/
def regsLdg : List RegRow :=
  [⟨0x0, 1, 0, 0xE10, 0xFFFF, 0xFFFF, 0x0, []⟩,
   ⟨0x4, 1, 0, 0x0, 0x3F07, 0x0, 0x4, []⟩,
   ⟨0x8, 1, 0, 0x0, 0x0, 0x0, 0x0, []⟩,
   ⟨0xC, 1, 0, 0x80, 0xFF, 0xFF, 0x0, []⟩,
   ⟨0x10, 1, 0, 0x0, 0xFFFFFFFF, 0x0, 0x0, [(31, 16), (15, 0)]⟩,
   ⟨0x14, 1, 0, 0x0, 0xFFFFFFFF, 0x0, 0x0, [(31, 16), (15, 0)]⟩,
   ⟨0x18, 1, 0, 0x0, 0xFFFFFFFF, 0x0, 0x0, [(31, 16), (15, 0)]⟩,
   ⟨0x1C, 1, 0, 0x0, 0x7FF, 0x0, 0x0, []⟩,
   ⟨0x20, 1, 0, 0x0, 0xFFFFFFFF, 0x0, 0x0, []⟩,
   ⟨0x24, 1, 0, 0x0, 0x7FF, 0x0, 0x0, []⟩,
   ⟨0x28, 1, 0, 0x0, 0xBF, 0x0, 0x0, []⟩]

/-- The registers of block SEAM (R194 of 09_bands_and_seams.md). -/
def regsSeam : List RegRow :=
  [⟨0x0, 1, 0, 0x1000000, 0x1F1F0707, 0x1F1F0707, 0x0, []⟩,
   ⟨0x4, 1, 0, 0x0, 0xFF, 0x0, 0x82, []⟩,
   ⟨0x8, 1, 0, 0x100, 0xFFFFFF, 0xFFFFFF, 0x0, []⟩,
   ⟨0xC, 1, 0, 0x0, 0xFFFFFFFF, 0xFFFFFFFF, 0x0, []⟩,
   ⟨0x10, 1, 0, 0x0, 0xFFFF, 0xFFFF, 0x0, []⟩,
   ⟨0x14, 1, 0, 0x0, 0xFFFFFF, 0x0, 0x0, []⟩,
   ⟨0x18, 1, 0, 0xC8, 0xFFFF, 0xFFFF, 0x0, []⟩,
   ⟨0x1C, 1, 0, 0x0, 0xFFFF, 0x0, 0x0, []⟩,
   ⟨0x20, 6, 4, 0x1F1F1F1F, 0x1F1F1F1F, 0x1F1F1F1F, 0x0, []⟩,
   ⟨0x38, 1, 0, 0x0, 0xFFFFFFFF, 0x0, 0x0, []⟩,
   ⟨0x3C, 1, 0, 0x0, 0xFFFFFFFF, 0x0, 0x0, [(31, 16), (15, 0)]⟩,
   ⟨0x40, 1, 0, 0x258, 0xFFFF, 0xFFFF, 0x0, []⟩]
  ++ [⟨0x44, 1, 0, 0x3E8, 0xFFFF, 0xFFFF, 0x0, []⟩,
   ⟨0x48, 1, 0, 0x1000, 0xFFFFFF, 0xFFFFFF, 0x0, []⟩,
   ⟨0x4C, 1, 0, 0x12C000, 0xFFFFFF, 0xFFFFFF, 0x0, []⟩,
   ⟨0x50, 1, 0, 0x640000, 0xFFFFFF, 0xFFFFFF, 0x0, []⟩,
   ⟨0x54, 1, 0, 0x800, 0xFFFFFF, 0xFFFFFF, 0x0, []⟩,
   ⟨0x58, 1, 0, 0x320000, 0xFFFFFF, 0xFFFFFF, 0x0, []⟩,
   ⟨0x5C, 1, 0, 0x14000, 0xFFFFFF, 0xFFFFFF, 0x0, []⟩,
   ⟨0x60, 1, 0, 0x0, 0xFFFFFFFF, 0x0, 0x0, [(31, 16), (15, 0)]⟩]

/-- The registers of block SEAM_S (R194 of 09_bands_and_seams.md). -/
def regsSeamS : List RegRow :=
  [⟨0x0, 1, 0, 0x0, 0xFF0FFF, 0xFF0FFF, 0x0, []⟩,
   ⟨0x4, 1, 0, 0x0, 0xFFF, 0xFFF, 0x0, []⟩,
   ⟨0x8, 1, 0, 0x0, 0xFFFFFFFF, 0xFFFFFFFF, 0x0, []⟩,
   ⟨0xC, 1, 0, 0x0, 0xFFFF, 0xFFFF, 0x0, []⟩,
   ⟨0x10, 1, 0, 0x0, 0x3, 0x0, 0x0, []⟩,
   ⟨0x14, 1, 0, 0x0, 0xFFFFFFFF, 0x0, 0x0, []⟩,
   ⟨0x18, 1, 0, 0x0, 0xFFFFFFFF, 0x0, 0x0, []⟩,
   ⟨0x1C, 1, 0, 0x0, 0xFFFFFFFF, 0x0, 0x0, []⟩]

/-- The registers of block SEAM_H (R194 of 09_bands_and_seams.md). -/
def regsSeamH : List RegRow :=
  [⟨0x0, 1, 0, 0x400000, 0xFFFFFF, 0xFFFFFF, 0x0, []⟩,
   ⟨0x4, 1, 0, 0x0, 0x3FFFF, 0x3FFFF, 0x0, []⟩,
   ⟨0x8, 1, 0, 0x0, 0xFFFFFFFF, 0x0, 0x0, []⟩,
   ⟨0xC, 1, 0, 0x40000000, 0xFFFFFFFF, 0x0, 0x0, []⟩]

/-- The registers of block Z (R196 of 10_verdicts_and_actions.md). -/
def regsZ : List RegRow :=
  [⟨0x0, 1, 0, 0x0, 0x3, 0x3, 0x0, []⟩,
   ⟨0x4, 1, 0, 0x0, 0xFFFFFFFF, 0xFFFFFFFF, 0x0, []⟩,
   ⟨0x8, 1, 0, 0x0, 0xFFFFFFFF, 0xFFFFFFFF, 0x0, []⟩,
   ⟨0xC, 1, 0, 0x0, 0xFFFF, 0xFFFF, 0x0, []⟩,
   ⟨0x10, 1, 0, 0x0, 0xFFFFFFFF, 0xFFFFFFFF, 0x0, []⟩,
   ⟨0x14, 1, 0, 0x0, 0xFFFF, 0xFFFF, 0x0, []⟩,
   ⟨0x18, 4, 8, 0x0, 0x7FFFF07, 0x7FFFF07, 0x0, []⟩,
   ⟨0x1C, 4, 8, 0x0, 0xFFFFFF, 0xFFFFFF, 0x0, []⟩]

/-- The registers of block VRD (R214 of 10_verdicts_and_actions.md). -/
def regsVrd : List RegRow :=
  [⟨0x0, 1, 0, 0x1, 0x1, 0x1, 0x0, []⟩,
   ⟨0x4, 1, 0, 0x0, 0x11FFF, 0x0, 0x10000, []⟩,
   ⟨0x8, 1, 0, 0x0, 0xFFFFFFFF, 0x0, 0x0, []⟩,
   ⟨0xC, 1, 0, 0x0, 0xFFFFFFFF, 0x0, 0x0, [(31, 0)]⟩,
   ⟨0x10, 1, 0, 0x0, 0xFFFFFFFF, 0x0, 0x0, [(31, 16), (15, 0)]⟩,
   ⟨0x14, 1, 0, 0x0, 0xFFFFFFFF, 0x0, 0x0, [(31, 16), (15, 0)]⟩]

/-- The registers of block VRD_TMPL (R201 of 10_verdicts_and_actions.md). -/
def regsVrdTmpl : List RegRow :=
  [⟨0x0, 1, 0, 0x0, 0xFFFFFFFF, 0xFFFFFFFF, 0x0, []⟩,
   ⟨0x4, 1, 0, 0x0, 0xFFFF, 0xFFFF, 0x0, []⟩,
   ⟨0x8, 1, 0, 0x0, 0x1F07FF, 0x1F07FF, 0x0, []⟩,
   ⟨0xC, 1, 0, 0x0, 0xFFFFFF, 0xFFFFFF, 0x0, []⟩]

/-- The registers of block DEF (R156 of 07_response_and_noise.md). -/
def regsDef : List RegRow :=
  [⟨0x0, 1, 0, 0x0, 0x0, 0x0, 0x0, []⟩,
   ⟨0x4, 1, 0, 0x7C00000, 0xFFFFFFFF, 0xFFFFFFFF, 0x0, []⟩,
   ⟨0x8, 1, 0, 0x0, 0xFFFFFFFF, 0x0, 0x0, [(23, 8)]⟩,
   ⟨0xC, 1, 0, 0x0, 0x3FFFF, 0x0, 0x0, []⟩,
   ⟨0x10, 1, 0, 0x0, 0x1FFFF, 0x1FFFF, 0x0, []⟩,
   ⟨0x14, 1, 0, 0x7C00000, 0xFFFFFFFF, 0x0, 0x0, []⟩,
   ⟨0x18, 1, 0, 0x0, 0x0, 0x0, 0x0, []⟩,
   ⟨0x100, 24, 4, 0x0, 0x3FFFF, 0x0, 0x0, []⟩,
   ⟨0x200, 24, 4, 0x0, 0x3FFFF, 0x0, 0x0, []⟩]

/-- The registers of block HD (R85 of 04_head_link.md). -/
def regsHd : List RegRow :=
  [⟨0x0, 1, 0, 0x140A1403, 0xFFFFFF03, 0xFFFFFF03, 0x0, []⟩,
   ⟨0x4, 1, 0, 0x0, 0xF0FFC, 0x0, 0xC0, []⟩,
   ⟨0x8, 1, 0, 0x0, 0x0, 0x0, 0x0, []⟩,
   ⟨0x10, 1, 0, 0x6000800, 0x7FF0FFF, 0x7FF0FFF, 0x0, []⟩,
   ⟨0x14, 1, 0, 0xE4000, 0x3FFF01, 0x3FFF01, 0x0, []⟩,
   ⟨0x18, 1, 0, 0x0, 0xFFFFFFFF, 0xFFFFFFFF, 0x0, []⟩,
   ⟨0x1C, 1, 0, 0x1F000000, 0xDF3FFFDF, 0x3FFFDF, 0x0, []⟩,
   ⟨0x20, 1, 0, 0x0, 0x8000070F, 0x0, 0x0, []⟩,
   ⟨0x24, 1, 0, 0x0, 0xFF, 0x0, 0x80, []⟩,
   ⟨0x30, 1, 0, 0x0, 0xFFFFFFFF, 0x0, 0x0, [(31, 16), (15, 0)]⟩,
   ⟨0x34, 1, 0, 0x0, 0xFFFFFFFF, 0x0, 0x0, [(31, 16), (15, 0)]⟩,
   ⟨0x38, 1, 0, 0x0, 0xFFFFFFFF, 0x0, 0x0, [(31, 16), (15, 0)]⟩]
  ++ [⟨0x3C, 1, 0, 0x0, 0xFFFFFFFF, 0x0, 0x0, [(31, 16), (15, 0)]⟩,
   ⟨0x40, 1, 0, 0x0, 0xFFFFFFFF, 0x0, 0x0, [(31, 16), (15, 0)]⟩,
   ⟨0x44, 1, 0, 0x0, 0xFFFFFFFF, 0x0, 0x0, [(31, 16), (15, 0)]⟩,
   ⟨0x48, 1, 0, 0x0, 0xFFFFFFFF, 0x0, 0x0, [(31, 16), (15, 0)]⟩,
   ⟨0x4C, 1, 0, 0x0, 0xFFFF, 0x0, 0x0, [(15, 0)]⟩,
   ⟨0x50, 1, 0, 0x0, 0xFFFFFFFF, 0x0, 0x0, [(31, 0)]⟩,
   ⟨0x54, 1, 0, 0x0, 0xFFFFFFFF, 0x0, 0x0, []⟩,
   ⟨0x58, 1, 0, 0x0, 0xFFFFFFFF, 0x0, 0x0, []⟩,
   ⟨0x5C, 1, 0, 0x0, 0xFFFFFFFF, 0x0, 0x0, []⟩,
   ⟨0x60, 1, 0, 0x0, 0xFFFF0003, 0x0, 0x0, []⟩,
   ⟨0x64, 1, 0, 0x0, 0xFFFFFFFF, 0x0, 0x0, []⟩,
   ⟨0x68, 1, 0, 0x0, 0xFFFF, 0x0, 0x0, []⟩]
  ++ [⟨0x6C, 1, 0, 0x0, 0xFFFF, 0x0, 0x0, []⟩,
   ⟨0x70, 1, 0, 0x0, 0x80007FFF, 0x7FFF, 0x0, []⟩,
   ⟨0x74, 1, 0, 0x0, 0xFF7FFF, 0x0, 0x0, []⟩,
   ⟨0x100, 16, 4, 0x0, 0xFFFFFFFF, 0xFFFFFFFF, 0x0, []⟩,
   ⟨0x140, 16, 4, 0x0, 0xFFFFFFFF, 0x0, 0x0, []⟩]

/-- The registers of block PL (R112 of 05_correction_core.md, R133 of 06_forecast_and_seal.md, R155 of
07_response_and_noise.md, R172 of 08_radiometry_and_bands.md, R193 of 09_bands_and_seams.md, R281 of
13_host_interface.md). -/
def regsPl : List RegRow :=
  [⟨0x0, 1, 0, 0x1, 0x1, 0x1, 0x0, []⟩,
   ⟨0x4, 1, 0, 0x21F, 0x7F1F, 0x0, 0x2000, []⟩,
   ⟨0x8, 1, 0, 0x0, 0x0, 0x0, 0x0, []⟩,
   ⟨0xC, 1, 0, 0x1F00, 0x1F0F, 0x0, 0x0, []⟩,
   ⟨0x10, 1, 0, 0x10, 0xFFFF, 0xFFFF, 0x0, []⟩,
   ⟨0x14, 1, 0, 0x0, 0xFFFFFFFF, 0x0, 0x0, [(31, 16), (15, 0)]⟩,
   ⟨0x18, 1, 0, 0x0, 0xFFFF, 0x0, 0x0, []⟩,
   ⟨0x1C, 1, 0, 0x0, 0xFFFFFFFF, 0x0, 0x0, [(31, 16), (15, 0)]⟩,
   ⟨0x20, 1, 0, 0x0, 0xFFFFFFFF, 0x0, 0x0, [(31, 16), (15, 0)]⟩,
   ⟨0x24, 1, 0, 0x0, 0xFFFFFFFF, 0x0, 0x0, [(31, 16), (15, 0)]⟩,
   ⟨0x28, 1, 0, 0x0, 0xF, 0x0, 0x0, []⟩,
   ⟨0x80, 1, 0, 0x20400000, 0xFFFF0003, 0xFFFF0003, 0x0, []⟩]
  ++ [⟨0x84, 1, 0, 0x20, 0xFEF, 0x0, 0xC00, []⟩,
   ⟨0x88, 1, 0, 0x0, 0x0, 0x0, 0x0, []⟩,
   ⟨0x8C, 1, 0, 0x148, 0xFFFF, 0xFFFF, 0x0, []⟩,
   ⟨0x90, 1, 0, 0x51F, 0xFFFFFF, 0xFFFFFF, 0x0, []⟩,
   ⟨0x94, 1, 0, 0x40000, 0xFFFFFF, 0xFFFFFF, 0x0, []⟩,
   ⟨0x98, 1, 0, 0x0, 0xFFFFFFFF, 0xFFFFFFFF, 0x0, []⟩,
   ⟨0x9C, 1, 0, 0x52, 0xFFFF, 0xFFFF, 0x0, []⟩,
   ⟨0xA0, 1, 0, 0x40000, 0xFFFFFF, 0x0, 0x0, []⟩,
   ⟨0xA4, 1, 0, 0x0, 0xFFFFFFFF, 0x0, 0x0, []⟩,
   ⟨0xA8, 1, 0, 0x0, 0xFFFFFFFF, 0x0, 0x0, []⟩,
   ⟨0xAC, 1, 0, 0x0, 0xFFFFFFFF, 0x0, 0x0, []⟩,
   ⟨0xB0, 1, 0, 0x0, 0xFFFFFFFF, 0x0, 0x0, []⟩]
  ++ [⟨0xB4, 1, 0, 0x0, 0xFFFFFFFF, 0x0, 0x0, [(31, 16), (15, 0)]⟩,
   ⟨0xB8, 1, 0, 0x0, 0xFFFFFFFF, 0x0, 0x0, [(31, 16), (15, 0)]⟩,
   ⟨0xBC, 1, 0, 0x0, 0xFFFFFFFF, 0x0, 0x0, [(31, 16), (15, 0)]⟩,
   ⟨0x100, 1, 0, 0x4000001, 0xFFFF0001, 0xFFFF0001, 0x0, []⟩,
   ⟨0x104, 1, 0, 0x0, 0xFFFFFFFF, 0x0, 0x0, [(31, 16), (15, 0)]⟩,
   ⟨0x108, 1, 0, 0x4000, 0xFF01, 0xFF01, 0x0, []⟩,
   ⟨0x10C, 1, 0, 0x800020, 0xFFFFFFFF, 0xFFFFFFFF, 0x0, []⟩,
   ⟨0x110, 1, 0, 0x40, 0xFFFFFFFF, 0xFFFFFFFF, 0x0, []⟩,
   ⟨0x114, 1, 0, 0x100, 0xFFFFFFFF, 0xFFFFFFFF, 0x0, []⟩,
   ⟨0x118, 1, 0, 0x0, 0xFFFFF000, 0xFFFFF000, 0x0, []⟩,
   ⟨0x11C, 1, 0, 0x0, 0x3, 0x3, 0x0, []⟩,
   ⟨0x120, 1, 0, 0x71, 0x73, 0x0, 0x0, []⟩]
  ++ [⟨0x124, 1, 0, 0x0, 0xFFFFFFFF, 0x0, 0x0, [(31, 16), (15, 0)]⟩,
   ⟨0x130, 1, 0, 0x1000002, 0xFFFF0003, 0xFFFF0003, 0x0, []⟩,
   ⟨0x140, 1, 0, 0x1, 0x1, 0x1, 0x0, []⟩,
   ⟨0x144, 1, 0, 0xC0, 0x1FF, 0x1FF, 0x0, []⟩,
   ⟨0x150, 1, 0, 0x0, 0xFFFFFFFF, 0x0, 0x0, [(31, 16), (15, 0)]⟩,
   ⟨0x1F0, 1, 0, 0x0, 0x7, 0x0, 0x0, []⟩,
   ⟨0x200, 1, 0, 0x1, 0x1, 0x1, 0x0, []⟩,
   ⟨0x204, 1, 0, 0x1000, 0xFFFFFFFF, 0xFFFFFFFF, 0x0, []⟩,
   ⟨0x208, 1, 0, 0x0, 0xFFFFFFFF, 0xFFFFFFFF, 0x0, []⟩,
   ⟨0x20C, 1, 0, 0x10000000, 0xFFFFFFFF, 0xFFFFFFFF, 0x0, []⟩,
   ⟨0x210, 1, 0, 0x0, 0xFFFFFFFF, 0xFFFFFFFF, 0x0, []⟩,
   ⟨0x214, 1, 0, 0x0, 0xFFFFFFFF, 0xFFFFFFFF, 0x0, []⟩]
  ++ [⟨0x218, 1, 0, 0x1000, 0xFFFFFFFF, 0xFFFFFFFF, 0x0, []⟩,
   ⟨0x21C, 1, 0, 0x0, 0xFFFFFFFF, 0xFFFFFFFF, 0x0, []⟩,
   ⟨0x220, 1, 0, 0x10000000, 0xFFFFFFFF, 0xFFFFFFFF, 0x0, []⟩,
   ⟨0x224, 1, 0, 0x40004000, 0xFFFFFFFF, 0xFFFFFFFF, 0x0, []⟩,
   ⟨0x228, 1, 0, 0x40004000, 0xFFFFFFFF, 0xFFFFFFFF, 0x0, []⟩,
   ⟨0x22C, 1, 0, 0x0, 0xFFFFFFFF, 0x0, 0x0, [(31, 16), (15, 0)]⟩,
   ⟨0x230, 1, 0, 0x3, 0x1F3, 0x3, 0x0, []⟩,
   ⟨0x234, 1, 0, 0x0, 0x0, 0x0, 0x0, []⟩,
   ⟨0x238, 1, 0, 0x0, 0xFFFFFFFF, 0x0, 0x0, []⟩,
   ⟨0x23C, 1, 0, 0x0, 0x3FFFF, 0x0, 0x0, []⟩,
   ⟨0x240, 1, 0, 0x0, 0xFFFFFFFF, 0x0, 0x0, []⟩,
   ⟨0x244, 1, 0, 0x0, 0x3FFFF, 0x0, 0x0, []⟩]
  ++ [⟨0x248, 1, 0, 0x0, 0xFFFFFF, 0x0, 0x0, []⟩,
   ⟨0x24C, 1, 0, 0x0, 0xFFFFFF, 0x0, 0x0, []⟩,
   ⟨0x250, 1, 0, 0x0, 0xFFFFFFFF, 0x0, 0x0, [(31, 16), (15, 0)]⟩,
   ⟨0x254, 1, 0, 0x0, 0xFFFFFFFF, 0x0, 0x0, [(31, 16), (15, 0)]⟩,
   ⟨0x258, 1, 0, 0x1900010, 0xFFFF3333, 0xFFFF3333, 0x0, []⟩,
   ⟨0x25C, 1, 0, 0x0, 0xFFFFFFFF, 0x0, 0x0, [(31, 16), (15, 0)]⟩,
   ⟨0x260, 1, 0, 0x0, 0x1FFF, 0x1FFF, 0x0, []⟩,
   ⟨0x264, 1, 0, 0x0, 0xFFFFFFFF, 0xFFFFFFFF, 0x0, []⟩,
   ⟨0x270, 1, 0, 0x1000803, 0xFFF1FF03, 0xFFF1FF03, 0x0, []⟩,
   ⟨0x274, 4, 4, 0x0, 0xFFFFFFFF, 0xFFFFFFFF, 0x0, []⟩,
   ⟨0x284, 1, 0, 0x0, 0xFFFFFFFF, 0xFFFFFFFF, 0x0, []⟩,
   ⟨0x288, 1, 0, 0x0, 0x0, 0x0, 0x0, []⟩]
  ++ [⟨0x28C, 1, 0, 0x0, 0xFFFF00F3, 0x0, 0x0, []⟩,
   ⟨0x290, 1, 0, 0x0, 0xFFFFFFFF, 0x0, 0x0, [(31, 16), (15, 0)]⟩,
   ⟨0x294, 1, 0, 0x0, 0xFFFFFFFF, 0x0, 0x0, []⟩,
   ⟨0x2A0, 1, 0, 0x0, 0xFFFFFF, 0xFFFFFF, 0x0, []⟩,
   ⟨0x2A4, 1, 0, 0x1000, 0xFFFFFF, 0xFFFFFF, 0x0, []⟩,
   ⟨0x2A8, 1, 0, 0xFF00FF, 0xFFFFFF, 0xFFFFFF, 0x0, []⟩,
   ⟨0x300, 1, 0, 0x400003, 0xFFFF0003, 0xFFFF0003, 0x0, []⟩,
   ⟨0x304, 1, 0, 0x0, 0x0, 0x0, 0x0, []⟩,
   ⟨0x308, 1, 0, 0x0, 0xFF0003, 0x0, 0x0, []⟩,
   ⟨0x30C, 1, 0, 0x100, 0xFFFFFFFF, 0xFFFFFFFF, 0x0, []⟩,
   ⟨0x310, 1, 0, 0x0, 0xFFFFFFFF, 0xFFFFFFFF, 0x0, []⟩,
   ⟨0x314, 1, 0, 0x0, 0xFFFF, 0xFFFF, 0x0, []⟩]
  ++ [⟨0x318, 1, 0, 0x0, 0xFFFFFFFF, 0xFFFFFFFF, 0x0, []⟩,
   ⟨0x31C, 1, 0, 0x0, 0xFFFF, 0xFFFF, 0x0, []⟩,
   ⟨0x320, 1, 0, 0x100, 0xFFFFFF, 0xFFFFFF, 0x0, []⟩,
   ⟨0x324, 1, 0, 0x0, 0xFFFFFFFF, 0x0, 0x0, [(31, 16), (15, 0)]⟩,
   ⟨0x328, 1, 0, 0x0, 0xFFFFFFFF, 0x0, 0x0, [(31, 16), (15, 0)]⟩,
   ⟨0x32C, 1, 0, 0x0, 0xFFFFFFFF, 0x0, 0x0, [(31, 16), (15, 0)]⟩,
   ⟨0x330, 1, 0, 0x0, 0xFFFFFFFF, 0x0, 0x0, [(31, 16), (15, 0)]⟩,
   ⟨0x334, 1, 0, 0x0, 0xFFFFFFFF, 0x0, 0x0, []⟩,
   ⟨0x338, 1, 0, 0x0, 0xFFFFFFFF, 0x0, 0x0, []⟩,
   ⟨0x33C, 1, 0, 0x0, 0xFFFFFFFF, 0x0, 0x0, []⟩,
   ⟨0x340, 1, 0, 0x0, 0xFFFF, 0x0, 0x0, [(15, 0)]⟩,
   ⟨0x380, 1, 0, 0x0, 0xFF5F, 0xFF5F, 0x0, []⟩]
  ++ [⟨0x384, 1, 0, 0x0, 0xFFFFFFFF, 0x0, 0x0, [(31, 16), (15, 0)]⟩]

/-- The blocks of BAR0 (R370). -/
def regBlocks : List RegBlock :=
  [⟨0x0, 1, 0x30, regsGlb⟩,
   ⟨0x1000, 1, 0x20, regsSup⟩,
   ⟨0x10000, 8, 0x100, regsPos⟩,
   ⟨0x11000, 8, 0x80, regsStkGrp⟩,
   ⟨0x11400, 1, 0x408, regsStk⟩,
   ⟨0x12000, 1, 0x74, regsTim⟩,
   ⟨0x13000, 1, 0x180, regsAct⟩,
   ⟨0x20000, 4096, 0x10, regsActq⟩,
   ⟨0x30000, 1, 0x14, regsSeq⟩,
   ⟨0x30100, 4, 0x40, regsSeqT⟩,
   ⟨0x60000, 1, 0x20, regsHost⟩,
   ⟨0x60100, 2, 0x40, regsHostRing⟩,
   ⟨0x62000, 198, 0x20, regsStr⟩,
   ⟨0x68000, 1, 0x1008, regsMsix⟩,
   ⟨0x70000, 1, 0x40, regsBud⟩,
   ⟨0x70100, 1, 0x70, regsThm⟩,
   ⟨0xC0000, 1, 0xC0, regsSvc⟩,
   ⟨0xC1000, 1, 0x44, regsPair⟩,
   ⟨0xC2000, 1, 0x2C, regsFlt⟩,
   ⟨0xC3000, 1, 0x48, regsCal⟩,
   ⟨0xC3400, 24, 0x40, regsCalH⟩,
   ⟨0xC4000, 1, 0x2C, regsLdg⟩,
   ⟨0xE0000, 1, 0x64, regsSeam⟩,
   ⟨0xE0100, 23, 0x20, regsSeamS⟩,
   ⟨0xE0400, 24, 0x10, regsSeamH⟩,
   ⟨0xE4000, 256, 0x40, regsZ⟩,
   ⟨0xE8000, 1, 0x18, regsVrd⟩,
   ⟨0xE8400, 64, 0x10, regsVrdTmpl⟩,
   ⟨0xF0000, 1, 0x260, regsDef⟩,
   ⟨0x100000, 24, 0x1000, regsHd⟩,
   ⟨0x1A0000, 26, 0x1000, regsPl⟩]

/-- The row of a register block that holds block offset `o`. -/
def findReg (o : Nat) : List RegRow → Option RegRow
  | [] => none
  | r :: rs =>
    if o = r.off || (1 < r.count && r.off ≤ o && o < r.off + r.count * r.stride && (o - r.off) % r.stride == 0)
    then some r else findReg o rs

/-- The register at offset `off`, searched in the given blocks. -/
def findBlock (off : Nat) : List RegBlock → Option RegRow
  | [] => none
  | b :: bs =>
    if b.base ≤ off && off < b.base + b.count * b.stride then
      match findReg ((off - b.base) % b.stride) b.regs with
      | some r => some r
      | none => findBlock off bs
    else findBlock off bs

/-- The register that BAR0 offset `off` names, if any (R12). -/
def regRow (off : Nat) : Option RegRow := findBlock off regBlocks

/-- The value a register reads when a cold reset is released (R371); the two record rings differ in
their CTL word. -/
def resetOf (off : Nat) : Word :=
  if off = 0x060100 then 0x00060000
  else if off = 0x060140 then 0x0C860000
  else match regRow off with
    | some r => r.reset
    | none => 0

/-- The bits of offset `off` that read back; all others read 0 (R10, R11, R12). -/
def readMask (off : Nat) : Word :=
  match regRow off with
  | some r => r.read
  | none => 0

/-! Register offsets, named as the manual names the registers. -/

/-- GLB_ID (R372). -/
abbrev Reg.GLB_ID : Nat := 0x0
/-- GLB_UID_LO (R372). -/
abbrev Reg.GLB_UID_LO : Nat := 0x4
/-- GLB_UID_HI (R372). -/
abbrev Reg.GLB_UID_HI : Nat := 0x8
/-- GLB_CAPS (R372). -/
abbrev Reg.GLB_CAPS : Nat := 0xC
/-- GLB_ISUM (R372). -/
abbrev Reg.GLB_ISUM : Nat := 0x10
/-- GLB_IEN (R372). -/
abbrev Reg.GLB_IEN : Nat := 0x14
/-- GLB_IMOD (R372). -/
abbrev Reg.GLB_IMOD : Nat := 0x18
/-- GLB_BADACC (R372). -/
abbrev Reg.GLB_BADACC : Nat := 0x1C
/-- GLB_ISRC_A (R372). -/
abbrev Reg.GLB_ISRC_A : Nat := 0x20
/-- GLB_ISRC_HD (R372). -/
abbrev Reg.GLB_ISRC_HD : Nat := 0x24
/-- GLB_ISRC_PL (R372). -/
abbrev Reg.GLB_ISRC_PL : Nat := 0x28
/-- GLB_ISRC_CAL (R372). -/
abbrev Reg.GLB_ISRC_CAL : Nat := 0x2C
/-- SUP_STAT (R369). -/
abbrev Reg.SUP_STAT : Nat := 0x1000
/-- SUP_WARN (R369). -/
abbrev Reg.SUP_WARN : Nat := 0x1004
/-- SUP_CAUSE (R369). -/
abbrev Reg.SUP_CAUSE : Nat := 0x1008
/-- SUP_CMD (R369). -/
abbrev Reg.SUP_CMD : Nat := 0x100C
/-- SUP_CNT (R369). -/
abbrev Reg.SUP_CNT (k : Nat) : Nat := 0x1010 + k * 0x4
/-- POS_CTL (R40). -/
abbrev Reg.POS_CTL (n : Nat) : Nat := 0x10000 + n * 0x100
/-- POS_FILT (R40). -/
abbrev Reg.POS_FILT (n : Nat) : Nat := 0x10004 + n * 0x100
/-- POS_STALL (R40). -/
abbrev Reg.POS_STALL (n : Nat) : Nat := 0x10008 + n * 0x100
/-- POS_STAT (R40). -/
abbrev Reg.POS_STAT (n : Nat) : Nat := 0x1000C + n * 0x100
/-- POS_NOW_LO (R40). -/
abbrev Reg.POS_NOW_LO (n : Nat) : Nat := 0x10010 + n * 0x100
/-- POS_NOW_HI (R40). -/
abbrev Reg.POS_NOW_HI (n : Nat) : Nat := 0x10014 + n * 0x100
/-- POS_HWM_LO (R40). -/
abbrev Reg.POS_HWM_LO (n : Nat) : Nat := 0x10018 + n * 0x100
/-- POS_HWM_HI (R40). -/
abbrev Reg.POS_HWM_HI (n : Nat) : Nat := 0x1001C + n * 0x100
/-- POS_ZCAP_LO (R40). -/
abbrev Reg.POS_ZCAP_LO (n : Nat) : Nat := 0x10020 + n * 0x100
/-- POS_ZCAP_HI (R40). -/
abbrev Reg.POS_ZCAP_HI (n : Nat) : Nat := 0x10024 + n * 0x100
/-- POS_SET_LO (R40). -/
abbrev Reg.POS_SET_LO (n : Nat) : Nat := 0x10028 + n * 0x100
/-- POS_SET_HI (R40). -/
abbrev Reg.POS_SET_HI (n : Nat) : Nat := 0x1002C + n * 0x100
/-- POS_VEL (R40). -/
abbrev Reg.POS_VEL (n : Nat) : Nat := 0x10030 + n * 0x100
/-- POS_ERR (R40). -/
abbrev Reg.POS_ERR (n : Nat) : Nat := 0x10034 + n * 0x100
/-- POS_SLIP_LIM (R40). -/
abbrev Reg.POS_SLIP_LIM (n : Nat) : Nat := 0x10038 + n * 0x100
/-- POS_RATIO (R40). -/
abbrev Reg.POS_RATIO (n : Nat) : Nat := 0x1003C + n * 0x100
/-- POS_CMD (R40). -/
abbrev Reg.POS_CMD (n : Nat) : Nat := 0x10040 + n * 0x100
/-- STK_GRP_CTL (R67). -/
abbrev Reg.STK_GRP_CTL (n : Nat) : Nat := 0x11000 + n * 0x80
/-- STK_GRP_PITCH (R67). -/
abbrev Reg.STK_GRP_PITCH (n : Nat) : Nat := 0x11004 + n * 0x80
/-- STK_GRP_ANCHOR_LO (R67). -/
abbrev Reg.STK_GRP_ANCHOR_LO (n : Nat) : Nat := 0x11008 + n * 0x80
/-- STK_GRP_ANCHOR_HI (R67). -/
abbrev Reg.STK_GRP_ANCHOR_HI (n : Nat) : Nat := 0x1100C + n * 0x80
/-- STK_GRP_IDLE (R67). -/
abbrev Reg.STK_GRP_IDLE (n : Nat) : Nat := 0x11010 + n * 0x80
/-- STK_GRP_MININT (R67). -/
abbrev Reg.STK_GRP_MININT (n : Nat) : Nat := 0x11014 + n * 0x80
/-- STK_GRP_STAT (R67). -/
abbrev Reg.STK_GRP_STAT (n : Nat) : Nat := 0x11018 + n * 0x80
/-- STK_GRP_CNT_A (R67). -/
abbrev Reg.STK_GRP_CNT_A (n : Nat) : Nat := 0x1101C + n * 0x80
/-- STK_GRP_CNT_B (R67). -/
abbrev Reg.STK_GRP_CNT_B (n : Nat) : Nat := 0x11020 + n * 0x80
/-- STK_GRP_LAST_STAMP (R67). -/
abbrev Reg.STK_GRP_LAST_STAMP (n : Nat) : Nat := 0x11024 + n * 0x80
/-- STK_GRP_LAST_POS_LO (R67). -/
abbrev Reg.STK_GRP_LAST_POS_LO (n : Nat) : Nat := 0x11028 + n * 0x80
/-- STK_GRP_LAST_POS_HI (R67). -/
abbrev Reg.STK_GRP_LAST_POS_HI (n : Nat) : Nat := 0x1102C + n * 0x80
/-- STK_GRP_LAST_TIME_LO (R67). -/
abbrev Reg.STK_GRP_LAST_TIME_LO (n : Nat) : Nat := 0x11030 + n * 0x80
/-- STK_GRP_LAST_TIME_HI (R67). -/
abbrev Reg.STK_GRP_LAST_TIME_HI (n : Nat) : Nat := 0x11034 + n * 0x80
/-- STK_GRP_LAST_TIME_FR (R67). -/
abbrev Reg.STK_GRP_LAST_TIME_FR (n : Nat) : Nat := 0x11038 + n * 0x80
/-- STK_GRP_NEXT_LO (R67). -/
abbrev Reg.STK_GRP_NEXT_LO (n : Nat) : Nat := 0x1103C + n * 0x80
/-- STK_GRP_NEXT_HI (R67). -/
abbrev Reg.STK_GRP_NEXT_HI (n : Nat) : Nat := 0x11040 + n * 0x80
/-- STK_GRP_CMD (R67). -/
abbrev Reg.STK_GRP_CMD (n : Nat) : Nat := 0x11044 + n * 0x80
/-- STK_PORT (R67). -/
abbrev Reg.STK_PORT (k : Nat) : Nat := 0x11400 + k * 0x4
/-- STK_VOTE (R67). -/
abbrev Reg.STK_VOTE : Nat := 0x11800
/-- STK_VOTE_STAT (R67). -/
abbrev Reg.STK_VOTE_STAT : Nat := 0x11804
/-- TIM_CTL (R50). -/
abbrev Reg.TIM_CTL : Nat := 0x12000
/-- TIM_CMD (R50). -/
abbrev Reg.TIM_CMD : Nat := 0x12004
/-- TIM_STAT (R50). -/
abbrev Reg.TIM_STAT : Nat := 0x12008
/-- TIM_CNT (R50). -/
abbrev Reg.TIM_CNT : Nat := 0x1200C
/-- TIM_NOW_LO (R50). -/
abbrev Reg.TIM_NOW_LO : Nat := 0x12010
/-- TIM_NOW_HI (R50). -/
abbrev Reg.TIM_NOW_HI : Nat := 0x12014
/-- TIM_NOW_FR (R50). -/
abbrev Reg.TIM_NOW_FR : Nat := 0x12018
/-- TIM_INC_FR (R50). -/
abbrev Reg.TIM_INC_FR : Nat := 0x1201C
/-- TIM_INC_NS (R50). -/
abbrev Reg.TIM_INC_NS : Nat := 0x12020
/-- TIM_STEP (R50). -/
abbrev Reg.TIM_STEP : Nat := 0x12024
/-- TIM_SET_LO (R50). -/
abbrev Reg.TIM_SET_LO : Nat := 0x12028
/-- TIM_SET_HI (R50). -/
abbrev Reg.TIM_SET_HI : Nat := 0x1202C
/-- TIM_PPS_LO (R50). -/
abbrev Reg.TIM_PPS_LO : Nat := 0x12030
/-- TIM_PPS_HI (R50). -/
abbrev Reg.TIM_PPS_HI : Nat := 0x12034
/-- TIM_PPS_FR (R50). -/
abbrev Reg.TIM_PPS_FR : Nat := 0x12038
/-- TIM_TOUT_START_LO (R50). -/
abbrev Reg.TIM_TOUT_START_LO : Nat := 0x1203C
/-- TIM_TOUT_START_HI (R50). -/
abbrev Reg.TIM_TOUT_START_HI : Nat := 0x12040
/-- TIM_TOUT_PERIOD (R50). -/
abbrev Reg.TIM_TOUT_PERIOD : Nat := 0x12044
/-- TIM_TOUT_WIDTH (R50). -/
abbrev Reg.TIM_TOUT_WIDTH : Nat := 0x12048
/-- TIM_TOUT_COUNT (R50). -/
abbrev Reg.TIM_TOUT_COUNT : Nat := 0x1204C
/-- TIM_PTM_LOC_LO (R50). -/
abbrev Reg.TIM_PTM_LOC_LO : Nat := 0x12050
/-- TIM_PTM_LOC_HI (R50). -/
abbrev Reg.TIM_PTM_LOC_HI : Nat := 0x12054
/-- TIM_PTM_MST_LO (R50). -/
abbrev Reg.TIM_PTM_MST_LO : Nat := 0x12058
/-- TIM_PTM_MST_HI (R50). -/
abbrev Reg.TIM_PTM_MST_HI : Nat := 0x1205C
/-- TIM_PTM_RTT (R50). -/
abbrev Reg.TIM_PTM_RTT : Nat := 0x12060
/-- TIM_PTM_DEST (R50). -/
abbrev Reg.TIM_PTM_DEST : Nat := 0x12064
/-- TIM_ASYM (R50). -/
abbrev Reg.TIM_ASYM : Nat := 0x12068
/-- TIM_ROUTE_STEP (R50). -/
abbrev Reg.TIM_ROUTE_STEP : Nat := 0x1206C
/-- TIM_ROUTE_HOLD (R50). -/
abbrev Reg.TIM_ROUTE_HOLD : Nat := 0x12070
/-- ACT_CTL (R213). -/
abbrev Reg.ACT_CTL : Nat := 0x13000
/-- ACT_STAT (R213). -/
abbrev Reg.ACT_STAT : Nat := 0x13004
/-- ACT_GRACE_T (R213). -/
abbrev Reg.ACT_GRACE_T : Nat := 0x13008
/-- ACT_GRACE_P (R213). -/
abbrev Reg.ACT_GRACE_P : Nat := 0x1300C
/-- ACT_CNT_A (R213). -/
abbrev Reg.ACT_CNT_A : Nat := 0x13010
/-- ACT_CNT_B (R213). -/
abbrev Reg.ACT_CNT_B : Nat := 0x13014
/-- ACT_CNT_C (R213). -/
abbrev Reg.ACT_CNT_C : Nat := 0x13018
/-- ACT_FREE (R213). -/
abbrev Reg.ACT_FREE : Nat := 0x1301C
/-- ACT_EO_CFG (R213). -/
abbrev Reg.ACT_EO_CFG : Nat := 0x13020
/-- ACT_EO_LEVEL (R213). -/
abbrev Reg.ACT_EO_LEVEL : Nat := 0x13024
/-- ACT_EO_SET (R213). -/
abbrev Reg.ACT_EO_SET : Nat := 0x13028
/-- ACT_EO_CLR (R213). -/
abbrev Reg.ACT_EO_CLR : Nat := 0x1302C
/-- ACT_EI_CTL (R213). -/
abbrev Reg.ACT_EI_CTL : Nat := 0x13030
/-- ACT_EI_FILT (R213). -/
abbrev Reg.ACT_EI_FILT : Nat := 0x13034
/-- ACT_EI_STAT (R213). -/
abbrev Reg.ACT_EI_STAT : Nat := 0x13038
/-- ACT_EI_TIME_LO (R213). -/
abbrev Reg.ACT_EI_TIME_LO (k : Nat) : Nat := 0x13100 + k * 0x10
/-- ACT_EI_TIME_HI (R213). -/
abbrev Reg.ACT_EI_TIME_HI (k : Nat) : Nat := 0x13104 + k * 0x10
/-- ACT_EI_POS_LO (R213). -/
abbrev Reg.ACT_EI_POS_LO (k : Nat) : Nat := 0x13108 + k * 0x10
/-- ACT_EI_POS_HI (R213). -/
abbrev Reg.ACT_EI_POS_HI (k : Nat) : Nat := 0x1310C + k * 0x10
/-- ACTQ_KEY_LO (R202). -/
abbrev Reg.ACTQ_KEY_LO (n : Nat) : Nat := 0x20000 + n * 0x10
/-- ACTQ_KEY_HI (R202). -/
abbrev Reg.ACTQ_KEY_HI (n : Nat) : Nat := 0x20004 + n * 0x10
/-- ACTQ_CTRL (R202). -/
abbrev Reg.ACTQ_CTRL (n : Nat) : Nat := 0x20008 + n * 0x10
/-- ACTQ_ARG (R202). -/
abbrev Reg.ACTQ_ARG (n : Nat) : Nat := 0x2000C + n * 0x10
/-- SEQ_CTL (R258). -/
abbrev Reg.SEQ_CTL : Nat := 0x30000
/-- SEQ_STAT (R258). -/
abbrev Reg.SEQ_STAT : Nat := 0x30004
/-- SEQ_CMD (R258). -/
abbrev Reg.SEQ_CMD : Nat := 0x30008
/-- SEQ_SP (R258). -/
abbrev Reg.SEQ_SP : Nat := 0x3000C
/-- SEQ_CNT (R258). -/
abbrev Reg.SEQ_CNT : Nat := 0x30010
/-- SEQ_T_CTL (R258). -/
abbrev Reg.SEQ_T_CTL (n : Nat) : Nat := 0x30100 + n * 0x40
/-- SEQ_T_ENTRY (R258). -/
abbrev Reg.SEQ_T_ENTRY (n : Nat) : Nat := 0x30104 + n * 0x40
/-- SEQ_T_STAT (R258). -/
abbrev Reg.SEQ_T_STAT (n : Nat) : Nat := 0x30108 + n * 0x40
/-- SEQ_T_FPC (R258). -/
abbrev Reg.SEQ_T_FPC (n : Nat) : Nat := 0x3010C + n * 0x40
/-- SEQ_T_WAKE (R258). -/
abbrev Reg.SEQ_T_WAKE (n : Nat) : Nat := 0x30110 + n * 0x40
/-- SEQ_T_WAKESET (R258). -/
abbrev Reg.SEQ_T_WAKESET (n : Nat) : Nat := 0x30114 + n * 0x40
/-- SEQ_T_CYC_LO (R258). -/
abbrev Reg.SEQ_T_CYC_LO (n : Nat) : Nat := 0x30118 + n * 0x40
/-- SEQ_T_CYC_HI (R258). -/
abbrev Reg.SEQ_T_CYC_HI (n : Nat) : Nat := 0x3011C + n * 0x40
/-- SEQ_T_FADDR (R258). -/
abbrev Reg.SEQ_T_FADDR (n : Nat) : Nat := 0x30120 + n * 0x40
/-- HOST_CTL (R280). -/
abbrev Reg.HOST_CTL : Nat := 0x60000
/-- HOST_STAT (R280). -/
abbrev Reg.HOST_STAT : Nat := 0x60004
/-- HOST_B2_BASE_LO (R280). -/
abbrev Reg.HOST_B2_BASE_LO : Nat := 0x60008
/-- HOST_B2_BASE_HI (R280). -/
abbrev Reg.HOST_B2_BASE_HI : Nat := 0x6000C
/-- HOST_B2DENY (R280). -/
abbrev Reg.HOST_B2DENY : Nat := 0x60010
/-- HOST_CNT (R280). -/
abbrev Reg.HOST_CNT : Nat := 0x60014
/-- HOST_INFL (R280). -/
abbrev Reg.HOST_INFL : Nat := 0x60018
/-- HOST_LOAD (R280). -/
abbrev Reg.HOST_LOAD : Nat := 0x6001C
/-- HOST_RING_CTL (R280). -/
abbrev Reg.HOST_RING_CTL (n : Nat) : Nat := 0x60100 + n * 0x40
/-- HOST_RING_BASE_LO (R280). -/
abbrev Reg.HOST_RING_BASE_LO (n : Nat) : Nat := 0x60104 + n * 0x40
/-- HOST_RING_BASE_HI (R280). -/
abbrev Reg.HOST_RING_BASE_HI (n : Nat) : Nat := 0x60108 + n * 0x40
/-- HOST_RING_RDIDX (R280). -/
abbrev Reg.HOST_RING_RDIDX (n : Nat) : Nat := 0x6010C + n * 0x40
/-- HOST_RING_WRIDX (R280). -/
abbrev Reg.HOST_RING_WRIDX (n : Nat) : Nat := 0x60110 + n * 0x40
/-- HOST_RING_STAT (R280). -/
abbrev Reg.HOST_RING_STAT (n : Nat) : Nat := 0x60114 + n * 0x40
/-- HOST_RING_CNT (R280). -/
abbrev Reg.HOST_RING_CNT (n : Nat) : Nat := 0x60118 + n * 0x40
/-- STR_CTL (R280). -/
abbrev Reg.STR_CTL (n : Nat) : Nat := 0x62000 + n * 0x20
/-- STR_RING (R280). -/
abbrev Reg.STR_RING (n : Nat) : Nat := 0x62004 + n * 0x20
/-- STR_BASE_LO (R280). -/
abbrev Reg.STR_BASE_LO (n : Nat) : Nat := 0x62008 + n * 0x20
/-- STR_BASE_HI (R280). -/
abbrev Reg.STR_BASE_HI (n : Nat) : Nat := 0x6200C + n * 0x20
/-- STR_TAIL (R280). -/
abbrev Reg.STR_TAIL (n : Nat) : Nat := 0x62010 + n * 0x20
/-- STR_HEAD (R280). -/
abbrev Reg.STR_HEAD (n : Nat) : Nat := 0x62014 + n * 0x20
/-- STR_STAT (R280). -/
abbrev Reg.STR_STAT (n : Nat) : Nat := 0x62018 + n * 0x20
/-- STR_CNT (R280). -/
abbrev Reg.STR_CNT (n : Nat) : Nat := 0x6201C + n * 0x20
/-- MSIX_TABLE_ADDR_LO (R280). -/
abbrev Reg.MSIX_TABLE_ADDR_LO (k : Nat) : Nat := 0x68000 + k * 0x10
/-- MSIX_TABLE_ADDR_HI (R280). -/
abbrev Reg.MSIX_TABLE_ADDR_HI (k : Nat) : Nat := 0x68004 + k * 0x10
/-- MSIX_TABLE_DATA (R280). -/
abbrev Reg.MSIX_TABLE_DATA (k : Nat) : Nat := 0x68008 + k * 0x10
/-- MSIX_TABLE_CTRL (R280). -/
abbrev Reg.MSIX_TABLE_CTRL (k : Nat) : Nat := 0x6800C + k * 0x10
/-- MSIX_PBA (R280). -/
abbrev Reg.MSIX_PBA (k : Nat) : Nat := 0x69000 + k * 0x4
/-- BUD_CTL (R298). -/
abbrev Reg.BUD_CTL : Nat := 0x70000
/-- BUD_STAT (R298). -/
abbrev Reg.BUD_STAT : Nat := 0x70004
/-- BUD_CAP (R298). -/
abbrev Reg.BUD_CAP : Nat := 0x70008
/-- BUD_BCNOM (R298). -/
abbrev Reg.BUD_BCNOM : Nat := 0x7000C
/-- BUD_PTOT (R298). -/
abbrev Reg.BUD_PTOT : Nat := 0x70010
/-- BUD_HEADROOM (R298). -/
abbrev Reg.BUD_HEADROOM : Nat := 0x70014
/-- BUD_CNT (R298). -/
abbrev Reg.BUD_CNT : Nat := 0x70018
/-- BUD_HBM_UTIL (R298). -/
abbrev Reg.BUD_HBM_UTIL : Nat := 0x7001C
/-- BUD_PWR (R298). -/
abbrev Reg.BUD_PWR (k : Nat) : Nat := 0x70020 + k * 0x4
/-- THM_CTL (R299). -/
abbrev Reg.THM_CTL : Nat := 0x70100
/-- THM_STAT (R299). -/
abbrev Reg.THM_STAT : Nat := 0x70104
/-- THM_EVAL (R299). -/
abbrev Reg.THM_EVAL : Nat := 0x70108
/-- THM_STALE_MS (R299). -/
abbrev Reg.THM_STALE_MS : Nat := 0x7010C
/-- THM_EST (R299). -/
abbrev Reg.THM_EST : Nat := 0x70110
/-- THM_HOTNODE (R299). -/
abbrev Reg.THM_HOTNODE : Nat := 0x70114
/-- THM_AMB (R299). -/
abbrev Reg.THM_AMB : Nat := 0x70118
/-- THM_AMB_AGE (R299). -/
abbrev Reg.THM_AMB_AGE : Nat := 0x7011C
/-- THM_AMB_WORST (R299). -/
abbrev Reg.THM_AMB_WORST : Nat := 0x70120
/-- THM_THR_WARN (R299). -/
abbrev Reg.THM_THR_WARN : Nat := 0x70124
/-- THM_THR_THROT (R299). -/
abbrev Reg.THM_THR_THROT : Nat := 0x70128
/-- THM_THR_SHUT (R299). -/
abbrev Reg.THM_THR_SHUT : Nat := 0x7012C
/-- THM_HYS (R299). -/
abbrev Reg.THM_HYS : Nat := 0x70130
/-- THM_CNT (R299). -/
abbrev Reg.THM_CNT : Nat := 0x70134
/-- THM_CNT2 (R299). -/
abbrev Reg.THM_CNT2 : Nat := 0x70138
/-- THM_NODE (R299). -/
abbrev Reg.THM_NODE (k : Nat) : Nat := 0x70140 + k * 0x4
/-- THM_RHOT (R299). -/
abbrev Reg.THM_RHOT : Nat := 0x70160
/-- THM_EVTIME_LO (R299). -/
abbrev Reg.THM_EVTIME_LO : Nat := 0x70168
/-- THM_EVTIME_HI (R299). -/
abbrev Reg.THM_EVTIME_HI : Nat := 0x7016C
/-- SVC_CTL (R331). -/
abbrev Reg.SVC_CTL : Nat := 0xC0000
/-- SVC_STAT (R331). -/
abbrev Reg.SVC_STAT : Nat := 0xC0004
/-- SVC_CNT_A (R331). -/
abbrev Reg.SVC_CNT_A : Nat := 0xC0008
/-- SVC_CNT_B (R331). -/
abbrev Reg.SVC_CNT_B : Nat := 0xC000C
/-- SVC_MCTL (R331). -/
abbrev Reg.SVC_MCTL : Nat := 0xC0010
/-- SVC_MCMD (R331). -/
abbrev Reg.SVC_MCMD : Nat := 0xC0014
/-- SVC_AMB_CTL (R331). -/
abbrev Reg.SVC_AMB_CTL : Nat := 0xC0018
/-- SVC_AMB_CMD (R331). -/
abbrev Reg.SVC_AMB_CMD : Nat := 0xC001C
/-- SVC_AMB_LAST (R331). -/
abbrev Reg.SVC_AMB_LAST : Nat := 0xC0020
/-- SVC_CNT_C (R331). -/
abbrev Reg.SVC_CNT_C : Nat := 0xC0024
/-- SVC_MTX (R331). -/
abbrev Reg.SVC_MTX (k : Nat) : Nat := 0xC0040 + k * 0x4
/-- SVC_MRX (R331). -/
abbrev Reg.SVC_MRX (k : Nat) : Nat := 0xC0080 + k * 0x4
/-- PAIR_CTL (R346). -/
abbrev Reg.PAIR_CTL : Nat := 0xC1000
/-- PAIR_STAT (R346). -/
abbrev Reg.PAIR_STAT : Nat := 0xC1004
/-- PAIR_CMD (R346). -/
abbrev Reg.PAIR_CMD : Nat := 0xC1008
/-- PAIR_TO_CAUSE (R346). -/
abbrev Reg.PAIR_TO_CAUSE : Nat := 0xC100C
/-- PAIR_RTT (R346). -/
abbrev Reg.PAIR_RTT : Nat := 0xC1010
/-- PAIR_DEST (R346). -/
abbrev Reg.PAIR_DEST : Nat := 0xC1014
/-- PAIR_ASYM (R346). -/
abbrev Reg.PAIR_ASYM : Nat := 0xC1018
/-- PAIR_OFFSET (R346). -/
abbrev Reg.PAIR_OFFSET : Nat := 0xC101C
/-- PAIR_CNT_A (R346). -/
abbrev Reg.PAIR_CNT_A : Nat := 0xC1020
/-- PAIR_CNT_B (R346). -/
abbrev Reg.PAIR_CNT_B : Nat := 0xC1024
/-- PAIR_CNT_C (R346). -/
abbrev Reg.PAIR_CNT_C : Nat := 0xC1028
/-- PAIR_DIV (R346). -/
abbrev Reg.PAIR_DIV : Nat := 0xC102C
/-- PAIR_DIV_FRAME (R346). -/
abbrev Reg.PAIR_DIV_FRAME : Nat := 0xC1030
/-- PAIR_DIV_LINE (R346). -/
abbrev Reg.PAIR_DIV_LINE : Nat := 0xC1034
/-- PAIR_ID_LO (R346). -/
abbrev Reg.PAIR_ID_LO : Nat := 0xC1038
/-- PAIR_ID_HI (R346). -/
abbrev Reg.PAIR_ID_HI : Nat := 0xC103C
/-- PAIR_MEMBER (R346). -/
abbrev Reg.PAIR_MEMBER : Nat := 0xC1040
/-- FLT_SUM (R361). -/
abbrev Reg.FLT_SUM : Nat := 0xC2000
/-- FLT_MASK (R361). -/
abbrev Reg.FLT_MASK : Nat := 0xC2004
/-- FLT_FIRST (R361). -/
abbrev Reg.FLT_FIRST : Nat := 0xC2008
/-- FLT_FTIME_LO (R361). -/
abbrev Reg.FLT_FTIME_LO : Nat := 0xC200C
/-- FLT_FTIME_HI (R361). -/
abbrev Reg.FLT_FTIME_HI : Nat := 0xC2010
/-- FLT_CNT_A (R361). -/
abbrev Reg.FLT_CNT_A : Nat := 0xC2014
/-- FLT_CNT_B (R361). -/
abbrev Reg.FLT_CNT_B : Nat := 0xC2018
/-- FLT_ACTF_CAUSE (R361). -/
abbrev Reg.FLT_ACTF_CAUSE : Nat := 0xC201C
/-- FLT_JNL_STAT (R361). -/
abbrev Reg.FLT_JNL_STAT : Nat := 0xC2020
/-- FLT_JNL_CMD (R361). -/
abbrev Reg.FLT_JNL_CMD : Nat := 0xC2024
/-- FLT_JNL_GEN (R361). -/
abbrev Reg.FLT_JNL_GEN : Nat := 0xC2028
/-- CAL_CTL (R235). -/
abbrev Reg.CAL_CTL : Nat := 0xC3000
/-- CAL_GAP (R235). -/
abbrev Reg.CAL_GAP : Nat := 0xC3004
/-- CAL_RECAL_DT (R235). -/
abbrev Reg.CAL_RECAL_DT : Nat := 0xC3008
/-- CAL_RECAL_MAX (R235). -/
abbrev Reg.CAL_RECAL_MAX : Nat := 0xC300C
/-- CAL_RECAL_RETRY (R235). -/
abbrev Reg.CAL_RECAL_RETRY : Nat := 0xC3010
/-- CAL_RECAL_DEFER_MAX (R235). -/
abbrev Reg.CAL_RECAL_DEFER_MAX : Nat := 0xC3014
/-- CAL_SETTLE (R235). -/
abbrev Reg.CAL_SETTLE : Nat := 0xC3018
/-- CAL_SETTLE_OPEN (R235). -/
abbrev Reg.CAL_SETTLE_OPEN : Nat := 0xC301C
/-- CAL_SH_SIGMA (R235). -/
abbrev Reg.CAL_SH_SIGMA : Nat := 0xC3020
/-- CAL_SH_DRIFT (R235). -/
abbrev Reg.CAL_SH_DRIFT : Nat := 0xC3024
/-- CAL_SH_TAGREE (R235). -/
abbrev Reg.CAL_SH_TAGREE : Nat := 0xC3028
/-- CAL_SH_SAT (R235). -/
abbrev Reg.CAL_SH_SAT : Nat := 0xC302C
/-- CAL_SH_SKIPMAX (R235). -/
abbrev Reg.CAL_SH_SKIPMAX : Nat := 0xC3030
/-- CAL_GAP_PLO_LO (R235). -/
abbrev Reg.CAL_GAP_PLO_LO : Nat := 0xC3034
/-- CAL_GAP_PLO_HI (R235). -/
abbrev Reg.CAL_GAP_PLO_HI : Nat := 0xC3038
/-- CAL_GAP_PHI_LO (R235). -/
abbrev Reg.CAL_GAP_PHI_LO : Nat := 0xC303C
/-- CAL_GAP_PHI_HI (R235). -/
abbrev Reg.CAL_GAP_PHI_HI : Nat := 0xC3040
/-- CAL_STAT (R235). -/
abbrev Reg.CAL_STAT : Nat := 0xC3044
/-- CAL_H_CMD (R236). -/
abbrev Reg.CAL_H_CMD (n : Nat) : Nat := 0xC3400 + n * 0x40
/-- CAL_H_STAT (R236). -/
abbrev Reg.CAL_H_STAT (n : Nat) : Nat := 0xC3404 + n * 0x40
/-- CAL_H_TREF (R236). -/
abbrev Reg.CAL_H_TREF (n : Nat) : Nat := 0xC3408 + n * 0x40
/-- CAL_H_TSHUT (R236). -/
abbrev Reg.CAL_H_TSHUT (n : Nat) : Nat := 0xC340C + n * 0x40
/-- CAL_H_AGE (R236). -/
abbrev Reg.CAL_H_AGE (n : Nat) : Nat := 0xC3410 + n * 0x40
/-- CAL_H_SIGMA (R236). -/
abbrev Reg.CAL_H_SIGMA (n : Nat) : Nat := 0xC3414 + n * 0x40
/-- CAL_H_DRIFT (R236). -/
abbrev Reg.CAL_H_DRIFT (n : Nat) : Nat := 0xC3418 + n * 0x40
/-- CAL_H_TDIFF (R236). -/
abbrev Reg.CAL_H_TDIFF (n : Nat) : Nat := 0xC341C + n * 0x40
/-- CAL_H_SATMAX (R236). -/
abbrev Reg.CAL_H_SATMAX (n : Nat) : Nat := 0xC3420 + n * 0x40
/-- CAL_H_FRAMES (R236). -/
abbrev Reg.CAL_H_FRAMES (n : Nat) : Nat := 0xC3424 + n * 0x40
/-- CAL_H_CMEAN (R236). -/
abbrev Reg.CAL_H_CMEAN (n : Nat) : Nat := 0xC3428 + n * 0x40
/-- CAL_H_RDIG (R236). -/
abbrev Reg.CAL_H_RDIG (n : Nat) : Nat := 0xC342C + n * 0x40
/-- CAL_H_CNT (R236). -/
abbrev Reg.CAL_H_CNT (n : Nat) : Nat := 0xC3430 + n * 0x40
/-- CAL_H_CNT2 (R236). -/
abbrev Reg.CAL_H_CNT2 (n : Nat) : Nat := 0xC3434 + n * 0x40
/-- LDG_CTL (R319). -/
abbrev Reg.LDG_CTL : Nat := 0xC4000
/-- LDG_STAT (R319). -/
abbrev Reg.LDG_STAT : Nat := 0xC4004
/-- LDG_CMD (R319). -/
abbrev Reg.LDG_CMD : Nat := 0xC4008
/-- LDG_UKIND (R319). -/
abbrev Reg.LDG_UKIND : Nat := 0xC400C
/-- LDG_CNT_A (R319). -/
abbrev Reg.LDG_CNT_A : Nat := 0xC4010
/-- LDG_CNT_B (R319). -/
abbrev Reg.LDG_CNT_B : Nat := 0xC4014
/-- LDG_CNT_C (R319). -/
abbrev Reg.LDG_CNT_C : Nat := 0xC4018
/-- LDG_LOG (R319). -/
abbrev Reg.LDG_LOG : Nat := 0xC401C
/-- LDG_LOGSEQ (R319). -/
abbrev Reg.LDG_LOGSEQ : Nat := 0xC4020
/-- LDG_UPAGES (R319). -/
abbrev Reg.LDG_UPAGES : Nat := 0xC4024
/-- LDG_SHUT (R319). -/
abbrev Reg.LDG_SHUT : Nat := 0xC4028
/-- SEAM_CTL (R194). -/
abbrev Reg.SEAM_CTL : Nat := 0xE0000
/-- SEAM_STAT (R194). -/
abbrev Reg.SEAM_STAT : Nat := 0xE0004
/-- SEAM_PITCH (R194). -/
abbrev Reg.SEAM_PITCH : Nat := 0xE0008
/-- SEAM_ORG_LO (R194). -/
abbrev Reg.SEAM_ORG_LO : Nat := 0xE000C
/-- SEAM_ORG_HI (R194). -/
abbrev Reg.SEAM_ORG_HI : Nat := 0xE0010
/-- SEAM_EXCL (R194). -/
abbrev Reg.SEAM_EXCL : Nat := 0xE0014
/-- SEAM_WAIT_US (R194). -/
abbrev Reg.SEAM_WAIT_US : Nat := 0xE0018
/-- SEAM_WIDTH (R194). -/
abbrev Reg.SEAM_WIDTH : Nat := 0xE001C
/-- SEAM_CHAIN (R194). -/
abbrev Reg.SEAM_CHAIN (k : Nat) : Nat := 0xE0020 + k * 0x4
/-- SEAM_SEQ (R194). -/
abbrev Reg.SEAM_SEQ : Nat := 0xE0038
/-- SEAM_CNT (R194). -/
abbrev Reg.SEAM_CNT : Nat := 0xE003C
/-- SEAM_TAU_S (R194). -/
abbrev Reg.SEAM_TAU_S : Nat := 0xE0040
/-- SEAM_UPD_MS (R194). -/
abbrev Reg.SEAM_UPD_MS : Nat := 0xE0044
/-- SEAM_MINPTS (R194). -/
abbrev Reg.SEAM_MINPTS : Nat := 0xE0048
/-- SEAM_LO (R194). -/
abbrev Reg.SEAM_LO : Nat := 0xE004C
/-- SEAM_HI (R194). -/
abbrev Reg.SEAM_HI : Nat := 0xE0050
/-- SEAM_GRAD (R194). -/
abbrev Reg.SEAM_GRAD : Nat := 0xE0054
/-- SEAM_VREF (R194). -/
abbrev Reg.SEAM_VREF : Nat := 0xE0058
/-- SEAM_SPREAD (R194). -/
abbrev Reg.SEAM_SPREAD : Nat := 0xE005C
/-- SEAM_RELAY_CNT (R194). -/
abbrev Reg.SEAM_RELAY_CNT : Nat := 0xE0060
/-- SEAM_S_COL (R194). -/
abbrev Reg.SEAM_S_COL (n : Nat) : Nat := 0xE0100 + n * 0x20
/-- SEAM_S_CUT (R194). -/
abbrev Reg.SEAM_S_CUT (n : Nat) : Nat := 0xE0104 + n * 0x20
/-- SEAM_S_POSOFF_LO (R194). -/
abbrev Reg.SEAM_S_POSOFF_LO (n : Nat) : Nat := 0xE0108 + n * 0x20
/-- SEAM_S_POSOFF_HI (R194). -/
abbrev Reg.SEAM_S_POSOFF_HI (n : Nat) : Nat := 0xE010C + n * 0x20
/-- SEAM_S_STAT (R194). -/
abbrev Reg.SEAM_S_STAT (n : Nat) : Nat := 0xE0110 + n * 0x20
/-- SEAM_S_PAIRS (R194). -/
abbrev Reg.SEAM_S_PAIRS (n : Nat) : Nat := 0xE0114 + n * 0x20
/-- SEAM_S_D0 (R194). -/
abbrev Reg.SEAM_S_D0 (n : Nat) : Nat := 0xE0118 + n * 0x20
/-- SEAM_S_GAMMA (R194). -/
abbrev Reg.SEAM_S_GAMMA (n : Nat) : Nat := 0xE011C + n * 0x20
/-- SEAM_H_RG (R194). -/
abbrev Reg.SEAM_H_RG (n : Nat) : Nat := 0xE0400 + n * 0x10
/-- SEAM_H_RO (R194). -/
abbrev Reg.SEAM_H_RO (n : Nat) : Nat := 0xE0404 + n * 0x10
/-- SEAM_H_RO_FINE (R194). -/
abbrev Reg.SEAM_H_RO_FINE (n : Nat) : Nat := 0xE0408 + n * 0x10
/-- SEAM_H_RG_FINE (R194). -/
abbrev Reg.SEAM_H_RG_FINE (n : Nat) : Nat := 0xE040C + n * 0x10
/-- Z_CTL (R196). -/
abbrev Reg.Z_CTL (n : Nat) : Nat := 0xE4000 + n * 0x40
/-- Z_COL (R196). -/
abbrev Reg.Z_COL (n : Nat) : Nat := 0xE4004 + n * 0x40
/-- Z_PLO_LO (R196). -/
abbrev Reg.Z_PLO_LO (n : Nat) : Nat := 0xE4008 + n * 0x40
/-- Z_PLO_HI (R196). -/
abbrev Reg.Z_PLO_HI (n : Nat) : Nat := 0xE400C + n * 0x40
/-- Z_PHI_LO (R196). -/
abbrev Reg.Z_PHI_LO (n : Nat) : Nat := 0xE4010 + n * 0x40
/-- Z_PHI_HI (R196). -/
abbrev Reg.Z_PHI_HI (n : Nat) : Nat := 0xE4014 + n * 0x40
/-- Z_RULE (R196). -/
abbrev Reg.Z_RULE (n k : Nat) : Nat := 0xE4018 + n * 0x40 + k * 0x8
/-- Z_THR (R196). -/
abbrev Reg.Z_THR (n k : Nat) : Nat := 0xE401C + n * 0x40 + k * 0x8
/-- VRD_CTL (R214). -/
abbrev Reg.VRD_CTL : Nat := 0xE8000
/-- VRD_STAT (R214). -/
abbrev Reg.VRD_STAT : Nat := 0xE8004
/-- VRD_SEQ (R214). -/
abbrev Reg.VRD_SEQ : Nat := 0xE8008
/-- VRD_PEND_OVF (R214). -/
abbrev Reg.VRD_PEND_OVF : Nat := 0xE800C
/-- VRD_CNT_A (R214). -/
abbrev Reg.VRD_CNT_A : Nat := 0xE8010
/-- VRD_CNT_B (R214). -/
abbrev Reg.VRD_CNT_B : Nat := 0xE8014
/-- VRD_TMPL_OFFSET_LO (R201). -/
abbrev Reg.VRD_TMPL_OFFSET_LO (n : Nat) : Nat := 0xE8400 + n * 0x10
/-- VRD_TMPL_OFFSET_HI (R201). -/
abbrev Reg.VRD_TMPL_OFFSET_HI (n : Nat) : Nat := 0xE8404 + n * 0x10
/-- VRD_TMPL_CTRL (R201). -/
abbrev Reg.VRD_TMPL_CTRL (n : Nat) : Nat := 0xE8408 + n * 0x10
/-- VRD_TMPL_ARG (R201). -/
abbrev Reg.VRD_TMPL_ARG (n : Nat) : Nat := 0xE840C + n * 0x10
/-- DEF_CMD (R156). -/
abbrev Reg.DEF_CMD : Nat := 0xF0000
/-- DEF_KEY (R156). -/
abbrev Reg.DEF_KEY : Nat := 0xF0004
/-- DEF_STAT (R156). -/
abbrev Reg.DEF_STAT : Nat := 0xF0008
/-- DEF_TOTAL (R156). -/
abbrev Reg.DEF_TOTAL : Nat := 0xF000C
/-- DEF_IDX (R156). -/
abbrev Reg.DEF_IDX : Nat := 0xF0010
/-- DEF_DATA (R156). -/
abbrev Reg.DEF_DATA : Nat := 0xF0014
/-- DEF_RSVD (R156). -/
abbrev Reg.DEF_RSVD : Nat := 0xF0018
/-- DEF_HCNT (R156). -/
abbrev Reg.DEF_HCNT (k : Nat) : Nat := 0xF0100 + k * 0x4
/-- DEF_HBASE (R156). -/
abbrev Reg.DEF_HBASE (k : Nat) : Nat := 0xF0200 + k * 0x4
/-- HD_LINK_CTL (R85). -/
abbrev Reg.HD_LINK_CTL (n : Nat) : Nat := 0x100000 + n * 0x1000
/-- HD_LINK_STAT (R85). -/
abbrev Reg.HD_LINK_STAT (n : Nat) : Nat := 0x100004 + n * 0x1000
/-- HD_LINK_CMD (R85). -/
abbrev Reg.HD_LINK_CMD (n : Nat) : Nat := 0x100008 + n * 0x1000
/-- HD_GEOM (R85). -/
abbrev Reg.HD_GEOM (n : Nat) : Nat := 0x100010 + n * 0x1000
/-- HD_FMT (R85). -/
abbrev Reg.HD_FMT (n : Nat) : Nat := 0x100014 + n * 0x1000
/-- HD_RATE (R85). -/
abbrev Reg.HD_RATE (n : Nat) : Nat := 0x100018 + n * 0x1000
/-- HD_BIND (R85). -/
abbrev Reg.HD_BIND (n : Nat) : Nat := 0x10001C + n * 0x1000
/-- HD_BINDSTAT (R85). -/
abbrev Reg.HD_BINDSTAT (n : Nat) : Nat := 0x100020 + n * 0x1000
/-- HD_BANK (R85). -/
abbrev Reg.HD_BANK (n : Nat) : Nat := 0x100024 + n * 0x1000
/-- HD_CNT_A (R85). -/
abbrev Reg.HD_CNT_A (n : Nat) : Nat := 0x100030 + n * 0x1000
/-- HD_CNT_B (R85). -/
abbrev Reg.HD_CNT_B (n : Nat) : Nat := 0x100034 + n * 0x1000
/-- HD_CNT_C (R85). -/
abbrev Reg.HD_CNT_C (n : Nat) : Nat := 0x100038 + n * 0x1000
/-- HD_CNT_D (R85). -/
abbrev Reg.HD_CNT_D (n : Nat) : Nat := 0x10003C + n * 0x1000
/-- HD_CNT_E (R85). -/
abbrev Reg.HD_CNT_E (n : Nat) : Nat := 0x100040 + n * 0x1000
/-- HD_CNT_F (R85). -/
abbrev Reg.HD_CNT_F (n : Nat) : Nat := 0x100044 + n * 0x1000
/-- HD_CNT_G (R85). -/
abbrev Reg.HD_CNT_G (n : Nat) : Nat := 0x100048 + n * 0x1000
/-- HD_CNT_H (R85). -/
abbrev Reg.HD_CNT_H (n : Nat) : Nat := 0x10004C + n * 0x1000
/-- HD_UNBOUND (R85). -/
abbrev Reg.HD_UNBOUND (n : Nat) : Nat := 0x100050 + n * 0x1000
/-- HD_TR_FRAME (R85). -/
abbrev Reg.HD_TR_FRAME (n : Nat) : Nat := 0x100054 + n * 0x1000
/-- HD_TR_TFPA (R85). -/
abbrev Reg.HD_TR_TFPA (n : Nat) : Nat := 0x100058 + n * 0x1000
/-- HD_TR_TSHUT (R85). -/
abbrev Reg.HD_TR_TSHUT (n : Nat) : Nat := 0x10005C + n * 0x1000
/-- HD_TR_INFO (R85). -/
abbrev Reg.HD_TR_INFO (n : Nat) : Nat := 0x100060 + n * 0x1000
/-- HD_TR_HSTAT (R85). -/
abbrev Reg.HD_TR_HSTAT (n : Nat) : Nat := 0x100064 + n * 0x1000
/-- HD_LDELAY (R85). -/
abbrev Reg.HD_LDELAY (n : Nat) : Nat := 0x100068 + n * 0x1000
/-- HD_RTT (R85). -/
abbrev Reg.HD_RTT (n : Nat) : Nat := 0x10006C + n * 0x1000
/-- HD_CMD (R85). -/
abbrev Reg.HD_CMD (n : Nat) : Nat := 0x100070 + n * 0x1000
/-- HD_RSP (R85). -/
abbrev Reg.HD_RSP (n : Nat) : Nat := 0x100074 + n * 0x1000
/-- HD_CMD_DATA (R85). -/
abbrev Reg.HD_CMD_DATA (n k : Nat) : Nat := 0x100100 + n * 0x1000 + k * 0x4
/-- HD_RSP_DATA (R85). -/
abbrev Reg.HD_RSP_DATA (n k : Nat) : Nat := 0x100140 + n * 0x1000 + k * 0x4
/-- PL_CTL (R112). -/
abbrev Reg.PL_CTL (n : Nat) : Nat := 0x1A0000 + n * 0x1000
/-- PL_STAT (R112). -/
abbrev Reg.PL_STAT (n : Nat) : Nat := 0x1A0004 + n * 0x1000
/-- PL_CMD (R112). -/
abbrev Reg.PL_CMD (n : Nat) : Nat := 0x1A0008 + n * 0x1000
/-- PL_ROT (R112). -/
abbrev Reg.PL_ROT (n : Nat) : Nat := 0x1A000C + n * 0x1000
/-- PL_RES (R112). -/
abbrev Reg.PL_RES (n : Nat) : Nat := 0x1A0010 + n * 0x1000
/-- PL_RES_CNT (R112). -/
abbrev Reg.PL_RES_CNT (n : Nat) : Nat := 0x1A0014 + n * 0x1000
/-- PL_RES_LAST (R112). -/
abbrev Reg.PL_RES_LAST (n : Nat) : Nat := 0x1A0018 + n * 0x1000
/-- PL_CNT_A (R112). -/
abbrev Reg.PL_CNT_A (n : Nat) : Nat := 0x1A001C + n * 0x1000
/-- PL_CNT_B (R112). -/
abbrev Reg.PL_CNT_B (n : Nat) : Nat := 0x1A0020 + n * 0x1000
/-- PL_CNT_C (R112). -/
abbrev Reg.PL_CNT_C (n : Nat) : Nat := 0x1A0024 + n * 0x1000
/-- PL_BIST_RES (R112). -/
abbrev Reg.PL_BIST_RES (n : Nat) : Nat := 0x1A0028 + n * 0x1000
/-- PL_FC_CTL (R133). -/
abbrev Reg.PL_FC_CTL (n : Nat) : Nat := 0x1A0080 + n * 0x1000
/-- PL_FC_STAT (R133). -/
abbrev Reg.PL_FC_STAT (n : Nat) : Nat := 0x1A0084 + n * 0x1000
/-- PL_FC_CMD (R133). -/
abbrev Reg.PL_FC_CMD (n : Nat) : Nat := 0x1A0088 + n * 0x1000
/-- PL_SEAL_TOL (R133). -/
abbrev Reg.PL_SEAL_TOL (n : Nat) : Nat := 0x1A008C + n * 0x1000
/-- PL_BND_MIN (R133). -/
abbrev Reg.PL_BND_MIN (n : Nat) : Nat := 0x1A0090 + n * 0x1000
/-- PL_BND_COLD (R133). -/
abbrev Reg.PL_BND_COLD (n : Nat) : Nat := 0x1A0094 + n * 0x1000
/-- PL_K_BIAS (R133). -/
abbrev Reg.PL_K_BIAS (n : Nat) : Nat := 0x1A0098 + n * 0x1000
/-- PL_SCR_GUARD (R133). -/
abbrev Reg.PL_SCR_GUARD (n : Nat) : Nat := 0x1A009C + n * 0x1000
/-- PL_BOUND (R133). -/
abbrev Reg.PL_BOUND (n : Nat) : Nat := 0x1A00A0 + n * 0x1000
/-- PL_FC_NEXT (R133). -/
abbrev Reg.PL_FC_NEXT (n : Nat) : Nat := 0x1A00A4 + n * 0x1000
/-- PL_EPS_LAST (R133). -/
abbrev Reg.PL_EPS_LAST (n : Nat) : Nat := 0x1A00A8 + n * 0x1000
/-- PL_EPS_MAX (R133). -/
abbrev Reg.PL_EPS_MAX (n : Nat) : Nat := 0x1A00AC + n * 0x1000
/-- PL_SEAL_FRAME (R133). -/
abbrev Reg.PL_SEAL_FRAME (n : Nat) : Nat := 0x1A00B0 + n * 0x1000
/-- PL_SEAL_CNT_A (R133). -/
abbrev Reg.PL_SEAL_CNT_A (n : Nat) : Nat := 0x1A00B4 + n * 0x1000
/-- PL_SEAL_CNT_B (R133). -/
abbrev Reg.PL_SEAL_CNT_B (n : Nat) : Nat := 0x1A00B8 + n * 0x1000
/-- PL_SEAL_CNT_C (R133). -/
abbrev Reg.PL_SEAL_CNT_C (n : Nat) : Nat := 0x1A00BC + n * 0x1000
/-- PL_SH_CTL (R155). -/
abbrev Reg.PL_SH_CTL (n : Nat) : Nat := 0x1A0100 + n * 0x1000
/-- PL_SH_CNT (R155). -/
abbrev Reg.PL_SH_CNT (n : Nat) : Nat := 0x1A0104 + n * 0x1000
/-- PL_TF_CTL (R155). -/
abbrev Reg.PL_TF_CTL (n : Nat) : Nat := 0x1A0108 + n * 0x1000
/-- PL_MOT (R155). -/
abbrev Reg.PL_MOT (n : Nat) : Nat := 0x1A010C + n * 0x1000
/-- PL_DLO (R155). -/
abbrev Reg.PL_DLO (n : Nat) : Nat := 0x1A0110 + n * 0x1000
/-- PL_DHI (R155). -/
abbrev Reg.PL_DHI (n : Nat) : Nat := 0x1A0114 + n * 0x1000
/-- PL_TF_BASE_LO (R155). -/
abbrev Reg.PL_TF_BASE_LO (n : Nat) : Nat := 0x1A0118 + n * 0x1000
/-- PL_TF_BASE_HI (R155). -/
abbrev Reg.PL_TF_BASE_HI (n : Nat) : Nat := 0x1A011C + n * 0x1000
/-- PL_TF_STAT (R155). -/
abbrev Reg.PL_TF_STAT (n : Nat) : Nat := 0x1A0120 + n * 0x1000
/-- PL_TF_CNT (R155). -/
abbrev Reg.PL_TF_CNT (n : Nat) : Nat := 0x1A0124 + n * 0x1000
/-- PL_SP_CTL (R155). -/
abbrev Reg.PL_SP_CTL (n : Nat) : Nat := 0x1A0130 + n * 0x1000
/-- PL_DEF_CTL (R155). -/
abbrev Reg.PL_DEF_CTL (n : Nat) : Nat := 0x1A0140 + n * 0x1000
/-- PL_SP_K (R155). -/
abbrev Reg.PL_SP_K (n : Nat) : Nat := 0x1A0144 + n * 0x1000
/-- PL_DEF_CNT (R155). -/
abbrev Reg.PL_DEF_CNT (n : Nat) : Nat := 0x1A0150 + n * 0x1000
/-- PL_NR_STEP (R155). -/
abbrev Reg.PL_NR_STEP (n : Nat) : Nat := 0x1A01F0 + n * 0x1000
/-- PL_BM_CTL (R172). -/
abbrev Reg.PL_BM_CTL (n : Nat) : Nat := 0x1A0200 + n * 0x1000
/-- PL_BM_M0 (R172). -/
abbrev Reg.PL_BM_M0 (n : Nat) : Nat := 0x1A0204 + n * 0x1000
/-- PL_BM_M1 (R172). -/
abbrev Reg.PL_BM_M1 (n : Nat) : Nat := 0x1A0208 + n * 0x1000
/-- PL_BM_M2 (R172). -/
abbrev Reg.PL_BM_M2 (n : Nat) : Nat := 0x1A020C + n * 0x1000
/-- PL_BM_M3 (R172). -/
abbrev Reg.PL_BM_M3 (n : Nat) : Nat := 0x1A0210 + n * 0x1000
/-- PL_BM_M4 (R172). -/
abbrev Reg.PL_BM_M4 (n : Nat) : Nat := 0x1A0214 + n * 0x1000
/-- PL_BM_M5 (R172). -/
abbrev Reg.PL_BM_M5 (n : Nat) : Nat := 0x1A0218 + n * 0x1000
/-- PL_BM_M6 (R172). -/
abbrev Reg.PL_BM_M6 (n : Nat) : Nat := 0x1A021C + n * 0x1000
/-- PL_BM_M7 (R172). -/
abbrev Reg.PL_BM_M7 (n : Nat) : Nat := 0x1A0220 + n * 0x1000
/-- PL_BM_G01 (R172). -/
abbrev Reg.PL_BM_G01 (n : Nat) : Nat := 0x1A0224 + n * 0x1000
/-- PL_BM_G23 (R172). -/
abbrev Reg.PL_BM_G23 (n : Nat) : Nat := 0x1A0228 + n * 0x1000
/-- PL_BM_CNT (R172). -/
abbrev Reg.PL_BM_CNT (n : Nat) : Nat := 0x1A022C + n * 0x1000
/-- PL_LIN_CTL (R172). -/
abbrev Reg.PL_LIN_CTL (n : Nat) : Nat := 0x1A0230 + n * 0x1000
/-- PL_LIN_CMD (R172). -/
abbrev Reg.PL_LIN_CMD (n : Nat) : Nat := 0x1A0234 + n * 0x1000
/-- PL_LIN_X0 (R172). -/
abbrev Reg.PL_LIN_X0 (n : Nat) : Nat := 0x1A0238 + n * 0x1000
/-- PL_LIN_XSTEP (R172). -/
abbrev Reg.PL_LIN_XSTEP (n : Nat) : Nat := 0x1A023C + n * 0x1000
/-- PL_RES_X0 (R172). -/
abbrev Reg.PL_RES_X0 (n : Nat) : Nat := 0x1A0240 + n * 0x1000
/-- PL_RES_XSTEP (R172). -/
abbrev Reg.PL_RES_XSTEP (n : Nat) : Nat := 0x1A0244 + n * 0x1000
/-- PL_RAT_R0 (R172). -/
abbrev Reg.PL_RAT_R0 (n : Nat) : Nat := 0x1A0248 + n * 0x1000
/-- PL_RAT_RSTEP (R172). -/
abbrev Reg.PL_RAT_RSTEP (n : Nat) : Nat := 0x1A024C + n * 0x1000
/-- PL_LIN_CNT (R172). -/
abbrev Reg.PL_LIN_CNT (n : Nat) : Nat := 0x1A0250 + n * 0x1000
/-- PL_LIN_CNT2 (R172). -/
abbrev Reg.PL_LIN_CNT2 (n : Nat) : Nat := 0x1A0254 + n * 0x1000
/-- PL_RAT_CTL (R172). -/
abbrev Reg.PL_RAT_CTL (n : Nat) : Nat := 0x1A0258 + n * 0x1000
/-- PL_RAT_CNT (R172). -/
abbrev Reg.PL_RAT_CNT (n : Nat) : Nat := 0x1A025C + n * 0x1000
/-- PL_TBL_IDX (R172). -/
abbrev Reg.PL_TBL_IDX (n : Nat) : Nat := 0x1A0260 + n * 0x1000
/-- PL_TBL_DATA (R172). -/
abbrev Reg.PL_TBL_DATA (n : Nat) : Nat := 0x1A0264 + n * 0x1000
/-- PL_MG_CTL (R172). -/
abbrev Reg.PL_MG_CTL (n : Nat) : Nat := 0x1A0270 + n * 0x1000
/-- PL_MG_T (R172). -/
abbrev Reg.PL_MG_T (n k : Nat) : Nat := 0x1A0274 + n * 0x1000 + k * 0x4
/-- PL_MG_TNORM (R172). -/
abbrev Reg.PL_MG_TNORM (n : Nat) : Nat := 0x1A0284 + n * 0x1000
/-- PL_MG_CMD (R172). -/
abbrev Reg.PL_MG_CMD (n : Nat) : Nat := 0x1A0288 + n * 0x1000
/-- PL_MG_STAT (R172). -/
abbrev Reg.PL_MG_STAT (n : Nat) : Nat := 0x1A028C + n * 0x1000
/-- PL_MG_CNT (R172). -/
abbrev Reg.PL_MG_CNT (n : Nat) : Nat := 0x1A0290 + n * 0x1000
/-- PL_MG_F0 (R172). -/
abbrev Reg.PL_MG_F0 (n : Nat) : Nat := 0x1A0294 + n * 0x1000
/-- PL_T6_LO (R172). -/
abbrev Reg.PL_T6_LO (n : Nat) : Nat := 0x1A02A0 + n * 0x1000
/-- PL_T6_STEP (R172). -/
abbrev Reg.PL_T6_STEP (n : Nat) : Nat := 0x1A02A4 + n * 0x1000
/-- PL_T6_INVCOL (R172). -/
abbrev Reg.PL_T6_INVCOL (n : Nat) : Nat := 0x1A02A8 + n * 0x1000
/-- PL_TDI_CTL (R193). -/
abbrev Reg.PL_TDI_CTL (n : Nat) : Nat := 0x1A0300 + n * 0x1000
/-- PL_TDI_CMD (R193). -/
abbrev Reg.PL_TDI_CMD (n : Nat) : Nat := 0x1A0304 + n * 0x1000
/-- PL_TDI_STAT (R193). -/
abbrev Reg.PL_TDI_STAT (n : Nat) : Nat := 0x1A0308 + n * 0x1000
/-- PL_TDI_ROWPITCH (R193). -/
abbrev Reg.PL_TDI_ROWPITCH (n : Nat) : Nat := 0x1A030C + n * 0x1000
/-- PL_TDI_OFF_LO (R193). -/
abbrev Reg.PL_TDI_OFF_LO (n : Nat) : Nat := 0x1A0310 + n * 0x1000
/-- PL_TDI_OFF_HI (R193). -/
abbrev Reg.PL_TDI_OFF_HI (n : Nat) : Nat := 0x1A0314 + n * 0x1000
/-- PL_TDI_ORIGIN_LO (R193). -/
abbrev Reg.PL_TDI_ORIGIN_LO (n : Nat) : Nat := 0x1A0318 + n * 0x1000
/-- PL_TDI_ORIGIN_HI (R193). -/
abbrev Reg.PL_TDI_ORIGIN_HI (n : Nat) : Nat := 0x1A031C + n * 0x1000
/-- PL_TDI_OUTPITCH (R193). -/
abbrev Reg.PL_TDI_OUTPITCH (n : Nat) : Nat := 0x1A0320 + n * 0x1000
/-- PL_TDI_CNT_A (R193). -/
abbrev Reg.PL_TDI_CNT_A (n : Nat) : Nat := 0x1A0324 + n * 0x1000
/-- PL_TDI_CNT_B (R193). -/
abbrev Reg.PL_TDI_CNT_B (n : Nat) : Nat := 0x1A0328 + n * 0x1000
/-- PL_TDI_CNT_C (R193). -/
abbrev Reg.PL_TDI_CNT_C (n : Nat) : Nat := 0x1A032C + n * 0x1000
/-- PL_TDI_CNT_D (R193). -/
abbrev Reg.PL_TDI_CNT_D (n : Nat) : Nat := 0x1A0330 + n * 0x1000
/-- PL_TDI_OUTSEQ (R193). -/
abbrev Reg.PL_TDI_OUTSEQ (n : Nat) : Nat := 0x1A0334 + n * 0x1000
/-- PL_TDI_LAST_J_LO (R193). -/
abbrev Reg.PL_TDI_LAST_J_LO (n : Nat) : Nat := 0x1A0338 + n * 0x1000
/-- PL_TDI_LAST_J_HI (R193). -/
abbrev Reg.PL_TDI_LAST_J_HI (n : Nat) : Nat := 0x1A033C + n * 0x1000
/-- PL_TDI_CNT_E (R193). -/
abbrev Reg.PL_TDI_CNT_E (n : Nat) : Nat := 0x1A0340 + n * 0x1000
/-- PL_TAP_SEL (R281). -/
abbrev Reg.PL_TAP_SEL (n : Nat) : Nat := 0x1A0380 + n * 0x1000
/-- PL_TAP_CNT (R281). -/
abbrev Reg.PL_TAP_CNT (n : Nat) : Nat := 0x1A0384 + n * 0x1000

/-- The pairs of R378: a LO word, from `first`, `count` replicas `stride` bytes apart; `frac` where the
word after HI is a fraction that the snapshot takes too. -/
def loPairs : List (Nat × Nat × Nat × Bool) :=
  [(0x4, 1, 0x4, false),
   (0x10010, 8, 0x100, false),
   (0x10018, 8, 0x100, false),
   (0x10020, 8, 0x100, false),
   (0x10028, 8, 0x100, false),
   (0x11008, 8, 0x80, false),
   (0x11028, 8, 0x80, false),
   (0x11030, 8, 0x80, true)]
  ++ [(0x1103C, 8, 0x80, false),
   (0x12010, 1, 0x4, true),
   (0x12028, 1, 0x4, false),
   (0x12030, 1, 0x4, false),
   (0x1203C, 1, 0x4, false),
   (0x12050, 1, 0x4, false),
   (0x12058, 1, 0x4, false),
   (0x13100, 8, 0x10, false)]
  ++ [(0x13108, 8, 0x10, false),
   (0x30118, 4, 0x40, false),
   (0x60008, 1, 0x4, false),
   (0x60104, 2, 0x40, false),
   (0x62008, 198, 0x20, false),
   (0x70168, 1, 0x4, false),
   (0xC1038, 1, 0x4, false),
   (0xC200C, 1, 0x4, false)]
  ++ [(0xC3034, 1, 0x4, false),
   (0xC303C, 1, 0x4, false),
   (0xE000C, 1, 0x4, false),
   (0xE0108, 23, 0x20, false),
   (0xE4008, 256, 0x40, false),
   (0xE4010, 256, 0x40, false),
   (0xE8400, 64, 0x10, false),
   (0x1A0118, 26, 0x1000, false)]
  ++ [(0x1A0310, 26, 0x1000, false),
   (0x1A0318, 26, 0x1000, false),
   (0x1A0338, 26, 0x1000, false)]

end Sys2Proof.Machine
end

