-- ==== Sys2Proof/Machine/State.lean ====
section
/-! DEFINITION. The state of the block: its register file, its memories, the hidden state of every
unit, what it has emitted, and the queue of waiting commands. -/

namespace Sys2Proof.Machine

/-! ### Position and time (02_position_and_time.md) -/

/-- An instant: `ref` on the reference clock in units of 62.5 ps, and `dev`, the device time of R395 in
units of 2^-37 ns. -/
structure Inst where
  ref : Nat
  dev : Nat
  deriving DecidableEq, Repr

/-- Up to reference time `upTo` the counter ran from device time `dev` at that time backward with increment `inc` (R395):
the law of the time before a change of increment, a STEP or a SET. -/
structure TimeBreak where
  upTo : Nat
  dev : Nat
  inc : BitVec 40
  deriving DecidableEq, Repr

/-- A glitch-filter hold in progress (R29): the new level, its threshold crossing, and the reference
time at which it has been held long enough. -/
structure Hold where
  level : Bool
  cross : Inst
  due : Nat
  deriving DecidableEq, Repr

/-- A counted transition of the current tick, as it left the channel (R35): strike points and keys are tested against it
at the end of the tick. -/
structure Eval where
  fwd : Bool
  cross : Inst
  base : Pos48
  hwm : Pos48
  valid : Bool
  span : Nat
  deriving DecidableEq, Repr

/-- What a jump of the current tick was to keys (R36, R38): forward by a load, or backward by a load or a zero. -/
inductive Jump where
  | forward | backward
  deriving DecidableEq, Repr

/-- One position channel (R28 to R39). -/
structure PosCh where
  /-- levels at the balls, and holds in progress -/
  rawA : Bool := true
  rawB : Bool := true
  rawZ : Bool := true
  holdA : Option Hold := none
  holdB : Option Hold := none
  holdZ : Option Hold := none
  /-- filtered levels, and the A/B state the quadrature machine last adopted -/
  filtA : Bool := true
  filtB : Bool := true
  filtZ : Bool := true
  quadA : Bool := true
  quadB : Bool := true
  /-- position without the running fraction (R33) -/
  base : Pos48 := 0
  /-- the fraction where it does not run: at standstill, after a zero or a load -/
  frozen : Option Int := some 0
  hwm : Pos48 := 0
  /-- crossings of the last counted transitions of the run, newest first (R33) -/
  run : List Nat := []
  /-- crossing of the last counted transition -/
  last : Option Inst := none
  /-- direction of the last counted transition -/
  fwd : Bool := true
  /-- a transition has been counted since reset -/
  moved : Bool := false
  standstill : Bool := true
  /-- the next counted transition begins a new run -/
  fresh : Bool := true
  /-- motion accumulated for the slip check, without the running fraction (R39) -/
  slip : Int := 0
  /-- the fraction that a zero or a load has ended, part of the motion until the next counted transition (R39) -/
  carried : Int := 0
  /-- an accepted change of A (true) or B that a change of the other within 1 ns, still in its filter, may make a double
  transition (R30) -/
  wait : Option (Bool × Hold) := none
  /-- transitions counted in the current tick, oldest first, and a jump made in it (R35) -/
  evals : List Eval := []
  jump : Option Jump := none
  deriving DecidableEq, Repr

/-- The route filter (R48): the delay in use, the latest measurement, the end of a hold. -/
structure Route where
  dest : Option Int := none
  latest : Int := 0
  holdEnd : Option Nat := none
  deriving DecidableEq, Repr

/-- A TIME_OUT train as armed (R45). -/
structure Train where
  start : Nat
  period : Nat
  width : Nat
  /-- number of edges; none: endless -/
  count : Option Nat
  /-- next edge not yet emitted -/
  k : Nat
  deriving DecidableEq, Repr

/-- The time unit (R41 to R48). -/
structure Tim where
  ns : BitVec 64 := 0
  fr : BitVec 32 := 0
  /-- the 40-bit increment in force -/
  inc : BitVec 40 := 0x0200000000
  /-- earlier laws of the counter, newest first, over the last 2 µs (R395) -/
  breaks : List TimeBreak := []
  /-- the last tick jumped forward: the count in ns that it would have had without (R43) -/
  jumpFrom : Option Nat := none
  /-- TIM_INC_NS has been written since the last tick -/
  incWritten : Bool := false
  /-- STEP values pulsed since the last tick, and the last SET -/
  steps : List Word := []
  set : Option (BitVec 64) := none
  /-- reference time of the last PPS edge or counted miss -/
  ppsLast : Option Nat := none
  train : Option Train := none
  /-- end of the TIME_OUT pulse in progress, device time in ns -/
  pulseEnd : Option Nat := none
  /-- outstanding PTM exchange: reference time and t1 in ns -/
  ptmOut : Option (Nat × BitVec 64) := none
  /-- t1 and t4 of the previous exchange -/
  ptmPrev : Option (BitVec 64 × BitVec 64) := none
  /-- reference time at which the automatic interval began -/
  ptmAuto : Nat := 0
  route : Route := {}
  deriving DecidableEq, Repr

/-! ### Strikes (03_strike_and_lockstep.md) -/

/-- An entry of a group's strike record (R64): stamp, position, instant in units of 62.5 ps. -/
structure StrikeRec where
  stamp : BitVec 21
  pos : Pos48
  time : BitVec 68
  deriving DecidableEq, Repr

/-- A predicted strike point and the reference time of its instant (R55). -/
structure Predict where
  p : Pos48
  at_ : Nat
  deriving DecidableEq, Repr

/-- A strike that step 3 of R60 has decided and that is still to be issued: an idle one, or an interpolated one, with its
position and instant. -/
structure Decided where
  idle : Bool
  pos : Pos48
  inst : Inst
  deriving DecidableEq, Repr

/-- One strike group (R51 to R64). -/
structure StkGrp where
  next : Pos48 := 0
  seq : BitVec 16 := 0
  /-- reference time of the last issued strike's instant -/
  last : Option Nat := none
  preds : List Predict := []
  /-- strikes past step 3 of R60, oldest first -/
  decided : List Decided := []
  /-- reference time of the next idle strike while the cadence runs -/
  idle : Option Nat := none
  /-- a manual strike to test in the current tick, and one pulsed in it, to test in the next (R60) -/
  manual : Bool := false
  manualNext : Bool := false
  /-- the most recent issued strikes, newest first, at most 256 -/
  recs : List StrikeRec := []
  deriving DecidableEq, Repr

/-- A strike scheduled at a port (R61): its stamp and the reference time of its first bit. -/
structure Sched where
  stamp : BitVec 21
  at_ : Nat
  deriving DecidableEq, Repr

/-! ### The ledger (15_ledger.md) -/

/-- A ledger write waiting or in progress (R304). -/
inductive LdgReq where
  /-- a twin-slot record of a T24 kind; `head` for CAL_SUM -/
  | twin (kind : Byte) (head : Nat) (body : List Byte)
  | shutdown (body : List Byte)
  /-- an event log entry (R312) -/
  | log (code : BitVec 16) (src : Byte) (urgent : Bool) (time : BitVec 64) (data : List Byte)
  /-- a user record written by LWR (R314) -/
  | user (t : Thr) (kind : Byte) (body : List Byte)
  /-- a record of CAL_SUM or a user kind mirrored with its SEQ (R338) -/
  | copy (kind : Byte) (head : Nat) (body : List Byte) (seq : Word)
  /-- a user kind's release (R314) -/
  | ufree (kind : Byte)
  /-- bytes written through the window (R302) -/
  | raw (bytes : List (Nat × Byte))
  deriving DecidableEq, Repr

/-- The write in progress: its request and the pages still to program, the one being programmed
first (R303). -/
structure LdgProg where
  req : LdgReq
  /-- the SEQ that the record takes; 0 where it has none -/
  seq : Word
  pages : List (List (Nat × Byte))
  deriving DecidableEq, Repr

/-- An access to the ledger window held while a page is programmed (R305): a read, a write, or the access of a
stalled thread. -/
inductive Held where
  | read (r : Requester) (off : Nat)
  | write (r : Requester) (off : Nat) (val : Word) (be : BitVec 4)
  | thread (t : Thr)
  deriving DecidableEq, Repr

/-- The ledger (R300 to R317). -/
structure Ldg where
  bytes : SMap Byte := []
  queue : List LdgReq := []
  /-- those of the queue that a low supply has delayed and that are counted (R317) -/
  delayed : List LdgReq := []
  prog : Option LdgProg := none
  /-- accesses held while a page is programmed (R305) -/
  held : List Held := []
  /-- reference time at which the last non-urgent log entry was queued (R313) -/
  lastLog : Option Nat := none
  /-- reference time at which the last JSUM was queued; a JSUM is wanted (R310) -/
  lastJsum : Option Nat := none
  wantJsum : Bool := false
  /-- SEQ of the last JSUM written (R355) -/
  jsumSeq : Word := 0
  /-- reference time of the last COUNTERS period (R310) -/
  lastCounters : Nat := 0
  /-- COUNTERS: power cycles, shutdowns, warm resets, SEQ of the newest shutdown record counted -/
  powerCycles : Word := 0
  shutdowns : Word := 0
  warmResets : Word := 0
  shutSeq : Word := 0
  /-- strikes counted in the record when it was selected -/
  strikesBase : BitVec 64 := 0
  deriving DecidableEq, Repr

/-! ### Host and egress (13_host_interface.md) -/

/-- An egress item or record: its bytes, and the frame and line it belongs to (R267 to R269). -/
structure Item where
  bytes : List Byte
  frame : Word
  line : BitVec 16
  deriving DecidableEq, Repr

/-- A run of drops for which a gap record is due (R269, R275). -/
structure DropRun where
  cause : Byte
  count : Nat
  frame : Word
  line : BitVec 16
  first : BitVec 64
  last : BitVec 64
  deriving DecidableEq, Repr

/-- The states of a descriptor (R358). -/
inductive DState where
  | fetched | filling | held | writing | completed
  deriving DecidableEq, Repr

/-- A fetched descriptor (R270 to R273). -/
structure Desc where
  d : Descriptor
  idx : Nat
  /-- descriptor slot of the journal (R358) -/
  slot : Nat
  st : DState
  outcome : Byte
  /-- items placed, oldest first -/
  items : List Item
  /-- bytes of data already issued to the link -/
  issued : Nat
  /-- reference time at which its first item was placed -/
  openAt : Option Nat
  /-- its launch key no longer holds it -/
  launched : Bool
  deriving DecidableEq, Repr

/-- One stream (R265): staged items not yet placed, drops due a gap record, descriptors in flight. -/
structure StreamSt where
  items : List Item := []
  drops : Option DropRun := none
  withheld : Option DropRun := none
  descs : List Desc := []
  /-- next descriptor index to fetch, and fetches under way -/
  fetch : Nat := 0
  fetching : Nat := 0
  /-- reads still outstanding whose fetches a failure or a disable has given up (R261) -/
  stale : Nat := 0
  /-- an EGRESS_LAUNCH executed in the current tick (R272) -/
  launchTick : Option Nat := none
  /-- a failed fetch has stopped the ring until it is enabled again (R271) -/
  stopped : Bool := false
  deriving DecidableEq, Repr

/-- A record ring's staging (R274). -/
structure RecRing where
  staged : List Item := []
  drops : Option DropRun := none
  deriving DecidableEq, Repr

/-- What configuration space reads without ever changing: the identity (R2, R260), the PTM capability (R46), the
limits of the function's own requests, its link and its capabilities (R260; identifiers as the standard numbers them:
PRESUMED, log entry 156). -/
structure PciCaps where
  vendor : BitVec 16 := 0x1F5C
  device : BitVec 16 := 0x7240
  revision : Byte := 0xB1
  classCode : BitVec 24 := 0x118000
  subVendor : BitVec 16 := 0x1F5C
  subDevice : BitVec 16 := 0x7240
  ptmRequester : Bool := true
  ptmResponder : Bool := false
  ptmRoot : Bool := false
  ptmGranularity : Byte := 0x02
  maxPayload : Nat := 512
  maxReads : Nat := 64
  /-- tags of 10 bits as requester; completion timeout ranges A to D, and that its disable is supported -/
  tagBits : Nat := 10
  cplRanges : Nat := 4
  cplDisableSupported : Bool := true
  /-- link speeds in units of 0.1 GT/s, and widths in lanes -/
  linkSpeeds : List Nat := [25, 50, 80, 160, 320]
  linkWidths : List Nat := [1, 2, 4]
  aspmL0s : Bool := false
  aspmL1 : Bool := true
  /-- power management events; extended capabilities by their identifiers: AER, PTM, Resizable BAR -/
  pme : Bool := false
  extended : List (BitVec 16) := [0x0001, 0x001F, 0x0015]
  flr : Bool := false
  msixVectors : Nat := 64
  deriving DecidableEq, Repr

/-- Interrupt moderation of one ring, or of the interrupt summary (R278). -/
structure Moder where
  ends : Option Nat := none
  again : Bool := false
  imod : Nat := 0
  deriving DecidableEq, Repr

/-- A descriptor slot of the journal (R358). -/
structure Slot where
  stream : Nat := 0
  st : Nat := 0
  abandoned : Bool := false
  idx : Nat := 0
  issued : Nat := 0
  items : Nat := 0
  outcome : Byte := 0
  deriving DecidableEq, Repr

/-- The host interface: configuration space, streams, record rings, interrupts. -/
structure HostIf where
  bme : Bool := false
  d3hot : Bool := false
  caps : PciCaps := {}
  ptmEn : Bool := false
  /-- stored, not used (R46) -/
  ptmRootSel : Bool := false
  ptmEffGran : Byte := 0
  msixEn : Bool := false
  msixMask : Bool := false
  /-- Max_Payload_Size is 128 x 2^n bytes -/
  mps : Fin 3 := 0
  cplTimeout : Fin 16 := 0
  cplDisable : Bool := false
  /-- errors reported through AER and not cleared (R261) -/
  aer : List AerError := []
  /-- BAR2 size is 2^(28 + n) bytes -/
  bar2 : Fin 7 := 0
  dlUp : Bool := false
  strs : SMap StreamSt := []
  rings : SMap RecRing := []
  /-- moderation: 0 the interrupt summary, 1 and 2 the record rings, 3 + s stream s -/
  vecs : SMap Moder := []
  slots : SMap Slot := []
  /-- stream served last, and streams passed over with their counts (R276) -/
  lastServed : Nat := 197
  passed : SMap Nat := []
  /-- bytes written to the link in the current 100 µs (R277) -/
  loadBytes : Nat := 0
  deriving DecidableEq, Repr

/-! ### Actions and event lines (10_verdicts_and_actions.md) -/

/-- One action queue entry: its armed values (R202, R203), and the journal's view of it (R357). -/
structure ActEntry where
  /-- 0 free, 1 armed, 2 executing -/
  st : Nat := 0
  key : BitVec 64 := 0
  ctrl : Word := 0x200
  arg : BitVec 24 := 0
  /-- 0 host, 1 to 4 threads, 5 verdict engine (R208) -/
  writer : Nat := 0
  vseq : Option Word := none
  /-- armed in the current tick, and not yet tested against a key already passed (R206, R207) -/
  fresh : Bool := false
  /-- BIDIR: the position lay below KEY at arming (R205) -/
  below : Option Bool := none
  /-- BIDIR: the position has reached KEY before the start time of a mirrored arm (R340) -/
  passed : Bool := false
  /-- reached and not yet executed: its instant, and its lateness where it is late (R207) -/
  reached : Option (Inst × Option Int) := none
  /-- an arm mirrored from the active member starts at this device time (R340) -/
  start : Option (BitVec 64) := none
  jst : Nat := 0
  jlate : Bool := false
  jcut : Bool := false
  jwriter : Nat := 0
  jkind : Nat := 0
  jtime : BitVec 48 := 0
  /-- at a standby: an execution held unconfirmed, and an EXEC frame that came first (R340) -/
  held : Bool := false
  conf : Bool := false
  deriving DecidableEq, Repr

/-- Words a thread has staged for an entry, and the host's (R203, R248). -/
structure ActStage where
  key : BitVec 64 := 0
  ctrl : Word := 0x200
  arg : BitVec 24 := 0
  deriving DecidableEq, Repr

/-- A pulse in progress on an event output (R210): the end of its level in device time, units of 62.5 ps (the ball follows
32 ns later, R209), and the entry that started it. -/
structure Pulse where
  ends : Nat
  entry : Option Nat
  deriving DecidableEq, Repr

/-- One event input (R211). -/
structure EiCh where
  raw : Bool := false
  hold : Option Hold := none
  /-- positions of the eight channels at the crossing of the hold -/
  at_ : List Pos48 := []
  deriving DecidableEq, Repr

/-- The action queue and event lines. -/
structure Act where
  entries : SMap ActEntry := []
  /-- reached entries not yet executed, ascending (R207) -/
  backlog : List Nat := []
  /-- entries executed in the current tick -/
  done : Nat := 0
  pulses : SMap (Option Pulse) := []
  ei : SMap EiCh := []
  deriving DecidableEq, Repr

/-! ### Head ports (04_head_link.md) -/

/-- Who issued a head command, and so what its answer or failure means (R73). -/
inductive CmdOrg where
  | bringup | group | bind | header | relink
  | section_ (addr len : Nat)
  | retrain | mailbox | action (i : Nat) | seq | status
  /-- calibration: close (true) or open -/
  | shutter (close : Bool)
  /-- merge mode: the run's ladder (true) or TNORM alone -/
  | ladder (run : Bool)
  deriving DecidableEq, Repr

/-- A head command (R73). -/
structure HdCmd where
  opc : Byte
  payload : List Byte
  org : CmdOrg
  deriving DecidableEq, Repr

/-- A character of a command lane (R68): a K character Kx.y, or a data byte. -/
inductive LaneChar where
  | k (x : Fin 32) (y : Fin 8)
  | d (v : Byte)
  deriving DecidableEq, Repr

/-- A command sent and not yet answered. -/
structure OutCmd where
  cmd : HdCmd
  tag : Byte
  /-- sendings so far, 1 to 4 -/
  attempt : Nat
  /-- reference time of the K29.7 of the last sending, and of the response timeout -/
  ends : Nat
  deadline : Nat
  /-- an attempt has failed, and the next sending waits for the lane -/
  waits : Bool := false
  deriving DecidableEq, Repr

/-- The characterisation header (R77). -/
structure CharHdr where
  cols : Nat
  rows : Nat
  depthMax : Nat
  mosaic : Bool
  anchor : Nat
  strikeLat : Nat
  turn : Nat
  serial : List Byte
  caratOff : Nat
  caratLen : Nat
  tblOff : Nat
  tblLen : Nat
  crc : Word
  deriving DecidableEq, Repr

/-- A characterisation load in progress (R78): the header bytes once read, the section bytes read so
far by offset from the start of the carat section then of the table section, the next byte to request,
its deadline. -/
structure Load where
  hdr : Option (List Byte)
  carat : SMap Byte
  table : SMap Byte
  /-- bytes of the sections requested, and received -/
  asked : Nat
  got : Nat
  deadline : Nat
  deriving DecidableEq, Repr

/-- A head port (R68 to R85). -/
structure HdPort where
  queue : List HdCmd := []
  outs : List OutCmd := []
  /-- commands that were answered or dropped while the lane still carried them (R70, R71) -/
  ghosts : List OutCmd := []
  tag : Byte := 0
  load : Option Load := none
  hdr : Option CharHdr := none
  /-- the last load has succeeded (R103) -/
  loaded : Bool := false
  heldReload : Bool := false
  relink : Bool := false
  /-- reference time of the K28.3 of a measurement in progress (R80) -/
  measure : Option Nat := none
  /-- a MEASURE waits for the lane; reference time of the last K28.3 sent -/
  echoWaits : Bool := false
  echoAt : Option Nat := none
  /-- reference time of the first bit of the last strike symbol sent (R62) -/
  strikeAt : Option Nat := none
  /-- by upstream lane, whether its last sync headers were valid, newest first, at most 64 (R75) -/
  sync : SMap (List Bool) := []
  /-- a RETRAIN waits for HEAD_RESET to be answered (R75) -/
  retraining : Bool := false
  /-- reference time of the last packet from the head (R83) -/
  lastPkt : Nat := 0
  deriving DecidableEq, Repr

/-! ### Lines, frames and forecast (04 to 07) -/

/-- A line accepted at ingress (R82): its pixels as received, padded or cut to the declared columns. -/
structure RawLine where
  y : Nat
  pixels : List (BitVec 16)
  /-- pixels received; those beyond are padding and INVALID (R82) -/
  got : Nat
  short : Bool
  long : Bool
  crcBad : Bool
  late : Bool
  supply : Bool
  shuttered : Bool
  stamp : BitVec 21
  /-- from the strike record (R64); none where LATE -/
  pos : Option Pos48
  time : Option (BitVec 68)
  /-- device time in ns of its CRC check (R115) -/
  a : BitVec 64
  /-- forecast used (R115) -/
  f : Nat
  /-- columns made INVALID by a residue mismatch or an uncorrectable read, and where (R98, R349) -/
  bad : List (Nat × Checked)
  /-- columns whose uncorrectable defect table entry is skipped (R349) -/
  skips : List Nat := []
  /-- taps at which it was emitted (R120) -/
  out : BitVec 8
  deriving DecidableEq, Repr

/-- A copy of a pipeline's stage state (R90, R108): registers at offsets 0x080 to 0x3FF, emissivity copies,
tone curve, palette. -/
structure StageCopy where
  regs : List Word
  emis : SMap Word
  tone : SMap Word
  palette : SMap Word
  deriving DecidableEq, Repr

/-- What a frame takes as its first line enters stages 3 to 7, or as its restrike starts (R135, R154,
R157): stage state, the head's curves and relay trim, its defect entries. -/
structure Snap where
  stage : StageCopy
  curves : SMap Byte
  par : List Word
  resAct : Bool
  rg : Word
  ro : Word
  defs : List Word
  deriving DecidableEq, Repr

/-- A merge run (R168 to R170). -/
structure MergeRun where
  /-- frames opened before the START have lower ids than this: they belong to no frame position of the run (R168) -/
  since : Nat
  /-- SET_LADDER has been sent: the run is in progress -/
  begun : Bool
  n : Nat
  total : Nat
  times : List Nat
  minPts : Nat
  /-- device time (62.5 ps) of the K29.7 of its SET_LADDER -/
  after : Option Nat
  f0 : Option Word
  /-- the last frame has opened -/
  closing : Bool
  /-- pairs of frames (positions a, b) decided and not yet accumulated -/
  pairs : List (Nat × Nat)
  sums : List Rat
  counts : List Nat
  deriving DecidableEq, Repr

/-- How a frame stands (R119 to R121). -/
inductive FState where
  | open_ | waiting | closed | queued | restriking | sealed | lapsed
  deriving DecidableEq, Repr

/-- A corrected pixel as it leaves stage 7: RAD24 value, flag plane (R134), half-width w of the scruple
band and sensitivity s (R125). -/
structure Pix where
  v : Nat
  flags : BitVec 4
  w : Nat
  s : Nat
  deriving DecidableEq, Repr

/-- A frame of a head (R83, R115, R119, R396). -/
structure Frame where
  num : Word
  /-- frame order (R396) -/
  id : Nat
  band : Bool
  lines : List RawLine
  /-- lines that have left stage 8 -/
  emitted : Nat
  st : FState
  long : Bool
  short : Bool
  noTrailer : Bool
  fault : Bool
  /-- trailer: LINES, T_FPA, T_SHUT, SHUTTER, BIAS, HSTAT -/
  trailer : Option (Nat × Nat × Nat × Nat × Nat × Word)
  /-- newest reading before its first line (R118) and its own -/
  before : Option Reading
  own : Option Reading
  /-- the reading that completes M, and the reference time of the decision (R119) -/
  meas : Option Reading
  decideAt : Option Nat
  beta : Nat
  /-- β computed while NREAD < 8 and above 1 K (R126) -/
  cold : Bool
  bank : Bool
  /-- tap selection read for the frame (R265) -/
  taps : Word
  /-- residue mismatches so far (R99) -/
  mism : Nat
  eps : Option Nat
  breach : Bool
  retracts : Nat
  closedAt : BitVec 64
  /-- temporal plane applied (R122, R144), and plane written -/
  planeIn : Option Nat
  planeOut : Option Nat
  /-- degradation step of the frame (R148) -/
  step : Nat
  /-- copy of the stage registers of a departed head's last frame (R90) -/
  regsCopy : Option StageCopy
  /-- what it took with its first line (R135, R157) -/
  snap : Option Snap
  /-- its position in a merge run, if it belongs to one (R168), and q_k of R169 -/
  merge : Option Nat
  mergeQ : Nat
  /-- T0 is copied for the frame (R265, R292); the budget step its taps take (R292) -/
  t0 : Bool
  tapStep : Nat
  /-- its frame store slot, its raw slot has been written by a later frame (R176, R223) -/
  slotLost : Bool
  rawLost : Bool
  /-- it was restruck (R120); it is a calibration candidate (R223) -/
  restruck : Bool
  calCand : Bool
  /-- its calibration read has been made or passed over (R223) -/
  calTaken : Bool
  /-- declared geometry and window origin, binding and pipeline it was taken under -/
  cols : Nat
  rows : Nat
  ox : Nat
  oy : Nat
  bindNo : Nat
  pipe : Nat
  /-- the temporal filter is active for it (R140) -/
  tf : Bool
  /-- how far its first line has entered: 1 stage 3, 2 stage 5, 3 stage 6 -/
  snapLvl : Nat
  /-- its frame items at T1 to T6 have been issued (R269) -/
  items : Bool
  /-- last line number accepted, lines received (R82, R83); a PRESET discards its further lines (R112) -/
  lastY : Option Nat
  rx : Nat
  cut : Bool
  /-- device time of its decision and β after it (R130) -/
  decAt : BitVec 64
  betaAfter : Nat
  deriving DecidableEq, Repr

/-- An open output line of band integration (R177). -/
structure OpenLine where
  j : Int
  words : List Word
  lo : Word
  hi : Word
  /-- strike instant and stamp of its lowest-numbered band (R179) -/
  time : Option (BitVec 68)
  stamp : BitVec 21
  revised : Bool
  supply : Bool
  shuttered : Bool
  step : Nat
  lapsed : Bool
  srcs : List (Nat × Nat)
  deriving DecidableEq, Repr

/-- Band integration settings in force (R183). -/
structure TdiCfg where
  rowPitch : Word
  off : Pos48
  origin : Pos48
  outPitch : Nat
  en : Bool
  deriving DecidableEq, Repr

/-- Band integration of a head (R176 to R183): open lines by index, the last index emitted (none: the next
band starts without gap lines), settings of the last band, bands ready in frame order. -/
structure Tdi where
  lines : List OpenLine := []
  last : Option Int := none
  cfg : Option TdiCfg := none
  ready : List Nat := []
  deriving DecidableEq, Repr

/-- A frame used by a calibration run (R224): m_k, reading, mean T_SHUT, saturation count, SHUTTER. -/
structure CalFrame where
  m : Option Rat
  tg : Nat
  tshut : Nat
  sat : Nat
  shutter : Nat
  deriving DecidableEq, Repr

/-- A head's shutter calibration (R215 to R233); its STATE and results are registers. -/
structure CalSt where
  /-- reference time at which the run became pending -/
  pendAt : Nat := 0
  forced : Bool := false
  /-- end of a retry wait, of a settling time -/
  retryAt : Option Nat := none
  settleAt : Option Nat := none
  /-- reference time of the last accepted run or restore (AGE); one since the characterisation load -/
  ageFrom : Option Nat := none
  accepted : Bool := false
  used : List CalFrame := []
  skipped : Nat := 0
  /-- the shutter has been commanded closed; an open is owed at the next SET_PORT (R229) -/
  closed : Bool := false
  openOwed : Bool := false
  /-- device times (62.5 ps) of the K29.7 of the close, and of the end of step 6 (R222) -/
  shutFrom : Option Nat := none
  shutTo : Option Nat := none
  /-- the gap closed after step 3: step 6 runs beside steps 4 and 5 (R221) -/
  openEarly : Bool := false
  opened : Bool := false
  /-- the outcome decided by R225: accepted with TREF and mean T_SHUT; a bank write is under way -/
  pass : Bool := false
  tref : Nat := 0
  tshut : Nat := 0
  written : Bool := false
  /-- automatic triggers have stopped (R228) -/
  stopped : Bool := false
  /-- FRAME numbers the active member used, not yet collected at the standby (R231) -/
  wanted : List Word := []
  /-- at the standby: CAUSE of an outcome that waits for them (R231) -/
  outcome : Option Nat := none
  /-- at the standby: FRAME at whose end the active member switches banks (R231); FRAME of the last frame used -/
  swAfter : Option Word := none
  lastUsed : Word := 0
  deriving DecidableEq, Repr

/-- A bank digest being computed (R103): the bank, whether a write has landed in it, whether it serves a
restore (R233), and whether both banks are meant. -/
structure DigJob where
  bank : Bool
  dirty : Bool
  restore : Bool
  deriving DecidableEq, Repr

/-- A seal record formed and not yet issued, as an earlier frame of the head is not yet sealed (R132): frame
order, bytes, FRAME. -/
structure OwedSeal where
  id : Nat
  rec_ : List Byte
  num : Word
  deriving DecidableEq, Repr

/-- The data-path state of a head (05, 06). -/
structure HeadSt where
  /-- frames not yet forgotten, oldest first -/
  frames : List Frame := []
  nextId : Nat := 0
  lastNum : Option Word := none
  readings : List Reading := []
  /-- seal errors of the window, newest first (R116) -/
  eps : List Nat := []
  /-- current β; none before any recomputation (R116) -/
  beta : Option Nat := none
  /-- that β was computed while NREAD < 8 (R126) -/
  betaCold : Bool := true
  /-- admitted rate and accumulator bytes while bound (R23) -/
  rate : Nat := 0
  accum : Nat := 0
  dig : Option DigJob := none
  /-- a switch has made a bank active without a valid digest while another digest was computed (R103) -/
  digOwed : Bool := false
  /-- digests of banks A and B, first frame corrected with the active bank, switches (R106) -/
  digA : Word := 0
  digB : Word := 0
  actFrame : Word := 0
  switches : Nat := 0
  /-- committed temporal plane, and the id of the frame that committed it (R122, R144) -/
  plane : Option Nat := none
  planeId : Nat := 0
  /-- a SHUTTER close has been commanded and not yet reopened (R356) -/
  shut : Bool := false
  /-- FRAME of the last sealed frame (R356) -/
  sealFrame : Word := 0
  /-- curves in SRAM (R162): radiance from 0, ratio from 0x4000, residual copies A and B from 0x5000 and
  0x5080; LIN_X0, LIN_XSTEP, RES_X0, RES_XSTEP, RAT_R0, RAT_RSTEP -/
  curves : SMap Byte := []
  par : List Word := []
  resAct : Bool := false
  resPend : Bool := false
  /-- CURVE_LOAD copy running; curves and parameters loaded and waiting for the boundary (R167) -/
  curveBusy : Bool := false
  curveNew : Option (List Byte × List Word) := none
  mg : Option MergeRun := none
  tdi : Tdi := {}
  cal : CalSt := {}
  /-- a switch requested by a restore waits for its boundary (R233) -/
  restoring : Bool := false
  /-- binds so far; the pipeline left at the last unbind (31: none) -/
  bindNo : Nat := 0
  lastPipe : Nat := 31
  /-- degradation steps mirrored by the active member, by FRAME (R297) -/
  mirStep : List (Word × Nat) := []
  /-- trims mirrored by the active member that wait for their frame: FRAME, fine gain and offset (R192) -/
  mirTrims : List (Word × Word × Word) := []
  /-- seal records not yet issued -/
  owed : List OwedSeal := []
  deriving DecidableEq, Repr

/-- A pipeline's hidden state (05, 08). -/
structure Pipe where
  /-- a BIST request granted to start once drained (R107, R109) -/
  bistWait : Bool := false
  /-- reserved as a move target (R107) -/
  reserved : Bool := false
  /-- the spare reserved for a move out of this pipeline (R107) -/
  moveTo : Nat := 31
  /-- FAIL_UNIT of the BIST that retired the pipeline (R310) -/
  retUnit : Nat := 0
  /-- head whose last frame drains here -/
  drainHead : Option Nat := none
  /-- emissivity copies, tone curve and palette (R161, R171), by index -/
  emis : SMap Word := []
  tone : SMap Word := []
  palette : SMap Word := []
  deriving DecidableEq, Repr

/-! ### The seam (09) -/

/-- A head line at the seam unit (R187): its head, chain position, position, pixels, marks and arrival. -/
structure SeamLine where
  head : Nat
  chain : Nat
  pos : Pos48
  time : Option (BitVec 68)
  pix : List Pix
  status : Nat
  stamp : BitVec 21
  srcs : List (Nat × Nat)
  at_ : Nat
  /-- length of its interval in grains (R187) -/
  pitch : Nat
  deriving DecidableEq, Repr

/-- Sums of a seam's pairs (R190): n, Σm, Σd, Σm², Σm·d, with m and its products scaled by 2 and 4. -/
structure SeamSum where
  n : Nat := 0
  m : Int := 0
  d : Int := 0
  mm : Int := 0
  md : Int := 0
  deriving DecidableEq, Repr

/-- The seam unit. -/
structure Seam where
  lines : List SeamLine := []
  /-- next strip line to form -/
  next : Option Int := none
  sums : SMap SeamSum := []
  /-- device time in ns at which the update interval began (R190) -/
  updFrom : Nat := 0
  /-- reference time of the last write of a head's trims (R192) -/
  wrote : SMap (Option Nat) := []
  /-- reference time of the last update of a head's trims, and its fine trims before (R192) -/
  updated : SMap (Option (Nat × Word × Word)) := []
  deriving DecidableEq, Repr

/-! ### Budget and thermal model (14) -/

/-- The budget arbiter and the thermal model (R282 to R296). -/
structure Bud where
  /-- reference time of the last decision with an allowance below 1000 -/
  lowAt : Option Nat := none
  /-- the step the allowance gives, before STEP_MIN (R291) -/
  calcStep : Nat := 0
  /-- a calibration run, a BIST, a merge run has started in this 100 µs period (R293) -/
  calDone : Bool := false
  bistDone : Bool := false
  mergeDone : Bool := false
  /-- node temperatures, 1/256 °C -/
  nodes : List Rat := List.replicate 6 0x5500
  /-- the node that gave the estimate (R283) -/
  hot : Nat := 0
  /-- a budget decision has been made since the reset (R289): until then BUD_HEADROOM reads its reset value -/
  decided : Bool := false
  /-- energy of each domain since the last evaluation, mW·ns, up to the last sample; device times in ns of that
  evaluation and sample -/
  energy : List Nat := List.replicate 8 0
  prev : Nat := 0
  sample : Nat := 0
  /-- end of the evaluation in progress, reference time; reference time of the last -/
  evalAt : Option Nat := none
  lastRef : Nat := 0
  /-- entering and leaving counts of WARN, THROTTLE, SHUT -/
  dwell : List (Nat × Nat) := List.replicate 3 (0, 0)
  /-- ambient in use as it arrived, and its reference time -/
  amb : Option (Int × Nat) := none
  /-- reference time at which the host last wrote THM_AMB (R285) -/
  ambHost : Option Nat := none
  /-- the shutdown sequence has begun (R295), at a reference time; the device is in shutdown (R296) -/
  shutting : Bool := false
  shutAt : Nat := 0
  down : Bool := false
  deriving DecidableEq, Repr

/-! ### The sequencer (12_troek_sequencer.md) -/

/-- What a thread stalls on inside an instruction (R244, R250, R253): an evaluation, a ledger write with the
deadline of its start (none once started), a ledger-window hold of an instruction with its deadline. -/
inductive Stall where
  | temp (rd : GReg)
  | lwr (rd : GReg) (deadline : Option Nat)
  | hold (i : Instr) (deadline : Nat)
  deriving DecidableEq, Repr

/-- A thread's hidden state (R237): registers g1 to g31 by number, the reference time at which its next
instruction issues, the wait it is in, its stall, and whether it halts when its instruction completes. -/
structure SeqThr where
  g : SMap (BitVec 64) := []
  ready : Nat := 0
  wait : Option Instr := none
  stall : Option Stall := none
  /-- an STC, ARM or CANA in progress, as it was fetched: it acts in its last cycle (R239, R244) -/
  late : Option Instr := none
  halting : Bool := false
  /-- one more instruction executes, and the thread then halts (R238) -/
  stepping : Bool := false
  deriving DecidableEq, Repr

/-- The sequencer: threads, instruction memory by index, data memory by address (R239, R240). -/
structure Seq where
  thr : SMap SeqThr := []
  imem : SMap Word := []
  dmem : SMap Byte := []
  /-- instruction words written in the current cycle, as they stood before it (R239) -/
  imemOld : SMap (Option Word) := []
  /-- data bytes written in the current cycle, as they stood before it, and the place in the order of R240 of the access
  whose value prevails -/
  dmemOld : SMap (Option (Byte × Nat)) := []
  deriving DecidableEq, Repr

/-! ### The service port (16_service_port.md) -/

/-- A target transaction (R321): its header as read, increment and next offset; a refused header; the word that SDO
shifts next, none while its access is held; that word was due before the access completed (R322). -/
structure Tgt where
  hdr : Option (Bool × Bool × Nat) := none
  bad : Bool := false
  next : Option Word := none
  late : Bool := false
  deriving DecidableEq, Repr

/-- Where a controller transfer stands (R327). -/
inductive XferSt where
  | waiting | driving | backoff
  deriving DecidableEq, Repr

/-- A controller transfer (R326, R329): a poll or a GO transfer, its form and words as it was asked for, and its collisions
so far. -/
structure Xfer where
  poll : Bool
  st : XferSt
  collisions : Nat
  sel : Nat
  mode : Nat
  wlen : Nat
  div : Nat
  words : List Word
  deriving DecidableEq, Repr

/-- The service port. -/
structure Svc where
  /-- SSEL0 asserted -/
  sel : Bool := false
  mode3 : Bool := false
  tgt : Option Tgt := none
  xfer : Option Xfer := none
  /-- a GO transfer, a poll waits for the other (R328) -/
  goWaits : Option Xfer := none
  pollWaits : Option Xfer := none
  /-- reference time since which the bus has been idle -/
  idleFrom : Nat := 0
  /-- end of the target's inactivity after a warm reset (R325) -/
  quietTo : Nat := 0
  /-- reference time at which the poll interval began -/
  pollFrom : Nat := 0
  deriving DecidableEq, Repr

/-! ### The pair unit (17_pair_operation.md) -/

/-- The pair unit's hidden state. -/
structure PairSt where
  /-- reference time at which EN was set or loaded, while no role has been decided (R334) -/
  enAt : Option Nat := none
  /-- reference times of the last valid frame, of the last heartbeat sent -/
  lastRx : Nat := 0
  lastHb : Nat := 0
  partner : Option PartnerId := none
  /-- the partner's last heartbeat: its role, its send time and our arrival in ns (R336) -/
  peerRole : Nat := 0
  /-- its JOIN; and the join that it last took part in is over here, until it reports JOIN 0 (R345, R353) -/
  peerJoin : Nat := 0
  joinOver : Bool := false
  /-- the Class B step of the partner's last heartbeat (R297) -/
  peerStep : Nat := 0
  peerSent : Option (Nat × Nat) := none
  /-- θ and the route filter (R337) -/
  theta : Int := 0
  route : Route := {}
  /-- reference time of the last phase step -/
  phaseAt : Nat := 0
  /-- T_h of a handover in progress, in ns of device time (R343) -/
  handAt : Option Nat := none
  /-- own digests and line CRCs, and the partner's digests, newest first (R341, R342) -/
  own : List DigestFrame := []
  ownCrcs : List LineCrcFrame := []
  theirs : List DigestFrame := []
  /-- running digests of the strip window and the verdict window, with the CRC of each line -/
  stripCrc : BitVec 64 := 0
  stripCrcs : List (BitVec 16 × Word) := []
  vrdCrc : BitVec 64 := 0
  vrdCrcs : List (BitVec 16 × Word) := []
  /-- the bulk transfer of a join is still to send, has been received (R345) -/
  bulkOwed : Bool := false
  /-- parts of it that have left -/
  bulkAt : Nat := 0
  bulkDone : Bool := false
  /-- bound heads that have begun a frame with the copied bank -/
  joinSeen : List Nat := []
  /-- threads running at the active member (R344) -/
  running : List Nat := []
  /-- reference time of the warm reset of a member that was active, until its role is settled (R353) -/
  recover : Option Nat := none
  deriving DecidableEq, Repr

/-! ### Verdicts (06, 10) -/

/-- A zone rule as it stood when its comparisons were formed (R196): type, N, threshold, ACT_EN, TMPL, and the
zone's columns. -/
structure RuleSet where
  type_ : Nat
  n : Nat
  thr : Nat
  actEn : Bool
  tmpl : Nat
  lo : Nat
  hi : Nat
  deriving DecidableEq, Repr

/-- What a rule decides a verdict on (R199, R200): column, value, margin, met comparisons. -/
structure Decide where
  col : Nat
  value : Nat
  margin : Int
  met : Nat
  deriving DecidableEq, Repr

/-- A line as the verdict engine sees it (R195): its head (0x1F strip), the frames it draws on as head
and frame order, frame and line number, position, instant, and marks. -/
structure VLine where
  head : Nat
  srcs : List (Nat × Nat)
  frame : Word
  line : BitVec 16
  pos : Option Pos48
  time : Option (BitVec 68)
  src : Nat
  supply : Bool
  degraded : Bool
  deriving DecidableEq, Repr

/-- A comparison (R197): its strip column (the lower one of a gradient), value and margin, its scruple width w and
the sensitivities of its pixels. -/
structure Cmp where
  col : Nat
  value : Nat
  margin : Int
  w : Nat
  s : List Nat
  deriving DecidableEq, Repr

/-- An entry of the pending store (R127, R199): what it gives if the line is sealed as emitted, and the
comparisons decided early, which stand in a restrike without a breach (R129). `pending` false marks a rule that
gave nothing and holds no place, kept for the re-check of a breach. -/
structure Pend where
  ln : VLine
  zone : Nat
  rule : Nat
  rs : RuleSet
  pending : Bool
  ifSealed : Option Decide
  stand : List Cmp
  deriving DecidableEq, Repr

/-- An early verdict on an undecided frame (R128): the margins and sensitivities of its counted pixels,
and its action. -/
structure Early where
  ln : VLine
  zone : Nat
  rule : Nat
  rs : RuleSet
  vseq : Word
  margin : Int
  /-- margin and sensitivities of each comparison that counts -/
  pix : List (Int × List Nat)
  act : Option Nat
  /-- what became of the action: executed at a device time in ns, or 0 where it was discarded or cancelled -/
  fate : Option Nat := none
  deriving DecidableEq, Repr

/-- A line waiting to enter the verdict engine (R199): pixels by strip column. -/
structure VJob where
  ln : VLine
  /-- strip column of the first pixel -/
  x0 : Nat
  pix : List Pix
  /-- every comparison pending for reasons of R126; resolved as lapsed (R179) -/
  hold : Bool
  lapsed : Bool
  sealed : Bool
  shuttered : Bool
  deriving DecidableEq, Repr

/-- The verdict engine's hidden state. -/
structure Vrd where
  pend : List Pend := []
  early : List Early := []
  jobs : List VJob := []
  deriving DecidableEq, Repr

/-! ### What the block emits -/

/-- A frame on the pair link (R333). -/
inductive PFrame where
  | heartbeat (f : HbFrame)
  | write (w : PairWrite)
  | arm (f : ArmFrame)
  | cancel (i : Nat)
  | exec (i : Nat)
  | digest (f : DigestFrame)
  | linecrc (f : LineCrcFrame)
  | handover (bounds : List (BitVec 16)) (th : BitVec 64)
  | fault
  | bulk (x : BulkItem)
  deriving DecidableEq, Repr

/-- The header of a frame on the pair link (R333). -/
structure PairHdr where
  type : Byte
  replayed : Bool := false
  nak : Bool
  len : BitVec 16
  seq : BitVec 16
  ack : BitVec 16
  /-- device time at which the frame's first bit was sent -/
  sent : BitVec 64
  deriving DecidableEq, Repr

/-- A frame that has been sent and is not acknowledged: its SEQ, its body, times replayed (R333). -/
structure SentFrame where
  seq : BitVec 16
  frame : PFrame
  body : List Byte
  times : Nat := 0
  deriving DecidableEq, Repr

/-- The pair link's frame numbers and replay buffer (R333). -/
structure PairLink where
  /-- NAK is set in the next frame -/
  nak : Bool := false
  /-- SEQ of the last frame sent, and of the last received in order -/
  last : BitVec 16 := 0
  heard : BitVec 16 := 0
  /-- the replay buffer, newest first -/
  waiting : List SentFrame := []
  /-- frames sent so far (the model's own) -/
  count : Nat := 0
  deriving DecidableEq, Repr

/-- What is kept beside the units: the pair link's frames, and what the journal alone records. -/
structure Trail where
  link : PairLink := {}
  /-- device time of the last change of a head's journal record, by head (R356) -/
  chg : SMap (BitVec 64) := []
  /-- by head, whether a frame has opened and whether one has been restruck since the journal was cleared (R354) -/
  seen : SMap (Bool × Bool) := []
  /-- RELEASE has rebuilt every field of the journal since then (R354) -/
  rebuilt : Bool := false
  /-- device time and FLT_SUM of the last freeze (R355) -/
  frozeAt : BitVec 64 := 0
  frozeSum : Word := 0
  deriving DecidableEq, Repr

/-- What leaves the block on its balls and links, in order of emission. -/
inductive Out where
  /-- TIME_OUT goes to the level, or to high impedance (R363), at a device time in ns (R45) -/
  | timeOut (level : Option Bool) (t : Nat)
  /-- a PTM Request (R46) -/
  | ptmRequest
  /-- the strike symbol and stamp on a command lane, as its characters, first bit at the reference time (R62, R70) -/
  | strike (h : Hd) (stamp : BitVec 21) (chars : List LaneChar) (t : Nat)
  /-- from the reference time on a command lane carries this idle set between sequences (R70, R81); none: no idle sets -/
  | idle (h : Nat) (chars : Option (List LaneChar)) (t : Nat)
  /-- a posted write to host memory -/
  | hostWrite (addr : Nat) (bytes : List Byte)
  /-- a head command on a command lane, as its characters, its K27.7 at the reference time (R70) -/
  | command (h : Nat) (opc tag : Byte) (payload : List Byte) (chars : List LaneChar) (t : Nat)
  /-- an echo request on a command lane: K28.3 (R80) -/
  | echo (h : Nat) (char : LaneChar) (t : Nat)
  /-- an event output ball: driven to a level, or high impedance, at a device time in 62.5 ps (R209) -/
  | eo (k : Nat) (drive : Option Bool) (t : Nat)
  /-- a frame on the pair link, and its 16-byte groups, of which group k leaves on lane k mod 4 (R333) -/
  | pairFrame (h : PairHdr) (f : PFrame) (groups : List (List Byte))
  /-- an MSI-X message of a vector (R278) -/
  | msix (v : Nat) (addr : BitVec 64) (data : Word)
  /-- a descriptor read of a stream's ring (R271) -/
  | hostRead (addr : Nat) (len : Nat)
  /-- Configuration Request Retry Status (R366) -/
  | configRetry
  /-- the data of a register read by a requester -/
  | data (r : Requester) (off : Nat) (w : Word)
  /-- the completion of a BAR2 read from an HBM address, poisoned or not (R264) -/
  | bar2 (addr : Nat) (bytes : List Byte) (poisoned : Bool)
  /-- the service port drives SDO, and SCK, or leaves it in high impedance, from the reference time on (R320, R325, R363) -/
  | svcBalls (sdo sck : Bool) (t : Nat)
  /-- a word that the service port shifts out on SDO as a target (R321) -/
  | sdo (w : Word)
  /-- a controller transfer on a select: mode, bits per word, divider, words (R326) -/
  | spi (sel mode wlen div : Nat) (words : List Word)
  deriving DecidableEq, Repr

/-! ### The block -/

/-- The values that a move or an unbind copies (R90, R108): those of the start of the boundary cycle. -/
structure CycleStart where
  regs : SMap Word := []
  pipes : SMap Pipe := []
  deriving DecidableEq, Repr

/-- Everything the manual gives the block, apart from the queue of waiting commands. -/
structure Block where
  /-- the register file, by BAR0 offset; an unlisted register holds its reset value -/
  regs : SMap Word := []
  /-- by register, the status bits set and the counter increments made in the current register cycle (R14, R376); at
offset + 1 the bits set while they were 1; at offset + 3 the place of the writer that prevails (R377) -/
  cyc : SMap Word := []
  /-- reference time of the last tick, in units of 62.5 ps -/
  now : Nat := 0
  /-- start-up progress (R366): 0 held in reset, 1 released, 2 clocks run, 3 ledger selected, 4 SRAM zeroed,
  5 past 20 ms, 6 HBM zeroed -/
  stage_ : Nat := 0
  tim : Tim := {}
  pos : SMap PosCh := []
  stk : SMap StkGrp := []
  /-- scheduled strikes of each head port -/
  sched : SMap (List Sched) := []
  /-- strikes issued since power-up began (R64, R310) -/
  strikes : Nat := 0
  /-- strike boundaries of the last handover, by group, none once passed (R343); this device gave the active role away -/
  bounds : Option (List (Option (BitVec 16))) := none
  giver : Bool := false
  /-- an active-member fault has released the command lanes and output balls (R344, R350) -/
  released : Bool := false
  act : Act := {}
  /-- staged words of the action queue (R203, R248), by 8 x entry + writer: 0 the host and service port, 1 to 4
  the threads -/
  stage : SMap ActStage := []
  ports : SMap HdPort := []
  heads : SMap HeadSt := []
  pipes : SMap Pipe := []
  /-- HBM (R19); an unlisted byte reads 0 (R366) -/
  hbm : SMap Byte := []
  vrd : Vrd := {}
  seam : Seam := {}
  bud : Bud := {}
  /-- the defect table: its valid entries in ascending order (R149, R150) -/
  defTab : List Word := []
  /-- queued edits as command (0 INSERT, 1 DELETE, 2 CLEAR_HEAD), key, and whether it waits for a frame
  boundary of its head; and the edit in progress, with whether it had been queued (R154) -/
  defQueue : List (Nat × Word × Bool) := []
  defEdit : Option (Nat × Word × Bool) := none
  /-- the last line copied to tap t of head h, by 8 h + t: FRAME, LINE, REVISED and PROVISIONAL (R356) -/
  taps : SMap (Word × BitVec 16 × Nat) := []
  /-- the journal as it stood when it froze (R354) -/
  frozen : Option (SMap Byte) := none
  /-- LAST of the journal header (R355) -/
  jlast : Byte := 0
  ldg : Ldg := {}
  host : HostIf := {}
  seq : Seq := {}
  svc : Svc := {}
  pair : PairSt := {}
  /-- HI and fraction words snapshot by a requester (R378), by 2^22 x requester + offset -/
  shadow : SMap (Option Word) := []
  /-- PERST# is asserted; its first deassertion after a cold reset has come (R365) -/
  perst : Bool := true
  perstSeen : Bool := false
  /-- reference time up to which a rail has last been below its warning level (R352) -/
  lowTo : Option Nat := none
  /-- configuration requests are accepted (R366); BAR2 requests held until HBM is zeroed -/
  cfgReady : Bool := false
  held : List (Nat × Option (List (Option Byte)) × Nat) := []
  /-- words that an error has made uncorrectable and that have not been written since (R349) -/
  bad : List Upset := []
  /-- draws of free values so far (the model's own) -/
  free : Nat := 0
  trail : Trail := {}
  /-- the registers and pipelines as the current register cycle began (R90, R108) -/
  start : CycleStart := {}
  /-- what the block has emitted, newest first (the model's own) -/
  out : List Out := []
  deriving DecidableEq, Repr

/-- Why a step faults. -/
inductive Fault where
  /-- raised by no command of this model: every access the manual describes has an outcome (safe) -/
  | unreached
  deriving DecidableEq, Repr

/-- Why a command is refused. -/
inductive Refusal where
  /-- raised by a dispatch arm whose command has no meaning yet (safe) -/
  | notModelled (mnemonic : String)
  deriving DecidableEq, Repr

/-- The machine: the block, the commands waiting, first in first out, and the block as the last register cycle left it, of
which reads in the current one show the registers (R375). -/
structure State where
  blk : Block
  pending : List Instr
  prev : Block
  deriving DecidableEq, Repr

/-- The machine as the cold reset of a power-on is released (R364, R371): every register at its reset value,
SUP_CAUSE at the cause it records, every memory empty, nothing waiting. -/
def State.reset : State :=
  { blk := { regs := [(Reg.SUP_CAUSE, 1)], stage_ := 1 }, pending := [], prev := { regs := [(Reg.SUP_CAUSE, 1)], stage_ := 1 } }

end Sys2Proof.Machine
end

