-- ==== Sys2Proof/Machine/Ops.lean ====
section
/-! DEFINITION. The named operations over registers and time that every unit uses. -/

namespace Sys2Proof.Machine

/-! ### Registers (R10, R14) -/

/-- The word a register holds. -/
def Block.rd (b : Block) (off : Nat) : Word := b.regs.get resetOf off

/-- Set the word a register holds. -/
def Block.wr (b : Block) (off : Nat) (v : Word) : Block := { b with regs := b.regs.set resetOf off v }

/-- Field [hi:lo] of a register. -/
def Block.fld (b : Block) (off hi lo : Nat) : Nat := fieldOf (b.rd off) hi lo

/-- Bit `i` of a register. -/
def Block.bit (b : Block) (off i : Nat) : Bool := bitOf (b.rd off) i

/-- Replace field [hi:lo] of a register. -/
def Block.setFld (b : Block) (off hi lo v : Nat) : Block := b.wr off (setFieldOf (b.rd off) hi lo v)

/-- The hardware updates of a register in the current cycle. -/
def Block.upd (b : Block) (off : Nat) : Word := b.cyc.get (fun _ => 0) off

/-- Note a hardware update of a register in the current cycle. -/
def Block.setUpd (b : Block) (off : Nat) (w : Word) : Block := { b with cyc := b.cyc.set (fun _ => 0) off w }

/-- Note that bit `i` of a register is set while it already is 1, for the first time in the cycle (kept at the odd offset
beside the register). -/
def Block.noteAgain (b : Block) (off i : Nat) : Block :=
  if b.bit off i && !bitOf (b.upd off) i then b.setUpd (off + 1) (setFieldOf (b.upd (off + 1)) i i 1) else b

/-- The place of a requester's accesses in a cycle: the host, threads 0 to 3, the service port (R240, R322, R377). -/
def orderOf : Requester → Nat
  | .host => 0
  | .thread t => 1 + t.val
  | .svc => 5

/-- The place of the action queue's writes in a cycle: after those of every requester (R60, R377). -/
abbrev queuePlace : Nat := 6

/-- The place of the writer whose write of a register prevails in the current cycle, and 1 more; 0 where none has been
made. -/
def Block.writer (b : Block) (off : Nat) : Nat := (b.upd (off + 3)).toNat

/-- Note a write of a register by the writer of place `k` in the current cycle (R376, R377). -/
def Block.noteWrite (b : Block) (k off : Nat) : Block := b.setUpd (off + 3) (BitVec.ofNat 32 (max (b.writer off) (k + 1)))

/-- The register has been written in the current cycle: the write prevails over a hardware update of its fields (R376). -/
def Block.wroteNow (b : Block) (off : Nat) : Bool := b.writer off != 0

/-- Set bit `i` of a register to 1. -/
def Block.setBit (b : Block) (off i : Nat) : Block :=
  let c := b.noteAgain off i
  (c.setUpd off (setFieldOf (c.upd off) i i 1)).setFld off i i 1

/-- Set wake bits of a thread (R247): an update of its cycle, like every status bit that the hardware sets (R376). -/
def wake (t : Nat) (bits : Nat) (b : Block) : Block :=
  let off := Reg.SEQ_T_WAKE t
  let w : Word := BitVec.ofNat 32 (bits % 256)
  (b.setUpd off (b.upd off ||| w)).wr off (b.rd off ||| w)

/-- Set bit `i` of a register to 0. -/
def Block.clrBit (b : Block) (off i : Nat) : Block := b.setFld off i i 0

/-- Set bit `i` of a register to `v`. -/
def Block.putBit (b : Block) (off i : Nat) (v : Bool) : Block := b.setFld off i i (b2n v)

/-- Advance the counter field [hi:lo] by `n`, saturating at all ones (R14). -/
def Block.inc (b : Block) (off hi lo n : Nat) : Block :=
  (b.setUpd off (setFieldOf (b.upd off) hi lo (satAdd (hi + 1 - lo) (fieldOf (b.upd off) hi lo) n))).setFld off hi lo
    (satAdd (hi + 1 - lo) (b.fld off hi lo) n)

/-- A register as a number. -/
def Block.num (b : Block) (off : Nat) : Nat := (b.rd off).toNat

/-- A register as a two's complement number. -/
def Block.snum (b : Block) (off : Nat) : Int := (b.rd off).toInt

/-- Set a register to a number, modulo 2^32. -/
def Block.wrN (b : Block) (off v : Nat) : Block := b.wr off (BitVec.ofNat 32 v)

/-- Set a register to a two's complement number, saturated (R7). -/
def Block.wrS (b : Block) (off : Nat) (v : Int) : Block := b.wr off (BitVec.ofInt 32 (satS 32 v))

/-- The 64-bit value of a LO and HI register pair. -/
def Block.rd64 (b : Block) (lo : Nat) : BitVec 64 := u64 (b.rd lo) (b.rd (lo + 4))

/-- Write a 64-bit value to a LO and HI register pair. -/
def Block.wr64 (b : Block) (lo : Nat) (v : BitVec 64) : Block :=
  (b.wr lo (v.setWidth 32)).wr (lo + 4) ((v >>> 32).setWidth 32)

/-- A read-write 48-bit position. -/
def Block.rdPos (b : Block) (lo : Nat) : Pos48 := posOf (b.rd lo) (b.rd (lo + 4))

/-- Write a read-only 48-bit value, its HI word sign-extended (R378). -/
def Block.wrPos (b : Block) (lo : Nat) (p : Pos48) : Block := (b.wr lo (posLo p)).wr (lo + 4) (posHi p)

/-- The ordinary effect of a write (R10, R11, R14): RW bits take the value; W1C bits and counter fields in which a 1 is
written clear, and then take the updates `upd` of the cycle (R376); all others keep. -/
def applyWrite (r : RegRow) (old upd val : Word) : Word :=
  let w := (old &&& ~~~ r.rw) ||| (val &&& r.rw)
  let w := (w &&& ~~~ (val &&& r.w1c)) ||| (upd &&& val &&& r.w1c)
  r.cnts.foldl (fun w c => if fieldOf val c.1 c.2 = 0 then w else setFieldOf w c.1 c.2 (fieldOf upd c.1 c.2)) w

/-- Write a register under its access codes; an unassigned offset discards the write (R12). -/
def Block.genWrite (b : Block) (off : Nat) (val : Word) : Block :=
  match regRow off with
  | some r => b.wr off (applyWrite r (b.rd off) (b.upd off) val)
  | none => b

/-! ### Time (R41, R395) -/

/-- The device time at the last tick: ns and fraction as one number of 2^-32 ns. -/
def Tim.count (t : Tim) : Nat := t.ns.toNat * 2 ^ 32 + t.fr.toNat

/-- The instant `sub` units of 62.5 ps after the last tick (R395). -/
def Block.instAt (b : Block) (sub : Nat) : Inst :=
  { ref := b.now + sub, dev := b.tim.count * 32 + b.tim.inc.toNat * sub }

/-- The instant at a reference time that lies in the past, or inside the current tick: by the counter and increment of the
tick it falls in (R395). -/
def Block.instOf (b : Block) (ref : Nat) : Inst :=
  let now : Nat × Nat × BitVec 40 := (b.now, b.tim.count * 32, b.tim.inc)
  let law := b.tim.breaks.foldl (fun l x => if ref < x.upTo then (x.upTo, x.dev, x.inc) else l) now
  { ref := ref, dev := ((law.2.1 : Int) + law.2.2.toNat * ((ref : Int) - law.1)).toNat }

/-- The instant of the last tick. -/
def Block.inst (b : Block) : Inst := b.instAt 0

/-- Device time in ns at the last tick (R9). -/
def Block.ns (b : Block) : Nat := b.tim.ns.toNat

/-- Device time of an instant narrowed to 62.5 ps (R395, R7). -/
def Inst.t16 (i : Inst) : Nat := (roundDiv i.dev (2 ^ 33)).toNat

/-- Device time of an instant narrowed to 1 ns (R395, R7). -/
def Inst.t1 (i : Inst) : Nat := (roundDiv i.dev (2 ^ 37)).toNat

/-- Reference-clock units of 62.5 ps in a nanosecond, microsecond, millisecond. -/
abbrev tuNs : Nat := 16
abbrev tuUs : Nat := 16000
abbrev tuMs : Nat := 16000000

/-! ### Uncorrectable words (R349) -/

/-- A word stands uncorrectable. -/
def Block.isBad (b : Block) (u : Upset) : Bool := b.bad.contains u

/-- One of the `n` bytes of HBM from address `a` is uncorrectable. -/
def Block.hbmBad (b : Block) (a n : Nat) : Bool :=
  b.bad.any fun u => match u with
    | .hbm x => decide (a ≤ x.toNat) && decide (x.toNat < a + n)
    | _ => false

/-- One of the `n` bytes of data memory from address `a` is uncorrectable. -/
def Block.dmemSpoilt (b : Block) (a n : Nat) : Bool :=
  b.bad.any fun u => match u with
    | .dmem x => decide (a ≤ x.toNat) && decide (x.toNat < a + n)
    | _ => false

/-- Words are written again. -/
def mend (p : Upset → Bool) (b : Block) : Block := { b with bad := b.bad.filter fun u => !p u }

/-- `n` bytes of HBM from address `a` are written again. -/
def mendHbm (a n : Nat) (b : Block) : Block :=
  mend (fun u => match u with
    | .hbm x => decide (a ≤ x.toNat) && decide (x.toNat < a + n)
    | _ => false) b

/-- `n` bytes of data memory from address `a` are written again. -/
def mendDmem (a n : Nat) (b : Block) : Block :=
  mend (fun u => match u with
    | .dmem x => decide (a ≤ x.toNat) && decide (x.toNat < a + n)
    | _ => false) b

/-- Words `a` to `a + n - 1` of instruction memory are written again. -/
def mendImem (a n : Nat) (b : Block) : Block :=
  mend (fun u => match u with
    | .imem x => decide (a ≤ x.toNat) && decide (x.toNat < a + n)
    | _ => false) b

/-! ### Emissions and free values -/

/-- Record an emission. -/
def Block.emit (b : Block) (o : Out) : Block := { b with out := o :: b.out }

/-- Draw a free value. -/
def Block.draw (b : Block) : BitVec 64 × Block := (Config.freeValue b.free, { b with free := b.free + 1 })

end Sys2Proof.Machine
end

