-- ==== Sys2Proof/Machine/Position.lean ====
section
/-! DEFINITION. The position channels (02_position_and_time.md, R28 to R40): position and interpolation,
counting, index, slip. -/

namespace Sys2Proof.Machine

/-- A channel's hidden state. -/
def Block.ch (b : Block) (n : Nat) : PosCh := b.pos.get (fun _ => {}) n

/-- Replace a channel's hidden state. -/
def Block.setCh (b : Block) (n : Nat) (c : PosCh) : Block :=
  { b with pos := b.pos.set (fun _ => {}) n c }

/-- POS_FILT.FILT_NS in effect (R29). -/
def Block.filtNs (b : Block) (n : Nat) : Nat := max 2 (min 1000 (b.fld (Reg.POS_FILT n) 9 0))

/-- POS_STALL.STALL_US in effect (R32), in reference units. -/
def Block.stallTu (b : Block) (n : Nat) : Nat := max 100 (b.fld (Reg.POS_STALL n) 19 0) * tuUs

/-- POS_CTL.EN. -/
def Block.posEn (b : Block) (n : Nat) : Bool := b.bit (Reg.POS_CTL n) 0

/-- The time of the run's 16 intervals, if it has them (R33). -/
def PosCh.span (c : PosCh) : Nat :=
  match c.run[0]?, c.run[16]? with
  | some a, some z => a - z
  | _, _ => 0

/-- POS_STAT.INTERP_VALID (R33). -/
def PosCh.valid (c : PosCh) : Bool := !c.standstill && decide (0 < c.span)

/-- The running fraction at reference time `t` (R33): velocity times the time since the last counted
transition, at most 255 grains, in the direction of motion. -/
def PosCh.frac (c : PosCh) (t : Nat) : Int :=
  match c.frozen, c.last with
  | some f, _ => f
  | none, none => 0
  | none, some l =>
    if c.valid then
      let f := min 255 (roundDiv (4096 * (t - l.ref : Nat)) c.span)
      if c.fwd then f else -f
    else 0

/-- The position at reference time `t` (R33, R34). -/
def PosCh.at_ (c : PosCh) (t : Nat) : Pos48 := c.base + toPos (c.frac t)

/-- The high-water mark at reference time `t`: it follows a position that exceeds it (R37). -/
def PosCh.hwmAt (c : PosCh) (t : Nat) : Pos48 :=
  if 0 < posDiff (c.at_ t) c.hwm then c.at_ t else c.hwm

/-- POS_STAT.BEHIND at reference time `t` (R37). -/
def PosCh.behind (c : PosCh) (t : Nat) : Bool := decide (posDiff (c.at_ t) (c.hwmAt t) < 0)

/-- Bring the stored high-water mark up to reference time `t`. -/
def PosCh.touch (c : PosCh) (t : Nat) : PosCh := { c with hwm := c.hwmAt t }

/-- The velocity in counts per reference unit, as 16 / span, signed (R33); POS_VEL as signed Q15.16
counts per microsecond. -/
def PosCh.vel (c : PosCh) : Int :=
  if c.valid then
    let v := satS 32 (roundDiv (16 * tuUs * 65536 : Nat) c.span)
    if c.fwd then v else -v
  else 0

/-- The position of source `n` now. -/
def Block.posNow (b : Block) (n : Nat) : Pos48 := (b.ch n).at_ b.now

/-- The high-water mark of source `n` now. -/
def Block.hwmNow (b : Block) (n : Nat) : Pos48 := (b.ch n).hwmAt b.now

/-- The source reads STANDSTILL = 1 (R32). -/
def Block.still (b : Block) (n : Nat) : Bool := (b.ch n).standstill || !b.posEn n

/-- Motion accumulated by a channel, its running fraction included (R39). -/
def PosCh.motion (c : PosCh) (t : Nat) : Int := c.slip + c.carried + c.frac t

/-- The slip check of channel `n` (R39), made at reference time `t`. -/
def slipCheck (n t : Nat) (b : Block) : Block :=
  let p := b.fld (Reg.POS_CTL n) 7 5
  if b.bit (Reg.POS_CTL n) 8 && p != n then
    let mn := roundDiv ((b.ch n).motion t * b.num (Reg.POS_RATIO n)) (2 ^ 24)
    let mp := roundDiv ((b.ch p).motion t * b.num (Reg.POS_RATIO p)) (2 ^ 24)
    if (b.fld (Reg.POS_SLIP_LIM n) 23 0 : Int) < (mn - mp).natAbs then b.setBit (Reg.POS_STAT n) 6 else b
  else b

/-- The slip checks that a counted transition of channel `n` calls for: its own pair and every pair it
is the partner of (R39). -/
def slipChecks (n t : Nat) (b : Block) : Block :=
  forEach (List.range 8) (fun m b =>
    if m = n || b.fld (Reg.POS_CTL m) 7 5 = n then slipCheck m t b else b) b

/-- Set a slip pair's accumulated motion to 0 (R39). -/
def slipClear (n : Nat) (b : Block) : Block :=
  let z (m : Nat) (b : Block) : Block :=
    let c := b.ch m
    b.setCh m { c with slip := -(c.carried + c.frac b.now) }
  z (b.fld (Reg.POS_CTL n) 7 5) (z n b)

/-- Whether a change of A (or B) is a forward transition: A leads B, unless DIR_INV (R30). -/
def quadForward (onA level other inv : Bool) : Bool :=
  xor inv (if onA then level != other else level == other)

/-- Count one transition with its threshold crossing (R30, R31, R33, R37). -/
def countTransition (n : Nat) (fwd : Bool) (cross : Inst) (b : Block) : Block :=
  let c := (b.ch n).touch cross.ref
  let above := match c.last with
    | some l => decide (cross.ref < l.ref + 40 * tuNs)
    | none => false
  let newRun := c.fresh || above || c.fwd != fwd
  let step : Int := if fwd then 256 else -256
  let c' : PosCh := { c with
    base := c.base + toPos step, frozen := none, last := some cross, fwd := fwd, moved := true,
    standstill := false, fresh := false, slip := c.slip + step, carried := 0,
    run := if newRun then [cross.ref] else (cross.ref :: c.run).take 17 }
  let c' := c'.touch cross.ref
  let v : Eval := { fwd := fwd, cross := cross, base := c'.base, hwm := c'.hwm, valid := c'.valid, span := c'.span }
  let b := b.setCh n { c' with evals := c'.evals ++ [v] }
  if above then (b.inc (Reg.POS_ERR n) 31 16 1).setBit (Reg.POS_STAT n) 5 else b

/-- Standstill (R32): interpolation stops with the fraction it had reached. -/
def toStandstill (n : Nat) (b : Block) : Block :=
  let c := (b.ch n).touch b.now
  b.setCh n { c with frozen := some (c.frac b.now), standstill := true, fresh := true, run := [] }

/-- Put the position and the high-water mark at given values at reference time `t` (R36, R38): the fraction then stays 0
until the next counted transition, and what it had reached stays in the channel's motion (R39). Transitions of the same
evaluation reach nothing by themselves (R35). -/
def PosCh.jumpTo (c : PosCh) (t : Nat) (p h : Pos48) (j : Jump) : PosCh :=
  { c with base := p, hwm := h, frozen := some 0, carried := c.carried + c.frac t, evals := [], jump := some j }

end Sys2Proof.Machine
end

