-- ==== Sys2Proof/Machine/Egress.lean ====
section
/-! DEFINITION. Egress (13_host_interface.md, R265 to R280): interrupts, record rings, streams,
descriptors. -/

namespace Sys2Proof.Machine

/-! ### Permission and interrupts -/

/-- Egress may read and write host memory: Bus Master Enable, D0, EGR_EN, link active (R260, R280). -/
def Block.egressOn (b : Block) : Bool :=
  b.host.bme && !b.host.d3hot && b.bit Reg.HOST_CTL 0 && b.host.dlUp && !b.bud.down

/-- The severity of an AER error. -/
inductive Severity where
  | correctable | nonFatal | fatal
  deriving DecidableEq, Repr

/-- The default severities of the standard (R261; PRESUMED, log entry 156). -/
def aerSeverity : AerError → Severity
  | .receiverError | .badTlp | .badDllp | .replayTimeout | .replayRollover => .correctable
  | .unsupportedRequest | .poisonedTlp | .completionTimeout | .unexpectedCompletion => .nonFatal
  | .dataLinkProtocol | .receiverOverflow | .malformedTlp | .uncorrectableInternal => .fatal

/-- An error is reported through AER (R261). -/
def reportAer (e : AerError) (b : Block) : Block :=
  if b.host.aer.contains e then b else { b with host := { b.host with aer := b.host.aer ++ [e] } }

/-- The posted writes that carry bytes to an address: each of at most `mps` bytes, none across a 4 KB boundary (R276).
`fuel` bounds them. -/
def splitWrite (mps : Nat) : Nat → Nat → List Byte → List (Nat × List Byte)
  | 0, _, _ => []
  | _ + 1, _, [] => []
  | fuel + 1, addr, x :: xs =>
    let n := min mps (4096 - addr % 4096)
    (addr, (x :: xs).take n) :: splitWrite mps fuel (addr + n) ((x :: xs).drop n)

/-- Posted writes to host memory (R276). -/
def hostWrite (addr : Nat) (bytes : List Byte) (b : Block) : Block :=
  let b := forEach (splitWrite (128 * 2 ^ b.host.mps.val) bytes.length addr bytes) (fun x b => b.emit (.hostWrite x.1 x.2)) b
  { b with host := { b.host with loadBytes := b.host.loadBytes + bytes.length } }

/-- Send an MSI-X message, or set its pending bit where it is masked, as the standard provides (R278,
R280). -/
def sendMsix (v : Nat) (b : Block) : Block :=
  if !b.host.msixEn then b
  else if b.host.msixMask || b.bit (Reg.MSIX_TABLE_CTRL v) 0 then b.setFld (Reg.MSIX_PBA (v / 32)) (v % 32) (v % 32) 1
  else if b.host.bme && !b.host.d3hot && b.host.dlUp then
    b.emit (.msix v (b.rd64 (Reg.MSIX_TABLE_ADDR_LO v)) (b.rd (Reg.MSIX_TABLE_DATA v)))
  else b.setFld (Reg.MSIX_PBA (v / 32)) (v % 32) (v % 32) 1

/-- The vector of a stream: values 0 to 2 act as 3 (R278). -/
def Block.strVec (b : Block) (s : Nat) : Nat := max 3 (b.fld (Reg.STR_CTL s) 13 8)

/-- The vector that a source signals (R278): 0 the interrupt summary, 1 and 2 the record rings, 3 + s stream s. -/
def Block.vecOf (b : Block) (src : Nat) : Nat := if src < 3 then src else b.strVec (src - 3)

/-- PERST# holds the HOST block in reset (R365): it is low, and has been since power-up or since the warm reset that it caused;
in shutdown it has no effect (R296). -/
def Block.hostHeld (b : Block) : Bool := b.perst && !(b.bud.shutting && b.perstSeen)

/-- An event of a source under its moderation of `imod` microseconds (R278): at most one message per
interval; events within it make one message at its end; none while the HOST block is held in reset (R365). -/
def signalVec (src imod : Nat) (b : Block) : Block :=
  if b.hostHeld then b else
  let m : Moder := b.host.vecs.get (fun _ => {}) src
  match m.ends with
  | some _ => { b with host := { b.host with vecs := b.host.vecs.set (fun _ => {}) src { m with again := true } } }
  | none =>
    let b := sendMsix (b.vecOf src) b
    if imod = 0 then b
    else { b with host := { b.host with
      vecs := b.host.vecs.set (fun _ => {}) src { ends := some (b.now + imod * tuUs), again := false, imod := imod } } }

/-- The end of a source's moderation interval (R278). -/
def expireVec (src : Nat) (b : Block) : Block :=
  let m : Moder := b.host.vecs.get (fun _ => {}) src
  match m.ends with
  | some t =>
    if b.now < t then b
    else
      let b := { b with host := { b.host with vecs := b.host.vecs.set (fun _ => {}) src {} } }
      if m.again then signalVec src m.imod b else b
  | none => b

/-! ### Gap records (R269) -/

/-- A gap record of 64 bytes. -/
def gapBytes (head tap : Byte) (d : DropRun) : List Byte :=
  [0x24, head, tap, d.cause] ++ leBytes 4 (min d.count 0xFFFFFFFF) ++ leBytes 4 d.frame.toNat
    ++ leBytes 2 d.line.toNat ++ leBytes 2 0 ++ leBytes 8 d.first.toNat ++ leBytes 8 d.last.toNat
    ++ List.replicate 32 0

/-- Extend a run of drops by one item, or begin it. -/
def addDrop (cause : Byte) (frame : Word) (line : BitVec 16) (now : BitVec 64) : Option DropRun → DropRun
  | some d => { d with count := d.count + 1, last := now }
  | none => { cause := cause, count := 1, frame := frame, line := line, first := now, last := now }

/-! ### Record rings (R274) -/

/-- Slots of a record ring. -/
def Block.ringSlots (b : Block) (r : Nat) : Nat := 2 ^ max 6 (min 16 (b.fld (Reg.HOST_RING_CTL r) 20 16))

/-- Records that a ring's staging holds. -/
def ringReserve (r : Nat) : Nat := if r = 0 then 8192 else 2048

/-- Stage a 64-byte record for a ring; beyond the reserve it is dropped and counted (R274). -/
def pushRecord (r : Nat) (bytes : List Byte) (b : Block) : Block :=
  let g : RecRing := b.host.rings.get (fun _ => {}) r
  let set (g : RecRing) (b : Block) : Block :=
    { b with host := { b.host with rings := b.host.rings.set (fun _ => {}) r g } }
  if g.staged.length < ringReserve r then set { g with staged := g.staged ++ [⟨bytes, 0, 0⟩] } b
  else
    let b := (b.inc (Reg.HOST_RING_CNT r) 31 0 1).setBit (Reg.HOST_RING_STAT r) 2
    set { g with drops := some (addDrop 0 0 0 (BitVec.ofNat 64 b.ns) g.drops) } b

/-- The next record a ring delivers, and the ring after it: a run of drops has its gap record before the next record
delivered (R274). -/
def RecRing.next (g : RecRing) : Option (List Byte × RecRing) :=
  match g.staged, g.drops with
  | [], _ => none
  | _ :: _, some d => some (gapBytes 0xFF 0xFF { d with frame := 0, line := 0 }, { g with drops := none })
  | x :: xs, none => some (x.bytes, { g with staged := xs })

/-- A record ring is full (R274): WRIDX + 1 equals RDIDX modulo its size. -/
def Block.ringFull (b : Block) (r : Nat) : Bool :=
  (b.fld (Reg.HOST_RING_WRIDX r) 15 0 + 1) % b.ringSlots r == b.fld (Reg.HOST_RING_RDIDX r) 15 0 % b.ringSlots r

/-- Write staged records while the ring has space: `fuel` bounds the batch. -/
def writeRecords (r : Nat) : Nat → Block → Block
  | 0, b => b
  | fuel + 1, b =>
    let g : RecRing := b.host.rings.get (fun _ => {}) r
    let w := b.fld (Reg.HOST_RING_WRIDX r) 15 0
    match g.next with
    | none => b
    | some (bytes, g) =>
      if b.ringFull r then b
      else
        let b := hostWrite ((b.rd64 (Reg.HOST_RING_BASE_LO r)).toNat + 64 * w) bytes b
        let b := { b with host := { b.host with rings := b.host.rings.set (fun _ => {}) r g } }
        writeRecords r fuel (b.wrN (Reg.HOST_RING_WRIDX r) ((w + 1) % b.ringSlots r))

/-! ### Streams (R265, R271, R275) -/

/-- A stream's hidden state. -/
def Block.str (b : Block) (s : Nat) : StreamSt := b.host.strs.get (fun _ => {}) s

/-- Replace a stream's hidden state. -/
def Block.setStr (b : Block) (s : Nat) (x : StreamSt) : Block :=
  { b with host := { b.host with strs := b.host.strs.set (fun _ => {}) s x } }

/-- `s` names a stream (R265): a head's taps 0 to 4 and 6, and the strip stream 197. -/
def isStream (s : Nat) : Bool := (decide (s < 192) && s % 8 != 5 && s % 8 != 7) || s == 197

/-- Stream `s` has EN = 1. -/
def Block.strEn (b : Block) (s : Nat) : Bool := isStream s && b.bit (Reg.STR_CTL s) 0

/-- Bytes of a list of items. -/
def itemsLen (xs : List Item) : Nat := xs.foldl (fun n x => n + x.bytes.length) 0

/-- Bytes of a stream in staging: items not placed, and placed data not yet issued (R275). -/
def StreamSt.used (x : StreamSt) : Nat :=
  x.descs.foldl (fun n d => n + (itemsLen d.items - d.issued)) (itemsLen x.items)

/-- Shared staging in use (R275). -/
def Block.stagingUsed (b : Block) : Nat := b.host.strs.foldl (fun n e => n + e.2.used) 0

/-- A stream's staging limit in bytes (R275). -/
def Block.strLimit (b : Block) (s : Nat) : Nat := max 1 (b.fld (Reg.STR_RING s) 15 8) * 16384

/-- Descriptors of a stream's ring (R280). -/
def Block.ringSize (b : Block) (s : Nat) : Nat := 2 ^ max 4 (min 12 (b.fld (Reg.STR_RING s) 3 0))

/-- LEN of a descriptor: bits [5:0] act as 0 (R270). -/
def Desc.room (d : Desc) : Nat := d.d.len.toNat / 64 * 64 - itemsLen d.items

/-- Whether CLOSE closes a descriptor after this item (R271). -/
def closesAfter (mode : Nat) (x : Item) : Bool :=
  match mode with
  | 1 => x.bytes.head? == some 0x11
  | 2 => x.bytes.head? == some 0x21
  | 3 => true
  | _ => false

/-- A closed descriptor waits for its launch key, or is ready to be written (R272). -/
def Desc.close (d : Desc) : Desc := { d with st := if d.launched then .writing else .held }

/-- Place items into the oldest open descriptor: the descriptors and the items left. `fuel` bounds the
placements. -/
def placeInto (mode now : Nat) : Nat → List Desc → List Item → List Desc × List Item
  | 0, ds, xs => (ds, xs)
  | _ + 1, [], xs => ([], xs)
  | _ + 1, ds, [] => (ds, [])
  | fuel + 1, d :: ds, x :: xs =>
    match d.st with
    | .fetched | .filling =>
      if x.bytes.length ≤ d.room then
        let d := { d with items := d.items ++ [x], st := .filling, openAt := some (d.openAt.getD now) }
        placeInto mode now fuel ((if closesAfter mode x then d.close else d) :: ds) xs
      else if d.items.isEmpty then
        let (ds, xs) := placeInto mode now fuel ds (x :: xs)
        ({ d with st := .writing, outcome := 3, launched := true } :: ds, xs)
      else
        let (ds, xs) := placeInto mode now fuel ds (x :: xs)
        (d.close :: ds, xs)
    | _ =>
      let (ds, xs) := placeInto mode now fuel ds (x :: xs)
      (d :: ds, xs)

/-- The journal's view of a descriptor (R358). -/
def Desc.view (s : Nat) (d : Desc) : Slot :=
  { stream := s, idx := d.idx, issued := d.issued, items := d.items.length, outcome := d.outcome,
    abandoned := false,
    st := match d.st with
      | .fetched => 1 | .filling => 2 | .held => 3 | .writing => 4 | .completed => 5 }

/-- Set a stream's state and the journal slots of its descriptors. -/
def putStr (s : Nat) (x : StreamSt) (b : Block) : Block :=
  let b := b.setStr s x
  { b with host := { b.host with
    slots := x.descs.foldl (fun m d => m.set (fun _ => {}) d.slot (d.view s)) b.host.slots } }

/-- Place a stream's staged items into its descriptors (R271). -/
def placeItems (s : Nat) (b : Block) : Block :=
  let x := b.str s
  let (ds, xs) := placeInto (b.fld (Reg.STR_CTL s) 5 4) b.now (x.items.length * 2 + x.descs.length + 1) x.descs x.items
  putStr s { x with descs := ds, items := xs } b

/-- The HEAD and TAP bytes of a stream. -/
def strHead (s : Nat) : Byte := if s = 197 then 0x1F else BitVec.ofNat 8 (s / 8)
def strTap (s : Nat) : Byte := BitVec.ofNat 8 (s % 8)

/-- Issue an item on an enabled stream (R275): dropped whole where it finds no room; a gap record goes
before the first item after a run of drops or of withheld lines. -/
def pushItem (s : Nat) (x : Item) (b : Block) : Block :=
  let st := b.str s
  if st.used + x.bytes.length ≤ b.strLimit s && b.stagingUsed + x.bytes.length ≤ 3456 * 1024 then
    let gap (d : Option DropRun) : List Item := match d with
      | some d => [⟨gapBytes (strHead s) (strTap s) d, d.frame, d.line⟩]
      | none => []
    placeItems s (b.setStr s { st with
      items := st.items ++ gap st.withheld ++ gap st.drops ++ [x], drops := none, withheld := none })
  else
    let b := b.inc (Reg.STR_CNT s) 31 16 1
    b.setStr s { st with drops := some (addDrop 0 x.frame x.line (BitVec.ofNat 64 b.ns) st.drops) }

/-- Note a line withheld by the budget (R266, R275). -/
def withholdItem (s : Nat) (frame : Word) (line : BitVec 16) (b : Block) : Block :=
  let st := b.str s
  b.setStr s { st with withheld := some (addDrop 1 frame line (BitVec.ofNat 64 b.ns) st.withheld) }

/-- Descriptors in flight (HOST_INFL). -/
def Block.inflight (b : Block) : Nat := b.host.strs.foldl (fun n e => n + e.2.descs.length + e.2.fetching) 0

/-- The lowest journal slot that is free to reuse (R358). -/
def freeSlot (b : Block) : Nat :=
  ((List.range 1024).find? fun k =>
    let v : Slot := b.host.slots.get (fun _ => {}) k
    v.st == 0 || v.st == 5 || v.abandoned).getD 0

/-- How late a launch key is (R272, R206): none where it is not yet reached; else the lateness in ns or
grains. LKIND 3 is never late. -/
def launchLate (d : Descriptor) (b : Block) : Option Nat :=
  match d.lkind.val with
  | 1 => if d.lkey.toNat ≤ b.ns then some (b.ns - d.lkey.toNat) else none
  | 2 =>
    let diff := posDiff (b.hwmNow d.lsrc.val) (d.lkey.setWidth 48)
    if 0 ≤ diff then some diff.toNat else none
  | _ => none

/-- The LATE policy keeps a descriptor that is late by `l` (R272, R206). -/
def Block.keepsLate (b : Block) (d : Descriptor) (l : Nat) : Bool :=
  let grace := if d.lkind.val = 1 then b.num Reg.ACT_GRACE_T else b.fld Reg.ACT_GRACE_P 23 0
  d.late.val == 0 || (d.late.val != 1 && decide (l ≤ grace))

/-- A descriptor as its fetch completes (R271, R272). -/
def newDesc (d : Descriptor) (idx slot : Nat) (launchNow : Bool) (b : Block) : Desc × Bool :=
  let base : Desc := { d := d, idx := idx, slot := slot, st := .fetched, outcome := 0, items := [], issued := 0,
                       openAt := none, launched := d.lkind.val == 0 || (d.lkind.val == 3 && launchNow) }
  if d.addr.toNat % 64 ≠ 0 || d.len.toNat / 64 = 0 then
    ({ base with st := .writing, outcome := 5, launched := true }, false)
  else match launchLate d b with
    | none => (base, false)
    | some l =>
      if b.keepsLate d l then ({ base with outcome := 1, launched := true }, true)
      else ({ base with st := .writing, outcome := 2, launched := true }, true)

/-- Bytes a stream's front descriptor may still issue (R276). -/
def StreamSt.ready (x : StreamSt) : Nat :=
  match x.descs with
  | d :: _ => if d.st = .writing then itemsLen d.items - d.issued else 0
  | [] => 0

/-- Issue up to 4 KB of a stream's front descriptor (R276). -/
def grantStream (s : Nat) (b : Block) : Block :=
  let x := b.str s
  match x.descs with
  | d :: ds =>
    let all := (d.items.map Item.bytes).flatten
    let n := min 4096 (all.length - d.issued)
    let b := hostWrite (d.d.addr.toNat + d.issued) ((all.drop d.issued).take n) b
    let b := putStr s { x with descs := { d with issued := d.issued + n } :: ds } b
    { b with host := { b.host with lastServed := s, passed := b.host.passed.set (fun _ => 0) s 0 } }
  | [] => b

/-- Serve streams in the given order until the round's bytes run out; the others are passed over. -/
def serveStreams : List Nat → Nat → Block → Block
  | [], _, b => b
  | s :: ss, left, b =>
    let n := min 4096 (b.str s).ready
    if n ≤ left then serveStreams ss (left - n) (grantStream s b)
    else
      let p := b.host.passed.get (fun _ => 0) s
      serveStreams ss 0 { b with host := { b.host with passed := b.host.passed.set (fun _ => 0) s (p + 1) } }

/-- The order of a round (R276): streams passed over three times first, then ascending from the stream
after the one served last. -/
def roundOrder (b : Block) : List Nat :=
  let rot := (List.range 198).map fun i => (b.host.lastServed + 1 + i) % 198
  let ready := rot.filter fun s => decide (0 < (b.str s).ready)
  let first := ready.filter fun s => decide (3 ≤ b.host.passed.get (fun _ => 0) s)
  first ++ ready.filter fun s => !first.contains s

/-- One round of stream data writes, at most 128 KB (R276). -/
def egressRound (b : Block) : Block := serveStreams (roundOrder b) (128 * 1024) b

/-- Complete a stream's front descriptor (R273). -/
def completeFront (s : Nat) (b : Block) : Block :=
  let x := b.str s
  match x.descs with
  | [] => b
  | d :: ds =>
    let base := (b.rd64 (Reg.STR_BASE_LO s)).toNat
    let comp := leBytes 4 (itemsLen d.items) ++ [d.outcome, 1] ++ leBytes 2 d.items.length
    let b := hostWrite (base + 32 * d.idx + 24) comp b
    let head := (d.idx + 1) % b.ringSize s
    let b := b.wrN (Reg.STR_HEAD s) head
    let b := if b.bit (Reg.STR_CTL s) 3 then hostWrite (base + 32 * b.ringSize s) (leBytes 4 head) b else b
    let b := putStr s { x with descs := { d with st := .completed } :: ds } b
    let b := b.setStr s { x with descs := ds }
    if d.d.irq then signalVec (3 + s) (b.fld (Reg.STR_RING s) 31 16) b else b

/-- Write what a stream's front descriptor holds and complete it (R279). -/
def finishFront (s : Nat) (b : Block) : Block :=
  match (b.str s).descs with
  | [] => b
  | d :: ds =>
    let all := (d.items.map Item.bytes).flatten
    let b := if d.issued < all.length then hostWrite (d.d.addr.toNat + d.issued) (all.drop d.issued) b else b
    completeFront s (b.setStr s { b.str s with descs := { d with issued := all.length } :: ds })

/-- End a stream's service as its EN clears (R279): every fetched descriptor is completed, where egress may write (R260)
and no failed fetch has stopped the ring (R271); else its descriptors wait for egress. -/
def disableStream (s : Nat) (b : Block) : Block :=
  let x := b.str s
  let flush (d : Desc) : Desc :=
    match d.st with
    | .fetched | .filling | .held => { d with st := .writing, outcome := 4, launched := true }
    | _ => { d with launched := true }
  let b := b.inc (Reg.STR_CNT s) 31 16 x.items.length
  let b := putStr s { x with items := [], descs := x.descs.map flush, drops := none, withheld := none } b
  if b.egressOn && !x.stopped then forEach (b.str s).descs (fun _ b => finishFront s b) b else b

/-- Descriptors that a ring still has in flight as it begins anew are abandoned (R279 sets HEAD to 0). -/
def abandonDescs (s : Nat) (b : Block) : Block :=
  let x := b.str s
  { b.setStr s { x with descs := [] } with host := { (b.setStr s { x with descs := [] }).host with
      slots := x.descs.foldl (fun m d => m.set (fun _ => {}) d.slot { d.view s with abandoned := true }) b.host.slots } }

/-- A descriptor's launch key no longer holds it. -/
def Desc.launch (d : Desc) : Desc := { d with launched := true, st := if d.st = .held then .writing else d.st }

/-- An EGRESS_LAUNCH of a stream (R272): its LKIND 3 descriptors in flight are reached. -/
def launchStream (s : Nat) (b : Block) : Block :=
  let x := b.str s
  putStr s { x with descs := x.descs.map (fun d => if d.d.lkind.val = 3 then d.launch else d), launchTick := some b.now } b

/-- The test of a launch key at the end of a tick (R272, R35, R43): `some none` where it is reached on time, with the
lateness where a forward jump of the tick has passed it. -/
def launchHit (d : Descriptor) (b : Block) : Option (Option Nat) :=
  match launchLate d b with
  | none => none
  | some l =>
    let jumped := if d.lkind.val = 1 then (match b.tim.jumpFrom with
        | some n => decide (n < d.lkey.toNat)
        | none => false)
      else (b.ch d.lsrc.val).jump == some .forward
    some (if jumped then some l else none)

/-- A descriptor whose LATE policy discards it (R272): completed with no data; its items are staged again. -/
def Desc.discard (d : Desc) : Desc := { d with items := [], st := .writing, outcome := 2, launched := true }

/-- The launch keys of a stream's descriptors are tested (R272): reached ones release theirs, on time or late. Position keys
are tested only `atEnd`, once the tick's evaluation of positions is complete (R35). -/
def launchTest (atEnd : Bool) (s : Nat) (b : Block) : Block :=
  let x := b.str s
  let hit (d : Desc) : Option (Option Nat) := if d.launched || (d.d.lkind.val == 2 && !atEnd) then none else launchHit d.d b
  let late (d : Desc) : Option Nat := (hit d).bind id
  let go (d : Desc) : Desc :=
    match hit d with
    | none => d
    | some none => d.launch
    | some (some l) => if b.keepsLate d.d l then { d.launch with outcome := 1 } else d.discard
  let back := (x.descs.filter fun d => match late d with
    | some l => !b.keepsLate d.d l
    | none => false).flatMap (·.items)
  if x.descs.any fun d => (hit d).isSome then
    let b := b.inc (Reg.STR_CNT s) 15 0 (x.descs.filter fun d => (late d).isSome).length
    placeItems s (putStr s { x with descs := x.descs.map go, items := back ++ x.items } b)
  else b

/-- DESC_LAUNCH (R272): a time key of a stream is reached; position keys are tested as the tick ends (R35). -/
def launchDue (s : Nat) (b : Block) : Block := launchTest false s b

/-- The launch keys of every stream are tested at the end of a tick (R35). -/
def launchClose (b : Block) : Block := forEach b.host.strs (fun e b => launchTest true e.1 b) b

end Sys2Proof.Machine
end

