-- ==== Sys2Proof/Machine/Crc.lean ====
section
/-! DEFINITION. The check sums of the manual: CRC-32C (R76) and CRC-64/ECMA (R341). -/

namespace Sys2Proof.Machine

/-- Shift a reflected 32-bit CRC by `n` bits. -/
def crc32Bits (poly : BitVec 32) : Nat → BitVec 32 → BitVec 32
  | 0, c => c
  | n + 1, c => crc32Bits poly n (if c.getLsbD 0 then (c >>> 1) ^^^ poly else c >>> 1)

/-- CRC-32C: Castagnoli polynomial 0x1EDC6F41, reflected input and output, initial value and final XOR
all ones (R76). 0x82F63B78 is the polynomial reflected. -/
def crc32c (bs : List Byte) : BitVec 32 :=
  ~~~ (bs.foldl (fun c x => crc32Bits 0x82F63B78 8 (c ^^^ x.setWidth 32)) 0xFFFFFFFF)

/-- Shift a 64-bit CRC, most significant bit first, by `n` bits. -/
def crc64Bits : Nat → BitVec 64 → BitVec 64
  | 0, c => c
  | n + 1, c => crc64Bits n (if c.msb then (c <<< (1 : Nat)) ^^^ 0x42F0E1EBA9EA3693 else c <<< (1 : Nat))

/-- CRC-64/ECMA-182 of more bytes, from the CRC of those before (R341); the first value is 0. -/
def crc64 (c : BitVec 64) (bs : List Byte) : BitVec 64 :=
  bs.foldl (fun c x => crc64Bits 8 (c ^^^ (BitVec.ofNat 64 (x.toNat * 2 ^ 56)))) c

end Sys2Proof.Machine
end

