-- ==== Sys2Proof/Machine/Strike.lean ====
section
/-! DEFINITION. The strike unit (03_strike_and_lockstep.md, R51 to R67). -/

namespace Sys2Proof.Machine

/-- A strike group's hidden state. -/
def Block.grp (b : Block) (g : Nat) : StkGrp := b.stk.get (fun _ => {}) g

/-- Replace a strike group's hidden state. -/
def Block.setGrp (b : Block) (g : Nat) (s : StkGrp) : Block := { b with stk := b.stk.set (fun _ => {}) g s }

/-- STK_GRP_CTL.EN. -/
def Block.stkEn (b : Block) (g : Nat) : Bool := b.bit (Reg.STK_GRP_CTL g) 0

/-- STK_GRP_CTL.SRC. -/
def Block.stkSrc (b : Block) (g : Nat) : Nat := b.fld (Reg.STK_GRP_CTL g) 6 4

/-- Interpolated mode (R52): MODE 1; 2 and 3 act as 0. -/
def Block.stkInterp (b : Block) (g : Nat) : Bool := b.fld (Reg.STK_GRP_CTL g) 2 1 == 1

/-- The pitch in effect (R54, R55). -/
def Block.stkPitch (b : Block) (g : Nat) : Nat :=
  let p := b.num (Reg.STK_GRP_PITCH g)
  if b.stkInterp g then max 64 p else max 256 (p / 256 * 256)

/-- The anchor in effect (R54). -/
def Block.stkAnchor (b : Block) (g : Nat) : Pos48 :=
  let a := b.rdPos (Reg.STK_GRP_ANCHOR_LO g)
  if b.stkInterp g then a else a &&& ~~~ 0xFF#48

/-- The smallest strike point strictly greater than the source's high-water mark (R53). -/
def Block.nextPoint (b : Block) (g : Nat) : Pos48 :=
  let d := posDiff (b.hwmNow (b.stkSrc g)) (b.stkAnchor g)
  b.stkAnchor g + toPos ((d / (b.stkPitch g : Int) + 1) * b.stkPitch g)

/-- Recompute the next strike point (R53). A predicted point that is not yet decided (R55) has not passed step 3 of R60: it is
the next point no more, and is predicted anew by the next counted transition where it lies ahead (DEDUCED, log entry
108). -/
def recompute (g : Nat) (b : Block) : Block :=
  b.setGrp g { b.grp g with next := b.nextPoint g, preds := [] }

/-- Head `h` is bound (HD_BIND.BOUND). -/
def Block.bound (b : Block) (h : Nat) : Bool := b.bit (Reg.HD_BIND h) 31

/-- STK_PORT.GROUP of a port (R51). -/
def Block.portGroup (b : Block) (h : Nat) : Nat := b.fld (Reg.STK_PORT h) 2 0

/-- STK_MININT (R58): the larger of 200 ns and ceil(10^9 / S_min) over the group's bound heads. -/
def Block.minint (b : Block) (g : Nat) : Nat :=
  (List.range 24).foldl (fun m h =>
    let s := b.num (Reg.HD_RATE h)
    if b.bound h && b.portGroup h == g && s != 0 then max m ((1000000000 + s - 1) / s) else m) 200

/-- The port's link is up (HD_LINK_STAT.LINK_UP). -/
def Block.linkUp (b : Block) (h : Nat) : Bool := b.bit (Reg.HD_LINK_STAT h) 3

/-- PAIR_STAT.ROLE. -/
def Block.role (b : Block) : Nat := b.fld Reg.PAIR_STAT 1 0

/-- PAIR_CTL.EN: this device is a pair member (R334). -/
def Block.member (b : Block) : Bool := b.bit Reg.PAIR_CTL 0

/-- This device drives command lanes and output balls (R66): it is not a pair member, or active and has not
released them (R350). -/
def Block.driving (b : Block) : Bool := !b.member || (b.role == 1 && !b.released)

/-- PAIR_STAT.JOIN. -/
def Block.joinSt (b : Block) : Nat := b.fld Reg.PAIR_STAT 3 2

/-- This device is the standby of a pair (R339). -/
def Block.standby (b : Block) : Bool := b.member && b.role == 2

/-- Live mirroring runs (R338, R345): this member is active, the pair link is up, and a join has started. -/
def Block.mirroring (b : Block) : Bool :=
  b.member && b.role == 1 && b.bit Reg.PAIR_STAT 4 && b.joinSt != 0

/-- TYPE of a frame (R333). -/
def PFrame.type : PFrame → Byte
  | .heartbeat _ => 1
  | .write _ => 2
  | .arm _ | .cancel _ => 3
  | .exec _ => 4
  | .digest _ => 5
  | .linecrc _ => 6
  | .handover .. | .fault => 7
  | .bulk _ => 8

/-- The body of a HEARTBEAT (R336). -/
def hbBody (f : HbFrame) : List Byte :=
  [BitVec.ofNat 8 f.role.val, BitVec.ofNat 8 f.join.val] ++ leBytes 2 f.eoLevel.toNat ++ leBytes 4 0
    ++ ((List.range 8).map fun g => leBytes 2 (f.seqs.getD g 0).toNat).flatten ++ leBytes 8 f.echo.toNat

/-- The body of the frame sent after `n` others: of any but a HEARTBEAT a free value. -/
def PFrame.body (f : PFrame) (n : Nat) : List Byte :=
  match f with
  | .heartbeat h => hbBody h
  | _ => (Config.pairBody n).take 4096

/-- The header of the next frame sent at a device time (R333): the next SEQ, the ACK owed, and NAK where one is. The first
frame of a link takes SEQ 1 (DESIGN CHOICE, log entry 132). -/
def PairLink.header (l : PairLink) (f : PFrame) (t : BitVec 64) : PairHdr :=
  { type := f.type, nak := l.nak, len := BitVec.ofNat 16 (f.body l.count).length, seq := l.last + 1, ack := l.heard, sent := t }

/-- The 16 bytes of a header (R333). -/
def PairHdr.bytes (h : PairHdr) : List Byte :=
  [h.type, BitVec.ofNat 8 (b2n h.replayed + 2 * b2n h.nak)] ++ leBytes 2 h.len.toNat ++ leBytes 2 h.seq.toNat
    ++ leBytes 2 h.ack.toNat ++ leBytes 8 h.sent.toNat

/-- The length of a frame with a body of `n` bytes: header, body and CRC-32C, padded to a multiple of 16 (R333). -/
def wireLen (n : Nat) : Nat := (16 + n + 4 + 15) / 16 * 16

/-- A frame's 16-byte groups as they are striped over the lanes (R333). -/
def PairHdr.groups (h : PairHdr) (body : List Byte) : List (List Byte) :=
  let bytes := h.bytes ++ body
  let full := bytes ++ leBytes 4 (crc32c bytes).toNat
  let padded := full ++ List.replicate (wireLen body.length - full.length) 0
  (List.range (wireLen body.length / 16)).map fun k => (padded.drop (16 * k)).take 16

/-- The link once frame `f` has left (R333): it is kept until it is acknowledged. -/
def PairLink.sent (l : PairLink) (f : PFrame) : PairLink :=
  { l with nak := false, last := l.last + 1, count := l.count + 1
           waiting := { seq := l.last + 1, frame := f, body := f.body l.count } :: l.waiting }

/-- The replay buffer of 256 KB has no room for a frame of the greatest length (R333; that this is when it is full is the
model's: DESIGN CHOICE, log entry 132). -/
def PairLink.full (l : PairLink) : Bool :=
  decide (0x40000 < (l.waiting.map fun x => wireLen x.body.length).foldl (· + ·) 0 + wireLen 4096)

/-- Replace the pair link's frame numbers and replay buffer. -/
def setLink (l : PairLink) (b : Block) : Block := { b with trail := { b.trail with link := l } }

/-- A frame leaves on the pair link (R333). -/
def sendFrame (f : PFrame) (b : Block) : Block :=
  let l := b.trail.link
  let h := l.header f b.tim.ns
  setLink (l.sent f) (b.emit (.pairFrame h f (h.groups (f.body l.count))))

/-- Send a frame to the standby while mirroring runs. -/
def pairSend (f : PFrame) (b : Block) : Block := if b.mirroring then sendFrame f b else b

/-- Mirror a write to the standby (R338). -/
def mirror (w : PairWrite) (b : Block) : Block := pairSend (.write w) b

/-- Whether this device emits strike SEQ of group `g` (R66, R343): in a handover the giver emits those below the
group's boundary, the partner the others. -/
def Block.emitsStrike (b : Block) (g : Nat) (seq : BitVec 16) : Bool :=
  let handing := b.pair.handAt.isSome
  let before : Option Bool := b.bounds.bind fun bs => (bs.getD g none).map fun bg => (seq - bg).msb
  match b.bounds with
  | none => b.driving
  | some _ =>
    !b.released && (if b.giver then (b.role == 1 && !handing) || before == some true
      else (b.role == 1 || handing) && before != some true)

/-- A strike at or past its group's boundary has been issued. -/
def passBound (g : Nat) (seq : BitVec 16) (b : Block) : Block :=
  match b.bounds with
  | none => b
  | some bs =>
    match bs.getD g none with
    | some bg => if (seq - bg).msb then b else { b with bounds := some (bs.set g none) }
    | none => b

/-- The path from a strike's instant to its first bit, before deskew (R61), in reference units. -/
def Block.strikePath (b : Block) (g kind : Nat) : Nat :=
  if kind < 2 then (32 + (b.filtNs (b.stkSrc g) - 8)) * tuNs else 32 * tuNs

/-- Schedule a strike at every member port whose link is up (R51, R61, R63). -/
def scheduleStrike (g kind : Nat) (stamp : BitVec 21) (ref : Nat) (b : Block) : Block :=
  forEach (List.range 24) (fun h b =>
    if b.portGroup h == g && b.linkUp h then
      let s : Sched := { stamp := stamp, at_ := ref + b.strikePath g kind + b.fld (Reg.STK_PORT h) 15 8 }
      { b with sched := b.sched.set (fun _ => []) h (b.sched.get (fun _ => []) h ++ [s]) }
    else b) b

/-- A strike of group `g` (R58, R64): withheld where it would follow the previous issued strike by less
than STK_MININT, else issued with the next stamp, recorded, and scheduled at the ports. -/
def strike (g kind : Nat) (pos : Pos48) (inst : Inst) (fallback : Bool) (b : Block) : Block :=
  let s := b.grp g
  let tooSoon := match s.last with
    | some l => decide (inst.ref < l + b.minint g * tuNs)
    | none => false
  if tooSoon then (b.setBit (Reg.STK_GRP_STAT g) 0).inc (Reg.STK_GRP_CNT_A g) 31 16 1
  else
    let stamp : BitVec 21 := BitVec.ofNat 21 (kind * 2 ^ 19 + g * 2 ^ 16 + s.seq.toNat)
    let t := inst.t16
    let rec_ : StrikeRec := { stamp := stamp, pos := pos, time := BitVec.ofNat 68 t }
    let emits := b.emitsStrike g s.seq
    let b := mend (· == .strike (Fin.ofNat 8 g) stamp) b
    let b := b.setGrp g { s with seq := s.seq + 1, last := some inst.ref, recs := (rec_ :: s.recs).take 256 }
    let b := (b.wr (Reg.STK_GRP_LAST_STAMP g) (stamp.setWidth 32)).wrPos (Reg.STK_GRP_LAST_POS_LO g) pos
    let b := (b.wr64 (Reg.STK_GRP_LAST_TIME_LO g) (BitVec.ofNat 64 (t / 16))).wrN (Reg.STK_GRP_LAST_TIME_FR g) (t % 16)
    let b := { b with strikes := b.strikes + 1 }
    let b := if fallback then (b.setBit (Reg.STK_GRP_STAT g) 1).inc (Reg.STK_GRP_CNT_B g) 31 16 1 else b
    passBound g s.seq (if emits then scheduleStrike g kind stamp inst.ref b else b)

/-- Move a group's next point one pitch on (R53). -/
def advancePoint (g : Nat) (b : Block) : Block :=
  let s := b.grp g
  b.setGrp g { s with next := s.next + BitVec.ofNat 48 (b.stkPitch g) }

/-- Strike the first prediction of a group, at the given instant. -/
def strikePredicted (g : Nat) (p : Predict) (inst : Inst) (fallback : Bool) (b : Block) : Block :=
  let s := b.grp g
  advancePoint g (strike g 1 p.p inst fallback (b.setGrp g { s with preds := s.preds.drop 1 }))

/-- The predictions of a group as a counted transition with crossing `cross` finds them (R55): those
whose instant precedes it are struck at their instants; the others are overtaken by a forward transition
and struck at its instant (R56), or withdrawn by a backward one. -/
def settlePredictions (g : Nat) (fwd : Bool) (cross : Inst) (b : Block) : Block :=
  forEach (b.grp g).preds (fun p b =>
    if p.at_ ≤ cross.ref then strikePredicted g p (b.instOf p.at_) false b
    else if fwd then strikePredicted g p cross true b
    else b.setGrp g { b.grp g with preds := [] }) b

/-- The transition left the channel below its high-water mark (R37). -/
def Eval.behind (v : Eval) : Bool := decide (posDiff v.base v.hwm < 0)

/-- Points that a counted forward transition brings the high-water mark to or past (R54, R56): one in edge mode, every
one in interpolated mode; none while BEHIND = 1 (R59). While the source interpolates, a point that lay in the count before
without a prediction, because the next point was recomputed inside that count, is struck here as a FALLBACK strike
(DESIGN CHOICE, log entry 105). `fuel` bounds the points of one transition. -/
def reachPoints (g : Nat) (v : Eval) : Nat → Block → Block
  | 0, b => b
  | fuel + 1, b =>
    let interp := b.stkInterp g
    let limit := if interp && v.valid then v.base - 1 else v.base
    if !v.behind && 0 ≤ posDiff limit (b.grp g).next then
      let b := advancePoint g (strike g (b2n interp) (b.grp g).next v.cross interp b)
      if interp then reachPoints g v fuel b else b
    else b

/-- Predict the points from the new count up to, but not including, the next (R55). -/
def predictPoints (g : Nat) (v : Eval) : Nat → Pos48 → Block → Block
  | 0, _, b => b
  | fuel + 1, p, b =>
    let d := posDiff p v.base
    if 0 ≤ d ∧ d < 256 then
      let at_ := v.cross.ref + (roundDiv (d * v.span) 4096).toNat
      let s := b.grp g
      predictPoints g v fuel (p + BitVec.ofNat 48 (b.stkPitch g))
        (b.setGrp g { s with preds := s.preds ++ [{ p := p, at_ := at_ }] })
    else b

/-- A point that the interpolated high-water mark passed without a prediction is not reached again once the source has
turned back (R59). -/
def dropPassed (g : Nat) (v : Eval) (b : Block) : Block :=
  if b.stkInterp g && 0 ≤ posDiff v.hwm (b.grp g).next then b.setGrp g { b.grp g with next := b.nextPoint g } else b

/-- What a counted transition of its source does to group `g` (R54 to R56). -/
def groupEval (g : Nat) (v : Eval) (b : Block) : Block :=
  let withdrawn := (b.grp g).preds.any fun p => decide (v.cross.ref < p.at_)
  let b := settlePredictions g v.fwd v.cross b
  if !b.stkEn g then b
  else if v.fwd then
    let b := reachPoints g v 8 b
    if b.stkInterp g && v.valid then predictPoints g v 8 (b.grp g).next b else b
  else if withdrawn then b
  else dropPassed g v b

/-- The idle condition of R57. -/
def Block.idleCond (b : Block) (g : Nat) : Bool :=
  b.stkEn g && b.bit (Reg.STK_GRP_CTL g) 8 &&
    (b.still (b.stkSrc g) || (b.bit (Reg.STK_GRP_CTL g) 9 && (b.ch (b.stkSrc g)).behind b.now))

/-- The idle period in effect (R57), in reference units. -/
def Block.idlePeriod (b : Block) (g : Nat) : Nat := max 10 (b.fld (Reg.STK_GRP_IDLE g) 23 0) * tuUs

/-- Start or stop a group's idle cadence as its condition holds or not (R57). -/
def idleUpdate (g : Nat) (b : Block) : Block :=
  let s := b.grp g
  if b.idleCond g then
    match s.idle with
    | some _ => b
    | none => b.setGrp g { s with idle := some (b.now + b.idlePeriod g) }
  else match s.idle with
    | some _ => b.setGrp g { s with idle := none }
    | none => b

/-- Update every group's idle cadence. -/
def idleUpdateAll (b : Block) : Block := forEach (List.range 8) idleUpdate b

/-- Source `n`'s high-water mark has been put elsewhere by a load (`load`), a zero or HWM_TO_POS (R59): points that a load
forward from `old` crosses are skipped and counted while the group runs; the next point is recomputed, whatever EN (R53). -/
def strikeJump (n : Nat) (load : Bool) (old : Pos48) (b : Block) : Block :=
  forEach (List.range 8) (fun g b =>
    if b.stkSrc g == n then
      let d := posDiff (b.hwmNow n) (b.grp g).next
      let b := if load && b.stkEn g && 0 < posDiff (b.hwmNow n) old && 0 ≤ d then
          (b.inc (Reg.STK_GRP_CNT_A g) 15 0 (d.toNat / b.stkPitch g + 1)).setBit (Reg.STK_GRP_STAT g) 2
        else b
      recompute g b
    else b) b

/-- A write of STK_GRP_CTL.EN, or of the whole control word (R53). -/
def writeStkCtl (g : Nat) (val : Word) (b : Block) : Block :=
  let old := b.rd (Reg.STK_GRP_CTL g)
  let b := b.genWrite (Reg.STK_GRP_CTL g) val
  let new := b.rd (Reg.STK_GRP_CTL g)
  let b := if bitOf new 0 && (!bitOf old 0 || fieldOf new 6 4 != fieldOf old 6 4 || fieldOf new 2 1 != fieldOf old 2 1)
    then recompute g b
    else if bitOf new 0 then b else b.setGrp g { b.grp g with preds := [] }
  idleUpdate g b

/-- A write of PITCH or ANCHOR (R53, R379: each word recomputes the point as it is written). -/
def writeStkPoint (g off : Nat) (val : Word) (b : Block) : Block :=
  let b := b.genWrite off val
  if b.stkEn g then recompute g b else b

/-- A strike past step 3 of R60 is issued. -/
def issueOne (g : Nat) (d : Decided) (b : Block) : Block := strike g (if d.idle then 2 else 1) d.pos d.inst false b

/-- The oldest strike of a group that is past step 3 of R60 is issued, where it is of the given kind: "a strike already past
step 3 is sent whatever is written afterwards". -/
def issueDecided (g : Nat) (idle : Bool) (b : Block) : Block :=
  match (b.grp g).decided with
  | d :: ds => if d.idle = idle then issueOne g d (b.setGrp g { b.grp g with decided := ds }) else b
  | [] => b

/-- Every strike of a group that is past step 3 is issued, in order: at the latest before step 3 of the next tick. -/
def issueAll (g : Nat) (b : Block) : Block :=
  forEach (b.grp g).decided (issueOne g) (b.setGrp g { b.grp g with decided := [] })

/-- Step 3 of R60 has been passed by a strike. -/
def decideStrike (g : Nat) (d : Decided) (b : Block) : Block :=
  b.setGrp g { b.grp g with decided := (b.grp g).decided ++ [d] }

/-- The oldest prediction of a group is decided (R55): the filter delay has passed beyond its instant. -/
def decidePrediction (g : Nat) (b : Block) : Block :=
  match (b.grp g).preds with
  | p :: ps =>
    if p.at_ + b.filtNs (b.stkSrc g) * tuNs ≤ b.now then
      advancePoint g (decideStrike g { idle := false, pos := p.p, inst := b.instOf p.at_ }
        (b.setGrp g { b.grp g with preds := ps }))
    else b
  | [] => b

/-- Every prediction that can be decided in this tick is. `fuel` bounds them. -/
def decidePredictions (g : Nat) : Nat → Block → Block
  | 0, b => b
  | fuel + 1, b => decidePredictions g fuel (decidePrediction g b)

/-- The idle test of step 3 (R57). A period written while the cadence runs leaves the deadline already set, and is used from
there on (DESIGN CHOICE, log entry 137). -/
def idleTest (g : Nat) (b : Block) : Block :=
  match (b.grp g).idle with
  | some t =>
    if t ≤ b.now && b.idleCond g then
      let b := decideStrike g { idle := true, pos := b.posNow (b.stkSrc g), inst := b.inst } b
      b.setGrp g { b.grp g with idle := some (t + b.idlePeriod g) }
    else b
  | none => b

/-- STK_CMD.STRIKE_NOW (R60): a manual strike is tested in the following tick. Two pulses of one group in a tick make one
(DESIGN CHOICE, log entry 138). -/
def strikeNow (g : Nat) (b : Block) : Block := b.setGrp g { b.grp g with manualNext := true }

/-- A manual strike pulsed in the tick before is tested (R60); one pulsed in this tick is tested in the next. -/
def manualStrike (g : Nat) (b : Block) : Block :=
  let s := b.grp g
  let b := b.setGrp g { s with manual := s.manualNext, manualNext := false }
  if s.manual && b.stkEn g then strike g 3 (b.posNow (b.stkSrc g)) b.inst false (issueAll g b) else b

/-- Step 3 of R60 for a group, after the writes of the tick: the transitions counted in it, predictions that can be
decided, the idle cadence, a manual strike. -/
def groupClose (g : Nat) (b : Block) : Block :=
  let b := forEach (b.ch (b.stkSrc g)).evals (groupEval g) (issueAll g b)
  manualStrike g (idleTest g (decidePredictions g 16 b))

end Sys2Proof.Machine
end

