-- ==== Sys2Proof/Machine/HeadCmd.lean ====
section
/-! DEFINITION. Head commands and responses (04_head_link.md, R70 to R73). -/

namespace Sys2Proof.Machine

/-- A head port's hidden state. -/
def Block.port (b : Block) (h : Nat) : HdPort := b.ports.get (fun _ => {}) h

/-- Replace a head port's hidden state. -/
def Block.setPort (b : Block) (h : Nat) (p : HdPort) : Block :=
  { b with ports := b.ports.set (fun _ => {}) h p }

/-- Queue a head command. A command holds its place in the queue until it is answered or has failed (R73, R78;
DEDUCED): the outstanding commands and the first of the waiting list have the 16 places, the rest wait for one. -/
def queueCmd (h : Nat) (c : HdCmd) (b : Block) : Block :=
  let p := b.port h
  b.setPort h { p with queue := p.queue ++ [c] }

/-- The number of unsent commands that have a place in the port's queue (R73). -/
def HdPort.places (p : HdPort) : Nat := 16 - p.outs.length

/-- The port's queue has a free place (R73). -/
def Block.queueFree (b : Block) (h : Nat) : Bool := decide ((b.port h).queue.length < (b.port h).places)

/-- HD_LINK_CTL.CMD_TMO in reference units; 0 acts as 1. -/
def Block.cmdTmo (b : Block) (h : Nat) : Nat := max 1 (b.fld (Reg.HD_LINK_CTL h) 23 16) * tuMs

/-- Duration of `n` characters (R68), in reference units. -/
def charTime (n : Nat) : Nat := (n * 1024 + 9) / 10

/-- Duration of a command of `n` payload bytes: 9 + n characters of 6.4 ns (R68, R70), in reference
units. -/
def cmdTime (n : Nat) : Nat := ((9 + n) * 1024 + 9) / 10

/-- The command lane is enabled: HD_LINK_CTL.EN, start-up past 20 ms, this device driving (R66, R366). -/
def Block.laneOn (b : Block) (h : Nat) : Bool :=
  b.bit (Reg.HD_LINK_CTL h) 0 && decide (5 ≤ b.stage_) && !b.bud.down && b.driving

/-- The command lane carries strikes (R66, R343): those that this member emits leave the lane whatever its role has become
since, unless it has released its lanes. -/
def Block.laneStrikes (b : Block) (h : Nat) : Bool :=
  b.bit (Reg.HD_LINK_CTL h) 0 && decide (5 ≤ b.stage_) && !b.bud.down && !(b.member && b.released)

/-- A command is on the lane at reference time `t`. -/
def OutCmd.onLane (o : OutCmd) (t : Nat) : Bool :=
  !o.waits && decide (o.ends - cmdTime o.cmd.payload.length ≤ t) && decide (t < o.ends)

/-- The reference time from which the lane may carry another command: an idle set of two characters follows each command
and each echo request; a strike symbol and stamp take four characters (R70). -/
def Block.laneFrom (b : Block) (h : Nat) : Nat :=
  let p := b.port h
  let t := (p.outs ++ p.ghosts).foldl (fun t q => let n := q.cmd.payload.length; max t (q.ends - cmdTime n + cmdTime (n + 2))) 0
  let t := match p.echoAt with | some e => max t (e + charTime 3) | none => t
  match p.strikeAt with | some s => max t (s + charTime 4) | none => t

/-- The lane carries nothing but idle sets, and no strike is due on it. -/
def Block.laneFree (b : Block) (h : Nat) : Bool :=
  decide (b.laneFrom h ≤ b.now) && (b.sched.get (fun _ => []) h).all fun s => decide (b.now < s.at_)

/-- The characters of a command (R70): K27.7, OPC, TAG, LEN, payload, CRC-32C, K29.7. The CRC is that of R76, over OPC to the
payload, least significant byte first (DESIGN CHOICE, log entry 146). -/
def cmdChars (opc tag : Byte) (payload : List Byte) : List LaneChar :=
  let body := [opc, tag, BitVec.ofNat 8 payload.length] ++ payload
  [.k 27 7] ++ (body ++ leBytes 4 (crc32c body).toNat).map .d ++ [.k 29 7]

/-- The strike symbol and stamp (R70): K28.1, stamp bits [7:0], [15:8] and [20:16]. -/
def strikeChars (stamp : BitVec 21) : List LaneChar := .k 28 1 :: (leBytes 3 stamp.toNat).map .d

/-- An idle set (R70): K28.5 D21.5 active, K28.5 D16.2 standby. -/
def idleChars (active : Bool) : List LaneChar := [.k 28 5, .d (if active then 0xB5 else 0x50)]

/-- The idle sets that a command lane carries (R70, R81, R366): active from the member that drives the heads, else standby;
none while the lane is not enabled or has been released (R350). -/
def Block.laneIdle (b : Block) (h : Nat) : Option (List LaneChar) :=
  if b.bit (Reg.HD_LINK_CTL h) 0 && decide (5 ≤ b.stage_) && !b.bud.down && !(b.member && b.released)
    then some (idleChars b.driving) else none

/-- Emit the idle sets that differ from those of `old`. -/
def idleSince (old b : Block) : Block :=
  forEach (List.range 24) (fun h b => if b.laneIdle h = old.laneIdle h then b else b.emit (.idle h (b.laneIdle h) b.now)) b

/-- Send an outstanding command: its packet starts at reference time `t`. -/
def transmit (h : Nat) (o : OutCmd) (t : Nat) (b : Block) : OutCmd × Block :=
  let ends := t + cmdTime o.cmd.payload.length
  ({ o with ends := ends, deadline := ends + b.cmdTmo h, waits := false },
   b.emit (.command h o.cmd.opc o.tag o.cmd.payload (cmdChars o.cmd.opc o.tag o.cmd.payload) t))

/-- Outstanding commands are forgotten; those that the lane still carries, or the idle set after them, keep it (R70). -/
def HdPort.drop (p : HdPort) (now : Nat) (gone : OutCmd → Bool) : HdPort :=
  { p with
    outs := p.outs.filter fun o => !gone o
    ghosts := (p.ghosts ++ p.outs.filter gone).filter fun o => !o.waits && decide (now < o.ends + charTime 2) }

/-- Send the next queued command with the port's next TAG (R70, R73). -/
def sendNext (h : Nat) (b : Block) : Block :=
  let p := b.port h
  match p.queue with
  | [] => b
  | c :: cs =>
    let (o, b) := transmit h { cmd := c, tag := p.tag, attempt := 1, ends := 0, deadline := 0 } b.now b
    b.setPort h { p with queue := cs, outs := p.outs ++ [o], tag := p.tag + 1 }

/-- A strike symbol at reference time `t` cuts the command in progress, which is sent again in full
after the stamp (R62, R71): four characters later. -/
def cutCommands (h t : Nat) (b : Block) : Block :=
  let p := b.port h
  let again (os : List OutCmd) (b : Block) : List OutCmd × Block := os.foldl (fun acc o =>
    if o.onLane t then
      let (o, b) := transmit h o (t + charTime 4) acc.2
      (acc.1 ++ [o], b)
    else (acc.1 ++ [o], acc.2)) ([], b)
  let (outs, b) := again p.outs b
  let (ghosts, b) := again p.ghosts b
  b.setPort h { p with outs := outs, ghosts := ghosts }

/-- Put bytes into consecutive registers, little-endian, `n` words from `off`. -/
def putWords (off : Nat) (bytes : List Byte) : Nat → Block → Block
  | 0, b => b
  | n + 1, b => putWords (off + 4) (bytes.drop 4) n (b.wrN off (ofLe (bytes.take 4)))

/-- `n` bytes from consecutive registers. -/
def Block.getBytes (b : Block) (off n : Nat) : List Byte :=
  ((List.range ((n + 3) / 4)).map fun i => leBytes 4 (b.num (off + 4 * i))).flatten.take n

/-- Deliver a mailbox answer (R73, R85). LEN of a payload of more than 127 bytes reads 127; RSP_DATA words beyond a shorter
payload keep their contents, and the bytes of its last word beyond it read 0 (DESIGN CHOICE, log entry 117). -/
def mailboxAnswer (h : Nat) (tag rstat : Byte) (payload : List Byte) (b : Block) : Block :=
  let b := b.wrN (Reg.HD_RSP h) (tag.toNat * 65536 + min payload.length 127 * 256 + rstat.toNat)
  let b := putWords (Reg.HD_RSP_DATA h 0) (payload.take 64) ((min payload.length 64 + 3) / 4) b
  b.clrBit (Reg.HD_CMD h) 31

/-- SET_PORT (R73). -/
def setPortCmd (h : Nat) (org : CmdOrg) (b : Block) : Block :=
  queueCmd h { opc := 0x01, payload := [BitVec.ofNat 8 h, BitVec.ofNat 8 (b.portGroup h)], org := org } b

/-- READ_FLASH (R73). -/
def readFlash (h addr len : Nat) (org : CmdOrg) (b : Block) : Block :=
  queueCmd h { opc := 0x02, payload := leBytes 4 addr ++ leBytes 2 len, org := org } b

end Sys2Proof.Machine
end

