-- ==== Sys2Proof/Machine/Ledger.lean ====
section
/-! DEFINITION. The ledger (15_ledger.md, R300 to R319): slots, selection, the write queue, pages. -/

namespace Sys2Proof.Machine

/-- A byte of the ledger; bytes never programmed read 0xFF (R300). -/
def Block.ldgByte (b : Block) (a : Nat) : Byte := b.ldg.bytes.get (fun _ => 0xFF) a

/-- `n` bytes of the ledger from address `a`. -/
def Block.ldgBytes (b : Block) (a n : Nat) : List Byte := b.ldg.bytes.getList (fun _ => 0xFF) a n

/-- Program bytes. -/
def programBytes (xs : List (Nat × Byte)) (b : Block) : Block :=
  { b with ldg := { b.ldg with bytes := xs.foldl (fun m x => m.set (fun _ => 0xFF) x.1 x.2) b.ldg.bytes } }

/-- A little-endian word of the ledger. -/
def Block.ldgWord (b : Block) (a : Nat) : Word := BitVec.ofNat 32 (ofLe (b.ldgBytes a 4))

/-- An address of the user area (R301). -/
def inUserArea (a : Nat) : Bool := decide (0x2C800 ≤ a) && decide (a < 0x40000)

/-- The limits on LEN of a kind (R310). -/
def lenOk (kind : Byte) (len : Nat) : Bool :=
  match kind.toNat with
  | 0x01 => len == 32
  | 0x02 => len == 24
  | 0x03 => decide (len ≤ 48)
  | 0x04 => decide (len ≤ 1008)
  | 0x05 => len == 256
  | 0x10 => len == 48
  | 0x20 => len == 96
  | 0x30 => len == 0 || (decide (8 ≤ len) && decide (len ≤ 49160))
  | k => decide (0x80 ≤ k) && decide (k ≤ 0xBF) && decide (1 ≤ len) && decide (len ≤ 512)

/-- A slot's header and body as a valid copy: its SEQ and body (R306, R307). -/
def Block.slotCopy (b : Block) (kind : Byte) (addr size : Nat) : Option (Word × List Byte) :=
  if b.ldgByte addr != kind then none
  else
    let len := ofLe (b.ldgBytes (addr + 2) 2)
    if lenOk kind len && decide (16 + len ≤ size) then
      let body := b.ldgBytes (addr + 16) len
      if b.ldgWord (addr + 12) = crc32c (b.ldgBytes addr 12 ++ body) then some (b.ldgWord (addr + 4), body)
      else none
    else none

/-- A slot whose 16 header bytes all read 0xFF (R307). -/
def Block.slotBlank (b : Block) (addr : Nat) : Bool := (b.ldgBytes addr 16).all (· == 0xFF)

/-- Copy x is newer than copy y (R308). -/
def newer (x y : Word) : Bool :=
  let d := (x - y).toNat
  decide (1 ≤ d) && decide (d ≤ 2 ^ 31 - 1)

/-- The winner of a twin pair: slot (0 A, 1 B), SEQ, body; and whether the copies tie with different
bodies (R308). -/
def twinWinner (a c : Option (Word × List Byte)) : Option (Nat × Word × List Byte) × Bool :=
  match a, c with
  | none, none => (none, false)
  | some x, none => (some (0, x.1, x.2), false)
  | none, some y => (some (1, y.1, y.2), false)
  | some x, some y =>
    if newer x.1 y.1 then (some (0, x.1, x.2), false)
    else if newer y.1 x.1 then (some (1, y.1, y.2), false)
    else (some (0, x.1, x.2), x.2 != y.2)

/-- Addresses of slots A and B and the slot size of a T24 record kind (R301). -/
def twinSlots (kind : Byte) (head : Nat) : Nat × Nat × Nat :=
  match kind.toNat with
  | 0x01 => (0, 0x80, 128)
  | 0x02 => (0x100, 0x140, 64)
  | 0x03 => (0x180, 0x1C0, 64)
  | 0x04 => (0x800, 0xC00, 1024)
  | 0x05 => (0x200, 0x400, 512)
  | 0x20 => (0x2000 + head * 0x100, 0x2080 + head * 0x100, 128)
  | _ => (0x14000, 0x20400, 50176)

/-- The core supply is below its warning level (R317): rail 0 of SUP_STAT.BELOW. -/
def Block.coreLow (b : Block) : Bool := b.bit Reg.SUP_STAT 0

/-- While the core supply is low, queued writes wait: each is counted once (R317). -/
def delayWrites (b : Block) : Block :=
  if b.coreLow then
    let l := b.ldg
    let b := b.inc Reg.LDG_CNT_C 31 16 (l.delayed.foldl List.erase l.queue).length
    { b with ldg := { b.ldg with delayed := l.queue } }
  else b

/-- Queue a write the T24 requests (R304); while the supply is low it counts as held (R317). -/
def queueWrite (q : LdgReq) (b : Block) : Block :=
  delayWrites { b with ldg := { b.ldg with queue := b.ldg.queue ++ [q] } }

/-- Queue an event log entry without the rate rule (R304): dropped where the queue is full. -/
def queueLog (code : BitVec 16) (src : Byte) (urgent : Bool) (data : List Byte) (b : Block) : Block :=
  if 32 ≤ b.ldg.queue.length then b.inc Reg.LDG_CNT_B 31 16 1
  else
    let q := LdgReq.log code src urgent (BitVec.ofNat 64 b.ns) (data ++ List.replicate (12 - data.length) 0)
    let b := queueWrite q b
    if urgent then b else { b with ldg := { b.ldg with lastLog := some b.now } }

/-- Whether the rate rule drops a non-urgent entry requested now (R313). -/
def Block.logTooSoon (b : Block) : Bool :=
  match b.ldg.lastLog with
  | some t => decide (b.now < t + 1000 * tuMs)
  | none => false

/-- A log entry of the T24 itself (R313). -/
def logT24 (code : BitVec 16) (urgent : Bool) (data : List Byte) (b : Block) : Block :=
  if !urgent && b.logTooSoon then b.inc Reg.LDG_CNT_B 31 16 1 else queueLog code 0 urgent data b

/-- Select the winner of two slots (R307, R308): copies passed over are counted, a tie is reported. -/
def selectSlots (kind : Byte) (sa sb size : Nat) (b : Block) : Option (Nat × Word × List Byte) × Bool × Block :=
  let a := b.slotCopy kind sa size
  let c := b.slotCopy kind sb size
  let bad := b2n (a.isNone && !b.slotBlank sa) + b2n (c.isNone && !b.slotBlank sb)
  let b := if bad = 0 then b else b.inc Reg.LDG_CNT_B 15 0 bad
  let (w, tie) := twinWinner a c
  let b := if tie then
      let b := (b.setBit Reg.LDG_STAT 2).inc Reg.LDG_CNT_A 31 16 1
      logT24 0x0004 false (kind :: leBytes 4 (match w with | some x => x.2.1.toNat | none => 0)) b
    else b
  (w, tie, b)

/-- Select the winner of a T24 record (R308, R309). -/
def selectTwin (kind : Byte) (head : Nat) (b : Block) : Option (Nat × Word × List Byte) × Bool × Block :=
  let (sa, sb, size) := twinSlots kind head
  selectSlots kind sa sb size b

/-- Number consecutive bytes from an address. -/
def spanFrom : Nat → List Byte → List (Nat × Byte)
  | _, [] => []
  | a, x :: xs => (a, x) :: spanFrom (a + 1) xs

/-- The 16-byte header and body of a record (R306). -/
def recordBytes (kind : Byte) (seq : Word) (body : List Byte) : List Byte :=
  let h := [kind, 0] ++ leBytes 2 body.length ++ leBytes 4 seq.toNat ++ leBytes 4 0
  h ++ leBytes 4 (crc32c (h ++ body)).toNat ++ body

/-- Cut numbered bytes into the pages they fall in (R303). -/
def toPages : List (Nat × Byte) → List (List (Nat × Byte))
  | [] => []
  | x :: xs =>
    match toPages xs with
    | (y :: p) :: ps => if x.1 / 64 = y.1 / 64 then (x :: y :: p) :: ps else [x] :: (y :: p) :: ps
    | ps => [x] :: ps

/-- Where a T24 record is written next (R309): the slot without the winner, and the SEQ it takes. -/
def twinTarget (kind : Byte) (head : Nat) (b : Block) : Nat × Word × Block :=
  let (w, tie, b') := selectTwin kind head b
  let (sa, sb, _) := twinSlots kind head
  match w with
  | none => (sa, 1, b')
  | some (slot, seq, _) => (if tie then sb else if slot = 0 then sb else sa, seq + 1, b')

/-- The bytes that write a T24 record (R309), and the SEQ given. -/
def twinBytes (kind : Byte) (head : Nat) (body : List Byte) (b : Block) : List (Nat × Byte) × Word × Block :=
  let (a, seq, b) := twinTarget kind head b
  (spanFrom a (recordBytes kind seq body), seq, b)

/-! ### User records (R314) -/

/-- The UDIR body: 64 words; all zero with no valid copy. -/
def udirOf (b : Block) : List Byte × Block :=
  match selectTwin 0x05 0 b with
  | (some (_, _, body), _, b) => (body, b)
  | (none, _, b) => (List.replicate 256 0, b)

/-- The UDIR word of user kind `k`: first page, pages per slot, allocated. -/
def udirEntry (body : List Byte) (k : Nat) : Nat × Nat × Bool :=
  let w := ofLe ((body.drop (4 * (k - 0x80))).take 4)
  (w % 65536, w / 65536 % 256, w / 2 ^ 24 % 2 == 1)

/-- Whether ledger page `p` belongs to an allocated kind. -/
def pageTaken (body : List Byte) (p : Nat) : Bool :=
  (List.range 64).any fun i =>
    let (f, n, al) := udirEntry body (0x80 + i)
    al && decide (f ≤ p) && decide (p < f + 2 * n)

/-- The first page of the user area and the number of its pages (R301). -/
abbrev userPage0 : Nat := 0xB20
abbrev userPages : Nat := 1248

/-- Free pages of the user area (LDG_UPAGES). -/
def freePages (body : List Byte) : Nat :=
  ((List.range userPages).filter fun i => !pageTaken body (userPage0 + i)).length

/-- The lowest run of `n` free pages, scanned from `p` with `run` pages already free below it. -/
def findRun (body : List Byte) (n : Nat) : Nat → Nat → Nat → Option Nat
  | 0, _, _ => none
  | fuel + 1, p, run =>
    if pageTaken body p then findRun body n fuel (p + 1) 0
    else if n ≤ run + 1 then some (p + 1 - n)
    else findRun body n fuel (p + 1) (run + 1)

/-- Pages per slot for a record of LEN bytes (R314). -/
def slotPages (len : Nat) : Nat := (16 + len + 63) / 64

/-- UDIR with one word replaced. -/
def setUdir (body : List Byte) (k w : Nat) : List Byte :=
  body.take (4 * (k - 0x80)) ++ leBytes 4 w ++ body.drop (4 * (k - 0x80) + 4)

/-- Select the winner of a user kind's slots (R308). -/
def userWinner (kind : Byte) (first pages : Nat) (b : Block) : Option (Nat × Word × List Byte) × Bool × Block :=
  selectSlots kind (first * 64) ((first + pages) * 64) (pages * 64) b

/-- The SEQ a user record takes next: its winner's SEQ + 1, or 1. -/
def userSeq (kind : Byte) (b : Block) : Word :=
  let (f, n, al) := udirEntry (udirOf b).1 kind.toNat
  match (if al then (userWinner kind f n b).1 else none) with
  | some (_, seq, _) => seq + 1
  | none => 1

/-- The bytes a user record's write programs with its SEQ, in order: on a first write both headers, UDIR, then the
record (R314); none where no room is left (LWR answers 2). -/
def userBytes (kind : Byte) (body : List Byte) (seq : Word) (b : Block) : Option (List (Nat × Byte)) × Block :=
  let (dir, b) := udirOf b
  let (f, n, al) := udirEntry dir kind.toNat
  let need := slotPages body.length
  if al then
    if n < need then (none, b)
    else
      let (w, _, b) := userWinner kind f n b
      let a := match w with
        | some (0, _, _) => (f + n) * 64
        | _ => f * 64
      (some (spanFrom a (recordBytes kind seq body)), b)
  else
    match findRun dir (2 * need) userPages userPage0 0 with
    | none => (none, b)
    | some p =>
      let blank := List.replicate 16 (0xFF : Byte)
      let (dirBytes, _, b) := twinBytes 0x05 0 (setUdir dir kind.toNat (p + need * 65536 + 2 ^ 24)) b
      (some (spanFrom (p * 64) blank ++ spanFrom ((p + need) * 64) blank ++ dirBytes
        ++ spanFrom (p * 64) (recordBytes kind seq body)), b)

/-! ### Shutdown records and the log (R311, R312) -/

/-- The newest valid shutdown record: slot and SEQ. -/
def newestShutdown (b : Block) : Option (Nat × Word) :=
  (List.range 64).foldl (fun best i =>
    match b.slotCopy 0x10 (0x1000 + i * 64) 64, best with
    | some c, some (j, s) => if newer c.1 s then some (i, c.1) else some (j, s)
    | some c, none => some (i, c.1)
    | none, _ => best) none

/-- Count the shutdown slots that hold neither a valid copy nor a blank one, as they are passed over (R307). -/
def countShutdownBad (b : Block) : Block :=
  let bad := (List.range 64).filter fun i =>
    (b.slotCopy 0x10 (0x1000 + i * 64) 64).isNone && !b.slotBlank (0x1000 + i * 64)
  if bad.isEmpty then b else b.inc Reg.LDG_CNT_B 15 0 bad.length

/-- The bytes of a shutdown record's write. -/
def shutdownBytes (body : List Byte) (b : Block) : List (Nat × Byte) :=
  match newestShutdown b with
  | none => spanFrom 0x1000 (recordBytes 0x10 1 body)
  | some (i, s) => spanFrom (0x1000 + (i + 1) % 64 * 64) (recordBytes 0x10 (s + 1) body)

/-- The 32 bytes of a log entry (R312). -/
def logBytes (code : BitVec 16) (src : Byte) (urgent : Bool) (seq : Word) (time : BitVec 64) (data : List Byte) :
    List Byte :=
  let h := leBytes 2 code.toNat ++ [src, BitVec.ofNat 8 (b2n urgent)] ++ leBytes 4 seq.toNat
    ++ leBytes 8 time.toNat ++ data.take 12
  h ++ leBytes 4 (crc32c h).toNat

/-- A valid log entry's sequence number. -/
def Block.logEntry (b : Block) (i : Nat) : Option Word :=
  let a := 0x4000 + i * 32
  if b.ldgWord (a + 28) = crc32c (b.ldgBytes a 28) then some (b.ldgWord (a + 4)) else none

/-- Indices of log entries that hold a programmed byte. -/
def Block.logUsed (b : Block) : List Nat :=
  (b.ldg.bytes.filter fun e => decide (0x4000 ≤ e.1) && decide (e.1 < 0x14000)).foldl
    (fun l e => let i := (e.1 - 0x4000) / 32; if l.head? == some i then l else i :: l) []

/-- The valid log entry with the newest sequence number. -/
def newestLog (b : Block) : Option (Nat × Word) :=
  b.logUsed.foldl (fun best i =>
    match b.logEntry i, best with
    | some s, some (j, t) => if newer s t then some (i, s) else some (j, t)
    | some s, none => some (i, s)
    | none, _ => best) none

/-! ### Starting and ending a write (R303, R304) -/

/-- The bytes a queued request programs, as its write starts; none where it ends with no write. -/
def requestBytes (q : LdgReq) (b : Block) : Option (List (Nat × Byte)) × Block :=
  match q with
  | .twin kind head body =>
    let (xs, seq, b) := twinBytes kind head body b
    (some xs, if kind = 0x04 then { b with ldg := { b.ldg with jsumSeq := seq } } else b)
  | .shutdown body => (some (shutdownBytes body b), countShutdownBad b)
  | .log code src urgent time data =>
    let i := b.fld Reg.LDG_LOG 10 0
    let seq := b.rd Reg.LDG_LOGSEQ
    let b := (b.wrN Reg.LDG_LOG ((i + 1) % 2048)).wr Reg.LDG_LOGSEQ (seq + 1)
    (some (spanFrom (0x4000 + i * 32) (logBytes code src urgent seq time data)), b)
  | .user _ kind body => userBytes kind body (userSeq kind b) b
  | .copy kind head body seq =>
    if kind = 0x20 then
      let (a, _, b) := twinTarget kind head b
      (some (spanFrom a (recordBytes kind seq body)), b)
    else userBytes kind body seq b
  | .ufree kind =>
    let (dir, b) := udirOf b
    let (xs, _, b) := twinBytes 0x05 0 (setUdir dir kind.toNat 0) b
    (some xs, b)
  | .raw xs => (some xs, b)

/-- The kind of the record that a request writes; 0 for a log entry and for bytes of the window. -/
def LdgReq.kind : LdgReq → Byte
  | .twin kind _ _ | .user _ kind _ | .copy kind _ _ _ => kind
  | .shutdown _ => 0x10
  | .ufree _ => 0x05
  | .log .. | .raw _ => 0

/-- The SEQ that the record of a request takes as its write starts. -/
def LdgReq.seqAt (b : Block) : LdgReq → Word
  | .twin kind head _ => (twinTarget kind head b).2.1
  | .user _ kind _ => userSeq kind b
  | .copy _ _ _ seq => seq
  | .ufree _ => (twinTarget 0x05 0 b).2.1
  | .shutdown _ => match newestShutdown b with
    | some (_, s) => s + 1
    | none => 1
  | .log .. => b.rd Reg.LDG_LOGSEQ
  | .raw _ => 0

/-- Start a write: its first page begins programming. -/
def startWrite (q : LdgReq) (b : Block) : Block :=
  let seq := q.seqAt b
  let (xs, b) := requestBytes q b
  match xs with
  | none => b
  | some xs => { b with ldg := { b.ldg with prog := some { req := q, seq := seq, pages := toPages xs } } }

/-- Program the page in progress (R303); the rest of the write remains. -/
def finishPage (b : Block) : Block :=
  match b.ldg.prog with
  | none => b
  | some p =>
    let b := programBytes (p.pages.headD []) b
    { b with ldg := { b.ldg with prog := if p.pages.length ≤ 1 then none else some { p with pages := p.pages.drop 1 } } }

/-- The registers that the ledger itself fills: LDG_UPAGES and LDG_SHUT (R319). -/
def refreshLedgerRegs (b : Block) : Block :=
  let (dir, _) := udirOf b
  let b := b.wrN Reg.LDG_UPAGES (freePages dir)
  match newestShutdown b with
  | none => b.wrN Reg.LDG_SHUT 0x80
  | some (i, _) => b.wrN Reg.LDG_SHUT i

/-- The body of a COUNTERS record (R310). -/
def countersBody (b : Block) : List Byte :=
  leBytes 4 b.ldg.powerCycles.toNat ++ leBytes 4 b.ldg.shutdowns.toNat
    ++ leBytes 8 (b.ldg.strikesBase.toNat + b.strikes) ++ leBytes 4 b.ldg.warmResets.toNat
    ++ leBytes 4 b.ldg.shutSeq.toNat

end Sys2Proof.Machine
end

