-- ==== Sys2Proof/Machine/Faults.lean ====
section
/-! DEFINITION. The journal and the fault summary (18_faults_and_recovery.md, R347 to R359). -/

namespace Sys2Proof.Machine

/-- A head's data-path state. -/
def Block.hd (b : Block) (h : Nat) : HeadSt := b.heads.get (fun _ => {}) h

/-- Replace a head's data-path state. -/
def Block.setHd (b : Block) (h : Nat) (x : HeadSt) : Block :=
  { b with heads := b.heads.set (fun _ => {}) h x }

/-- A pipeline's hidden state. -/
def Block.pl (b : Block) (p : Nat) : Pipe := b.pipes.get (fun _ => {}) p

/-- Replace a pipeline's hidden state. -/
def Block.setPl (b : Block) (p : Nat) (x : Pipe) : Block :=
  { b with pipes := b.pipes.set (fun _ => {}) p x }

/-- The pipeline a head uses (HD_BIND.CUR_PIPE); 31 while unbound. -/
def Block.curPipe (b : Block) (h : Nat) : Nat := b.fld (Reg.HD_BIND h) 28 24

/-- An action queue entry. -/
def Block.actE (b : Block) (i : Nat) : ActEntry := b.act.entries.get (fun _ => {}) i

/-- Replace an action queue entry. -/
def Block.setAct (b : Block) (i : Nat) (e : ActEntry) : Block :=
  { b with act := { b.act with entries := b.act.entries.set (fun _ => {}) i e } }

/-- Entries armed or executing (ACT_STAT.ARMED). -/
def Block.armedCount (b : Block) : Nat := (b.act.entries.filter fun e => e.2.st != 0).length

/-! ### The journal (R354 to R358) -/

/-- The journal header (R355): GEN, LAST, time and FLT_SUM are those of the last freeze. -/
def journalHeader (b : Block) : List Byte :=
  leBytes 4 (b.num Reg.FLT_JNL_GEN) ++ [b.jlast, 0, 0, 0] ++ leBytes 8 b.trail.frozeAt.toNat ++ leBytes 4 b.trail.frozeSum.toNat
    ++ leBytes 4 b.ldg.jsumSeq.toNat ++ leBytes 2 (b.fld (Reg.HOST_RING_WRIDX 0) 15 0)
    ++ leBytes 2 (b.fld (Reg.HOST_RING_WRIDX 1) 15 0) ++ leBytes 4 (b.num Reg.VRD_SEQ)
    ++ leBytes 4 (b.num Reg.SEAM_SEQ) ++ leBytes 4 b.armedCount ++ [BitVec.ofNat 8 (b.num Reg.PAIR_STAT % 16)]

/-- The open frame of a head. -/
def HeadSt.openFrame (x : HeadSt) : Option Frame := x.frames.find? fun f => f.st == .open_

/-- The frame of a head that is being restruck. -/
def HeadSt.restriking (x : HeadSt) : Option Frame := x.frames.find? fun f => f.st == .restriking

/-- Frames of a head queued for a restrike. -/
def HeadSt.queuedCount (x : HeadSt) : Nat := (x.frames.filter fun f => f.st == .queued).length

/-- Pending verdict entries that draw on a head. -/
def Block.pendOf (b : Block) (h : Nat) : Nat :=
  (b.vrd.pend.filter fun e => e.pending && e.ln.srcs.any fun q => q.1 == h).length

/-- A head record of 128 bytes (R356), but for the time of its last change. A cold reset clears the journal to zero (R354):
FRAME of the open frame, and under restrike, read 0 until the head has had one, or RELEASE has rebuilt every field (DESIGN CHOICE, log
entry 103). -/
def journalFields (b : Block) (h : Nat) : List Byte :=
  let x := b.hd h
  let seen := b.trail.seen.get (fun _ => (false, false)) h
  let (fo, fl) := match x.openFrame with
    | some f => (f.num.toNat, f.rx)
    | none => (if seen.1 || b.trail.rebuilt then 0xFFFFFFFF else 0, 0)
  let fr := match x.restriking with
    | some f => f.num.toNat
    | none => if seen.2 || b.trail.rebuilt then 0xFFFFFFFF else 0
  let bits := b2n (b.bound h) + 2 * b2n (b.linkUp h) + 4 * b2n (b.bit (Reg.HD_LINK_STAT h) 4)
    + 8 * b2n x.shut + 16 * b2n x.restriking.isSome
  let tap (t : Nat) : List Byte :=
    let v := b.taps.get (fun _ => (0, 0, 0)) (8 * h + t)
    leBytes 4 v.1.toNat ++ leBytes 2 v.2.1.toNat ++ leBytes 2 v.2.2
  leBytes 4 x.sealFrame.toNat ++ leBytes 4 fo ++ leBytes 2 fl ++ [0, 0] ++ leBytes 4 fr
    ++ [BitVec.ofNat 8 x.queuedCount, BitVec.ofNat 8 bits,
        BitVec.ofNat 8 (b.fld (Reg.CAL_H_STAT h) 3 0), BitVec.ofNat 8 (b.fld (Reg.HD_BANK h) 0 0)]
    ++ leBytes 2 (b.pendOf h) ++ [0, 0] ++ ((List.range 7).map tap).flatten
    ++ leBytes 4 (if b.curPipe h < 26 then b.num (Reg.PL_TDI_OUTSEQ (b.curPipe h)) else 0)

/-- A head record with the device time of its last change (R356). -/
def journalHead (b : Block) (h : Nat) : List Byte :=
  journalFields b h ++ leBytes 8 (b.trail.chg.get (fun _ => 0) h).toNat ++ List.replicate 36 0

/-- What the journal notes as `old` becomes `b` (R354, R356): heads with an open frame, with a restrike, and the time at
which a head's record changed. -/
def noteHeads (old b : Block) : Trail :=
  let see (m : SMap (Bool × Bool)) (h : Nat) : SMap (Bool × Bool) :=
    let s := m.get (fun _ => (false, false)) h
    m.set (fun _ => (false, false)) h (s.1 || (b.hd h).openFrame.isSome, s.2 || (b.hd h).restriking.isSome)
  let b := { b with trail := { b.trail with seen := (List.range 24).foldl see b.trail.seen } }
  { b.trail with chg := (List.range 24).foldl (fun m h =>
      if journalFields old h = journalFields b h then m else m.set (fun _ => 0) h (BitVec.ofNat 64 b.ns)) b.trail.chg }

/-- An action record of 8 bytes (R357). -/
def journalAct (e : ActEntry) : List Byte :=
  leBytes 2 (e.jst + 8 * b2n e.jlate + 16 * b2n e.jcut + 32 * e.jwriter + 256 * e.jkind) ++ leBytes 6 e.jtime.toNat

/-- A descriptor slot of 16 bytes (R358). -/
def journalSlot (v : Slot) : List Byte :=
  [BitVec.ofNat 8 v.stream, BitVec.ofNat 8 (v.st + 128 * b2n v.abandoned)] ++ leBytes 2 v.idx
    ++ leBytes 4 v.issued ++ leBytes 2 v.items ++ [v.outcome, 0, 0, 0, 0, 0]

/-- A thread record of 16 bytes (R354). -/
def journalThread (b : Block) (t : Nat) : List Byte :=
  let s := Reg.SEQ_T_STAT t
  leBytes 4 (b.fld s 29 16 + 65536 * b.fld s 3 0 + 2 ^ 20 * b.fld s 11 8 + 2 ^ 24 * b.fld s 6 4)
    ++ List.replicate 12 0

/-- The journal as the current state gives it (R354): bytes by journal offset, zeros not listed. -/
def journalOf (b : Block) : SMap Byte :=
  let put (m : SMap Byte) (a : Nat) (xs : List Byte) : SMap Byte := m.setList (fun _ => 0) a xs
  let m := put [] 0 (journalHeader b)
  let m := (List.range 24).foldl (fun m h => put m (0x100 + h * 0x80) (journalHead b h)) m
  let m := b.act.entries.foldl (fun m e => put m (0x1000 + e.1 * 8) (journalAct e.2)) m
  let m := b.host.slots.foldl (fun m e => put m (0x9000 + e.1 * 16) (journalSlot e.2)) m
  (List.range 4).foldl (fun m t => put m (0xD000 + t * 16) (journalThread b t)) m

/-- The journal as it reads: frozen, or live (R354). -/
def Block.journal (b : Block) : SMap Byte :=
  match b.frozen with
  | some j => j
  | none => journalOf b

/-- A word of the journal window. -/
def Block.journalWord (b : Block) (a : Nat) : Word :=
  BitVec.ofNat 32 (ofLe ((b.journal).getList (fun _ => 0) a 4))

/-- Freeze the journal (R354, R355). -/
def freezeJournal (last : Byte) (b : Block) : Block :=
  match b.frozen with
  | some _ => b
  | none =>
    let b := { (b.inc Reg.FLT_JNL_GEN 31 0 1).setBit Reg.FLT_JNL_STAT 0 with
      jlast := last, trail := { b.trail with frozeAt := BitVec.ofNat 64 b.ns, frozeSum := b.rd Reg.FLT_SUM } }
    { b with frozen := some (journalOf b) }

/-- The JSUM body (R359): its counts are those of the records of R357 and R358 in the journal as it reads. -/
def jsumBody (b : Block) : List Byte :=
  let j := b.journal
  let at_ (a n : Nat) : List Byte := j.getList (fun _ => 0) a n
  let head (h : Nat) : List Byte :=
    let r := 0x100 + h * 0x80
    let xs := at_ r 10 ++ at_ (r + 12) 4 ++ at_ (r + 17) 5 ++ at_ (r + 24 + 32) 6
    xs ++ List.replicate (32 - xs.length) 0
  let count (base size n field : Nat) (p : Byte → Bool) : Nat :=
    (j.filter fun e => decide (base ≤ e.1) && decide (e.1 < base + n * size) && (e.1 - base) % size == field && p e.2).length
  at_ 0 64 ++ ((List.range 24).map head).flatten
    ++ leBytes 4 (count 0x1000 8 4096 0 fun v => v.toNat % 8 == 1 || v.toNat % 8 == 2)
    ++ leBytes 4 (count 0x1000 8 4096 0 fun v => v.getLsbD 4)
    ++ leBytes 4 (count 0x9000 16 1024 1 fun v => decide (1 ≤ v.toNat % 8) && decide (v.toNat % 8 ≤ 4))
    ++ leBytes 4 (count 0x9000 16 1024 1 fun v => v.toNat % 8 == 4) ++ List.replicate 160 0

/-- A journal word as a read gives it: all ones where it is uncorrectable (R349). -/
def Block.journalRead (b : Block) (a : Nat) : Word :=
  if b.isBad (.journal (BitVec.ofNat 14 (a / 4))) then BitVec.allOnes 32 else b.journalWord a

/-! ### The fault summary (R347 to R350) -/

/-- Whether a JSUM may be queued now: at most one per second (R310). -/
def Block.jsumDue (b : Block) : Bool :=
  match b.ldg.lastJsum with
  | some t => decide (t + 1000 * tuMs ≤ b.now)
  | none => true

/-- Queue a JSUM record now. -/
def queueJsum (b : Block) : Block :=
  let b := queueWrite (.twin 0x04 0 (jsumBody b)) b
  { b with ldg := { b.ldg with lastJsum := some b.now, wantJsum := false } }

/-- Ask for a JSUM under the rate rule of R310. -/
def requestJsum (b : Block) : Block :=
  if b.jsumDue then queueJsum b else { b with ldg := { b.ldg with wantJsum := true } }

/-- Set bits of FLT_SUM (R347), hardware updates of the cycle (R376): for bits newly set, FIRST and FTIME, log entry 0x0003,
and a JSUM (R348). -/
def raiseFlt (bits : Word) (b : Block) : Block :=
  let b := forEach ((List.range 18).filter fun i => bits.getLsbD i) (fun i b => b.noteAgain Reg.FLT_SUM i) b
  let b := b.setUpd Reg.FLT_SUM (b.upd Reg.FLT_SUM ||| bits)
  let sum := b.rd Reg.FLT_SUM
  let new := bits &&& ~~~ sum
  if new = 0 then b
  else
    let b := if sum = 0 then
        let i := ((List.range 18).find? fun i => new.getLsbD i).getD 0
        (b.wrN Reg.FLT_FIRST (2 ^ 31 + i)).wr64 Reg.FLT_FTIME_LO (BitVec.ofNat 64 b.ns)
      else b
    let b := b.wr Reg.FLT_SUM (sum ||| bits)
    let b := queueLog 0x0003 0 true (leBytes 4 new.toNat ++ leBytes 4 (b.num Reg.FLT_SUM)) b
    requestJsum b

/-- Set one bit of FLT_SUM. -/
def raiseBit (i : Nat) (b : Block) : Block := raiseFlt (BitVec.ofNat 32 (2 ^ i)) b

/-- An uncorrectable SRAM error: counted and reported (R349). -/
def sramUe (n : Nat) (b : Block) : Block :=
  if n = 0 then b else raiseBit 12 (b.inc Reg.FLT_CNT_A 15 0 n)

/-- An uncorrectable HBM error: counted and reported (R349). -/
def hbmUe (n : Nat) (b : Block) : Block :=
  if n = 0 then b else raiseBit 13 (b.inc Reg.FLT_CNT_B 15 0 n)

/-- An active-member fault (R350): an unpaired device only sets ACTF; the active member of a pair also
sends a FAULT frame and releases its lanes and balls as it sends. -/
def activeFault (cause : Nat) (b : Block) : Block :=
  let b := raiseBit 17 (b.wrN Reg.FLT_ACTF_CAUSE cause)
  if b.member && b.role == 1 then
    { sendFrame .fault b with released := true }
  else b

end Sys2Proof.Machine
end

