-- ==== Sys2Proof/Machine/Compare.lean ====
section
/-! DEFINITION. Digests of a pair compared (17_pair_operation.md, R341, R342). -/

namespace Sys2Proof.Machine

/-- Replace the pair unit's hidden state. -/
def setPair (p : PairSt) (b : Block) : Block := { b with pair := p }

/-- A mismatch (R342): the first is kept until DIVERGE is cleared. -/
def diverge (kind head : Nat) (frame : Word) (line : Nat) (b : Block) : Block :=
  if b.bit Reg.PAIR_STAT 8 then b
  else
    let b := (b.wrN Reg.PAIR_DIV (kind * 256 + head)).wr Reg.PAIR_DIV_FRAME frame
    raiseBit 14 ((b.wrN Reg.PAIR_DIV_LINE line).setBit Reg.PAIR_STAT 8)

/-- Two digests are of the same frame, window or bank. -/
def sameSubject (a c : DigestFrame) : Bool := a.kind == c.kind && a.head == c.head && a.frame == c.frame

/-- Digests are exchanged: the members are in step and the link is up. -/
def Block.digestsOn (b : Block) : Bool := b.member && b.joinSt == 2 && b.bit Reg.PAIR_STAT 4

/-- Compare a digest with the other member's (R342): on a mismatch, DIVERGE and the LINECRC frames of the own
lines; a bank's digest has none. -/
def compareDigest (own theirs : DigestFrame) (b : Block) : Block :=
  if own.value == theirs.value then b
  else
    let b := diverge own.kind.val own.head.toNat own.frame 0xFFFF b
    if own.kind = 4 then b
    else match b.pair.ownCrcs.find? fun c => c.kind == own.kind && c.head == own.head && c.frame == own.frame with
    | some c => sendFrame (.linecrc c) b
    | none => b

/-- An own digest is complete (R341): sent to the partner, and compared with its digest where that has come first. The
64 newest are kept. -/
def ownDigest (d : DigestFrame) (crcs : List (BitVec 16 × Word)) (b : Block) : Block :=
  if !b.digestsOn then b
  else
    let p := b.pair
    let c : LineCrcFrame := { kind := d.kind, head := d.head, frame := d.frame, crcs := crcs }
    let b := setPair { p with own := (d :: p.own).take 64, ownCrcs := (c :: p.ownCrcs).take 64 } b
    let b := sendFrame (.digest d) b
    match p.theirs.find? (sameSubject d) with
    | some t => compareDigest d t b
    | none => b

/-- A digest of the partner arrives (R341, R342). -/
def partnerDigest (d : DigestFrame) (b : Block) : Block :=
  let p := b.pair
  let b := setPair { p with theirs := (d :: p.theirs).take 64 } b
  match p.own.find? (sameSubject d) with
  | some o => compareDigest o d b
  | none => b

/-- The first line of `a` whose CRC is not that line's in `c`. -/
def lineDiffers (a c : List (BitVec 16 × Word)) : Option (BitVec 16) :=
  (a.find? fun l => (c.find? fun m => m.1 == l.1).map Prod.snd != some l.2).map Prod.fst

/-- The first line whose CRCs differ, or that one member alone holds. -/
def firstDiffer (own theirs : List (BitVec 16 × Word)) : Option (BitVec 16) :=
  match lineDiffers own theirs, lineDiffers theirs own with
  | some a, some c => some (if a.toNat ≤ c.toNat then a else c)
  | some a, none => some a
  | none, c => c

/-- LINECRC frames of the partner arrive (R342): the first differing line is named. -/
def partnerCrcs (c : LineCrcFrame) (b : Block) : Block :=
  if b.bit Reg.PAIR_STAT 8 && b.num Reg.PAIR_DIV == c.kind.val * 256 + c.head.toNat && b.rd Reg.PAIR_DIV_FRAME == c.frame then
    match b.pair.ownCrcs.find? fun o => o.kind == c.kind && o.head == c.head && o.frame == c.frame with
    | some o =>
      match firstDiffer o.crcs c.crcs with
      | some l => if b.fld Reg.PAIR_DIV_LINE 15 0 == 0xFFFF then b.wrN Reg.PAIR_DIV_LINE l.toNat else b
      | none => b
    | none => b
  else b

end Sys2Proof.Machine
end

