-- ==== Sys2Proof/Machine/Binding.lean ====
section
/-! DEFINITION. Binding, banks, digests and rotation (01_architecture.md R19 to R25,
05_correction_core.md R86 to R112). -/

namespace Sys2Proof.Machine

/-! ### HBM (R19, R105) -/

/-- A byte of HBM. -/
def Block.hbmByte (b : Block) (a : Nat) : Byte := b.hbm.get (fun _ => 0) a

/-- `n` bytes of HBM from address `a`. -/
def Block.hbmBytes (b : Block) (a n : Nat) : List Byte := b.hbm.getList (fun _ => 0) a n

/-- A little-endian number of `n` bytes in HBM. -/
def Block.hbmNum (b : Block) (a n : Nat) : Nat := ofLe (b.hbmBytes a n)

/-- Write bytes to HBM with no side effect. -/
def hbmPut (a : Nat) (bytes : List Byte) (b : Block) : Block :=
  mendHbm a bytes.length { b with hbm := b.hbm.setList (fun _ => 0) a bytes }

/-- Address of a head's bank (R105); `bank` true for B. -/
def bankAddr (h : Nat) (bank : Bool) : Nat := h * 0x06000000 + (if bank then 0x03000000 else 0)

/-- The head and bank that an HBM address of the coefficient region falls in. -/
def bankOf (a : Nat) : Option (Nat × Bool) :=
  if a < 0x90000000 then some (a / 0x06000000, decide (0x03000000 ≤ a % 0x06000000)) else none

/-- The active bank of a head (HD_BANK.ACTIVE): true for B. -/
def Block.activeBank (b : Block) (h : Nat) : Bool := b.bit (Reg.HD_BANK h) 0

/-- Write the bank descriptor of a head to HBM (R106). -/
def syncDescriptor (h : Nat) (b : Block) : Block :=
  let x := b.hd h
  let (anchor, cols, rows) := match (b.port h).hdr with
    | some c => (c.anchor, c.cols, c.rows)
    | none => (0, 0, 0)
  hbmPut (0xAE000000 + h * 0x40)
    (leBytes 4 anchor ++ leBytes 2 cols ++ leBytes 2 rows ++ leBytes 4 x.digA.toNat ++ leBytes 4 x.digB.toNat
      ++ leBytes 4 x.actFrame.toNat ++ [BitVec.ofNat 8 (b.fld (Reg.HD_BANK h) 0 0),
        BitVec.ofNat 8 (b.fld (Reg.HD_BANK h) 6 5)] ++ [0, 0] ++ leBytes 4 x.switches) b

/-- A write has landed in a bank: its valid bit clears, and a digest of it in progress is spoilt (R103). -/
def noteBankWrite (h : Nat) (bank : Bool) (b : Block) : Block :=
  let b := b.clrBit (Reg.HD_BANK h) (if bank then 6 else 5)
  let x := b.hd h
  let b := match x.dig with
    | some j => if j.bank == bank then b.setHd h { x with dig := some { j with dirty := true } } else b
    | none => b
  syncDescriptor h b

/-- The digest of a bank (R103): CRC-32C over its COLS × ROWS records. -/
def Block.bankDigest (b : Block) (h : Nat) (bank : Bool) : Word :=
  match (b.port h).hdr with
  | some c => crc32c (b.hbmBytes (bankAddr h bank) (c.cols * c.rows * 16))
  | none => 0

/-- Store a bank's digest as valid (R103). -/
def setDigest (h : Nat) (bank : Bool) (d : Word) (b : Block) : Block :=
  let x := b.hd h
  let b := b.setHd h (if bank then { x with digB := d } else { x with digA := d })
  syncDescriptor h (b.setBit (Reg.HD_BANK h) (if bank then 6 else 5))

/-- Start computing a bank's digest (R103). -/
def startDigest (h : Nat) (bank restore : Bool) (b : Block) : Block :=
  let x := b.hd h
  (b.setHd h { x with dig := some { bank := bank, dirty := false, restore := restore } }).setBit (Reg.HD_BANK h) 4

/-- The Class C grant (BUD_STAT.C_GRANT). -/
def Block.cGrant (b : Block) : Bool := b.bit Reg.BUD_STAT 3

/-- Class C work that reads or writes HBM may run (R293): the grant, and no deferral of bulk transfers. -/
def Block.cBulk (b : Block) : Bool := b.cGrant && !b.bit Reg.BUD_STAT 6

/-- A BIST waits to start on a drained pipeline (R109). -/
def Block.bistReady (b : Block) (p : Nat) : Bool := (b.pl p).bistWait && !b.bit (Reg.PL_STAT p) 14

/-- Frame `f` has been decided or has lapsed. -/
def Frame.decided (f : Frame) : Bool := f.st == .sealed || f.st == .lapsed

/-- RETAIN (R104): a frame not yet sealed was corrected with the inactive bank. -/
def refreshRetain (h : Nat) (b : Block) : Block :=
  let act := b.activeBank h
  b.putBit (Reg.HD_BANK h) 2 ((b.hd h).frames.any fun f => !f.decided && f.bank != act && !f.lines.isEmpty)

/-- Make the other bank active (R102, R106). -/
def switchBank (h : Nat) (b : Block) : Block :=
  let b := (b.putBit (Reg.HD_BANK h) 0 (!b.activeBank h)).clrBit (Reg.HD_BANK h) 1
  let x := b.hd h
  let b := b.setHd h { x with actFrame := 0xFFFFFFFF, switches := min (x.switches + 1) 0xFFFFFFFF }
  let b := refreshRetain h b
  let new := b.activeBank h
  let b := if b.bit (Reg.HD_BANK h) (if new then 6 else 5) then b
    else match (b.hd h).dig with
      | none => startDigest h new false b
      | some j => if j.bank == new && !j.dirty then b else b.setHd h { b.hd h with digOwed := true }
  syncDescriptor h b

/-- The head has an open frame (R22). -/
def Block.frameOpen (b : Block) (h : Nat) : Bool := (b.hd h).openFrame.isSome

/-! ### Pipelines -/

/-- PL_STAT.SPARE: not bound, not retired, not in BIST, not reserved (Rotation, R107). -/
def refreshSpare (p : Nat) (b : Block) : Block :=
  let s := Reg.PL_STAT p
  b.putBit s 9 (!b.bit s 8 && !b.bit s 11 && !b.bit s 10 && !(b.pl p).bistWait && !(b.pl p).reserved)

/-- Set PL_ROT.CODE. -/
def setRot (p code : Nat) (b : Block) : Block := b.setFld (Reg.PL_ROT p) 3 0 code

/-- Bind a pipeline to a head in PL_STAT, or free it (31). -/
def plAssign (p h : Nat) (b : Block) : Block :=
  refreshSpare p ((b.putBit (Reg.PL_STAT p) 8 (decide (h < 24))).setFld (Reg.PL_STAT p) 4 0 h)

/-- Lines of a head's closed frames have not all left stage 8 of pipeline `p`. -/
def HeadSt.inFlight (x : HeadSt) (p : Nat) : Bool :=
  x.frames.any fun f => f.pipe == p && f.st != .open_ && decide (f.emitted < f.lines.length)

/-- PL_STAT.DRAIN of a pipeline that a head has left (R108). -/
def refreshDrain (p : Nat) (b : Block) : Block :=
  match (b.pl p).drainHead with
  | some h =>
    if (b.hd h).inFlight p then b.setBit (Reg.PL_STAT p) 14
    else (b.setPl p { b.pl p with drainHead := none }).clrBit (Reg.PL_STAT p) 14
  | none => b

/-- A pipeline has been vacated by a head: it drains, and BIST waits where one was requested. -/
def vacate (p h : Nat) (bist : Bool) (b : Block) : Block :=
  let b := b.setPl p { b.pl p with drainHead := some h, bistWait := (b.pl p).bistWait || bist }
  refreshDrain p (plAssign p 31 b)

/-- The stage registers of a pipeline, offsets 0x080 to 0x3FF (R108), as words. -/
def Block.stageRegs (b : Block) (p : Nat) : List Word :=
  (List.range 224).map fun i => b.rd (0x1A0000 + p * 0x1000 + 0x80 + 4 * i)

/-- Write words to consecutive registers. -/
def putRegs : Nat → List Word → Block → Block
  | _, [], b => b
  | off, w :: ws, b => putRegs (off + 4) ws (b.wr off w)

/-- The forecast range of a pipeline left behind reads reset values (R133). -/
def resetForecastRegs (p : Nat) (b : Block) : Block :=
  forEach (List.range 16) (fun i b =>
    let o := 0x1A0000 + p * 0x1000 + 0x80 + 4 * i
    b.wr o (resetOf o)) b

/-- The stage state of a pipeline as it stood at the start of the current register cycle (R90, R108). -/
def Block.stageStart (b : Block) (p : Nat) : StageCopy :=
  let q := b.start.pipes.get (fun _ => {}) p
  { regs := (List.range 224).map fun i => b.start.regs.get resetOf (0x1A0000 + p * 0x1000 + 0x80 + 4 * i)
    emis := q.emis
    tone := q.tone
    palette := q.palette }

/-- Apply a pending rotation move (R108) of a head from pipeline `p`. -/
def applyMove (h p : Nat) (b : Block) : Block :=
  let s := (b.pl p).moveTo
  let c := b.stageStart p
  let b := putRegs (0x1A0000 + s * 0x1000 + 0x80) c.regs b
  let b := b.setPl s { b.pl s with reserved := false, emis := c.emis, tone := c.tone, palette := c.palette }
  let b := plAssign s h b
  let b := resetForecastRegs p b
  let b := (b.clrBit (Reg.PL_STAT p) 12).setFld (Reg.HD_BIND h) 28 24 s
  vacate p h true (setRot p 2 b)

/-- Apply a pending unbind (R22, R87, R90): the head's undecided frames keep a copy of the stage
registers for their restrike. -/
def applyUnbind (h : Nat) (b : Block) : Block :=
  let p := b.curPipe h
  let copy := b.stageStart p
  let x := b.hd h
  let b := b.setHd h { x with
    rate := 0, accum := 0, lastPipe := p
    frames := x.frames.map fun f => if f.decided then f else { f with regsCopy := some copy } }
  let b := ((b.clrBit (Reg.HD_BIND h) 31).clrBit (Reg.HD_BIND h) 30).setFld (Reg.HD_BIND h) 28 24 31
  let bist := b.fld (Reg.PL_ROT p) 3 0 == 1
  vacate p h bist (if bist then setRot p 2 b else b)

/-- The rows a head reads per strike (R23). -/
def Block.rowsOf (b : Block) (h : Nat) : Nat :=
  if b.bit (Reg.HD_FMT h) 0 then b.fld (Reg.HD_FMT h) 15 8 else b.fld (Reg.HD_GEOM h) 26 16

/-- The declared columns of a head. -/
def Block.colsOf (b : Block) (h : Nat) : Nat := b.fld (Reg.HD_GEOM h) 11 0

/-- Band mode (HD_FMT.BAND). -/
def Block.bandMode (b : Block) (h : Nat) : Bool := b.bit (Reg.HD_FMT h) 0

/-- Test 5 of R23 with the window of R88. -/
def Block.geomOk (b : Block) (h wx wy : Nat) : Bool :=
  let c := b.colsOf h
  let r := b.rowsOf h
  let d := b.fld (Reg.HD_FMT h) 20 16
  let (mc, mr) := match (b.port h).hdr with
    | some x => (x.cols, x.rows)
    | none => (0, 0)
  c % 32 == 0 && decide (32 ≤ c) && decide (c ≤ 2048) && r % 2 == 0
    && (if b.bandMode h then decide (16 ≤ r) && decide (r ≤ 128) else decide (2 ≤ r) && decide (r ≤ 1536))
    && decide (12 ≤ d) && decide (d ≤ 16) && decide (1 ≤ b.num (Reg.HD_RATE h))
    && decide (wx * 32 + c ≤ mc) && decide (wy * 2 + r ≤ mr)

/-- The admission check (R23, R24): the result code of binding head `h` to pipeline `p`. A pipeline whose requested BIST
only waits to start is refused as one that runs it (DESIGN CHOICE, log entry 112). -/
def admission (h p wx wy : Nat) (b : Block) : Nat :=
  let rate := b.colsOf h * b.rowsOf h * b.num (Reg.HD_RATE h)
  let acc := if b.bandMode h then b.colsOf h * b.rowsOf h * 4 else 0
  let total := b.heads.foldl (fun n e => n + e.2.rate) 0
  let accTotal := b.heads.foldl (fun n e => n + e.2.accum) 0
  let st := Reg.PL_STAT p
  if !b.bit (Reg.HD_LINK_STAT h) 4 then 4
  else if b.bound h then 3
  else if 26 ≤ p then 2
  else if b.bit st 8 || (b.pl p).reserved then 1
  else if b.bit st 11 || b.bit st 10 || (b.pl p).bistWait then 2
  else if !b.geomOk h wx wy then 5
  else if 800000000 < rate then 6
  else if 12000000000 < rate + total then 7
  else if b.bandMode h && 12582912 < acc + accTotal then 8
  else 0

/-- The SRC and THREAD fields of HD_BINDSTAT for a requester (R89). -/
def bindSrc : Requester → Nat
  | .host => 0
  | .svc => 0
  | .thread t => 256 + t.val * 512

/-- SET_MODE at bind (R73, R88): mode, columns, rows, depth, window origin in pixels. -/
def setModeCmd (h : Nat) (b : Block) : Block :=
  let f := b.fld (Reg.HD_BIND h)
  queueCmd h { opc := 0x06, org := .bind, payload := (
    leBytes 2 (b2n (b.bandMode h)) ++ leBytes 2 (b.colsOf h) ++ leBytes 2 (b.rowsOf h)
      ++ leBytes 2 (b.fld (Reg.HD_FMT h) 20 16) ++ leBytes 2 (f 11 6 * 32) ++ leBytes 2 (f 21 12 * 2)) } b

/-- Request a bind (R23, R87, R89): the code, and what an accepted bind does to the head and pipeline. -/
def requestBind (r : Requester) (h p wx wy : Nat) (b : Block) : Nat × Block :=
  let code := admission h p wx wy b
  let b := b.wrN (Reg.HD_BINDSTAT h) (2 ^ 31 + bindSrc r + code)
  if code ≠ 0 then (code, b)
  else
    let x := b.hd h
    let b := b.setHd h { x with
      rate := b.colsOf h * b.rowsOf h * b.num (Reg.HD_RATE h),
      accum := if b.bandMode h then b.colsOf h * b.rowsOf h * 4 else 0 }
    let b := (b.setBit (Reg.HD_BIND h) 31).setFld (Reg.HD_BIND h) 28 24 p
    let b := b.setPort h { b.port h with heldReload := false }
    (0, setModeCmd h (plAssign p h b))

/-! ### BIST requests (R107) -/

/-- The lowest-numbered spare. -/
def Block.lowestSpare (b : Block) : Option Nat := (List.range 26).find? fun s => b.bit (Reg.PL_STAT s) 9

/-- Reserve the lowest-numbered spare for a move out of a bound pipeline, or refuse the request (R107). -/
def reserveSpare (p : Nat) (b : Block) : Block :=
  match b.lowestSpare with
  | none => b.wrN (Reg.PL_ROT p) 0x1F05
  | some s =>
    let b := refreshSpare s (b.setPl s { b.pl s with reserved := true })
    let b := b.setPl p { b.pl p with moveTo := s }
    (b.wrN (Reg.PL_ROT p) (s * 256 + 1)).setBit (Reg.PL_STAT p) 12

/-- The spare of a pending move is given back. -/
def dropSpare (p : Nat) (b : Block) : Block :=
  let s := (b.pl p).moveTo
  refreshSpare s ((b.setPl s { b.pl s with reserved := false }).clrBit (Reg.PL_STAT p) 12)

/-- Pipelines above `p` whose move was requested in the current cycle and is pending (noted at PL_ROT's offset + 2). -/
def Block.laterMoves (b : Block) (p : Nat) : List Nat :=
  (List.range 26).filter fun q => decide (p < q) && b.bit (Reg.PL_STAT q) 12 && b.upd (Reg.PL_ROT q + 2) != 0

/-- A BIST request for a pipeline (R107). Every request that reserves no spare leaves PL_ROT.TO at 0x1F. Requests of one cycle
reserve in ascending order of the pipelines: those above `p` choose again after it. A request of a pipeline whose BIST waits
to start is discarded like one whose BIST runs, and a move already made at a boundary stays (DESIGN CHOICE, log entries
147 and 148). -/
def requestBist (p : Nat) (b : Block) : Block :=
  let st := Reg.PL_STAT p
  if b.bit st 10 || (b.pl p).bistWait || b.bit st 12 then b.wrN (Reg.PL_ROT p) 0x1F07
  else if b.bit st 11 || !b.bit st 8 then
    let b := b.wrN (Reg.PL_ROT p) 0x1F02
    refreshSpare p (b.setPl p { b.pl p with bistWait := true })
  else if b.bit (Reg.HD_BIND (b.fld st 4 0)) 30 then b.wrN (Reg.PL_ROT p) 0x1F01
  else
    let later := b.laterMoves p
    forEach (p :: later) reserveSpare (forEach later dropSpare (b.setUpd (Reg.PL_ROT p + 2) 1))

/-- Cancel a pending move (R107). -/
def cancelBist (p : Nat) (b : Block) : Block :=
  if b.bit (Reg.PL_STAT p) 12 then
    setRot p 6 (dropSpare p b)
  else b

/-- The DEVPARAM body (R310): the retired mask and each pipeline's FAIL_UNIT at its retirement. -/
def devparamBody (b : Block) : List Byte :=
  let mask := (List.range 26).foldl (fun m p => m + 2 ^ p * b2n (b.bit (Reg.PL_STAT p) 11)) 0
  leBytes 4 mask ++ (List.range 26).map (fun p => BitVec.ofNat 8 (b.pl p).retUnit) ++ [0, 0]

/-- The end of a BIST (R109): `fail` is the failing unit, 0 for a pass. -/
def endBist (p fail : Nat) (b : Block) : Block :=
  let b := (b.clrBit (Reg.PL_STAT p) 10).inc (Reg.PL_CNT_C p) 31 16 1
  let wasRetired := b.bit (Reg.PL_STAT p) 11
  if fail = 0 then refreshSpare p (setRot p 3 b)
  else
    let b := (setRot p 4 b).setFld (Reg.PL_BIST_RES p) 3 0 fail
    if wasRetired then b
    else
      let b := refreshSpare p ((b.setPl p { b.pl p with retUnit := fail }).setBit (Reg.PL_STAT p) 11)
      let b := queueWrite (.twin 0x01 0 (devparamBody b)) b
      raiseBit 3 (logT24 0x0001 true [BitVec.ofNat 8 p, BitVec.ofNat 8 fail] b)

/-- The residue check of a closing frame (R99). -/
def residueCheck (p mism : Nat) (b : Block) : Block :=
  let b := b.wrN (Reg.PL_RES_LAST p) (min mism 0xFFFF)
  if b.fld (Reg.PL_RES p) 15 0 < mism then
    let b := raiseBit 2 ((b.setBit (Reg.PL_STAT p) 13).inc (Reg.PL_RES_CNT p) 31 16 1)
    if b.bit (Reg.PL_CTL p) 0 then requestBist p b else b
  else b

end Sys2Proof.Machine
end

