-- ==== Sys2Proof/Machine/Defect.lean ====
section
/-! DEFINITION. The defect table and its edits (07_response_and_noise.md, R149 to R154, R156). -/

namespace Sys2Proof.Machine

/-- Bits [26:0] of an entry: HEAD, ROW, COL. -/
def defKey (w : Word) : Nat := fieldOf w 26 0

/-- HEAD of an entry. -/
def defHead (w : Word) : Nat := fieldOf w 26 22

/-- Add or replace an entry, keeping the order of keys (R150). -/
def defInsert (w : Word) : List Word → List Word
  | [] => [w]
  | v :: vs => if defKey w = defKey v then w :: vs else if defKey w < defKey v then w :: v :: vs else v :: defInsert w vs

/-- Number of valid entries the table holds (R149). -/
abbrev defSize : Nat := 131072

/-- A head has a loaded characterisation (HD_LINK_STAT.READY). -/
def Block.ready (b : Block) (h : Nat) : Bool := b.bit (Reg.HD_LINK_STAT h) 4

/-- An edit whose key is out of limits (R154, RESULT 5). -/
def defBadKey (cmd : Nat) (w : Word) (b : Block) : Bool :=
  let h := defHead w
  if 23 < h then true
  else if cmd = 2 then false
  else match (b.port h).hdr with
    | some c => !b.ready h || decide (c.rows ≤ fieldOf w 21 11) || decide (c.cols ≤ fieldOf w 10 0)
    | none => true

/-- Apply an edit to the table (R154): 0 INSERT, 1 DELETE, 2 CLEAR_HEAD; its result. -/
def defApply (cmd : Nat) (w : Word) (t : List Word) : List Word × Nat :=
  let present := t.any fun v => defKey v == defKey w
  match cmd with
  | 0 => if present then (defInsert w t, 2) else if defSize ≤ t.length then (t, 4) else (defInsert w t, 0)
  | 1 => if present then (t.filter fun v => defKey v != defKey w, 0) else (t, 3)
  | _ => (t.filter fun v => defHead v != defHead w, 0)

/-- Refresh DEF_STAT.BUSY and PEND. -/
def refreshDef (b : Block) : Block :=
  (b.putBit Reg.DEF_STAT 31 b.defEdit.isSome).setFld Reg.DEF_STAT 30 24 b.defQueue.length

/-- Start the next queued edit that waits for no boundary, where none is in progress (R154). -/
def startEdit (b : Block) : Block :=
  match b.defEdit, b.defQueue.find? fun q => !q.2.2 with
  | none, some q => refreshDef { b with defEdit := some (q.1, q.2.1, true), defQueue := b.defQueue.erase q }
  | _, _ => refreshDef b

/-- A DEF_CMD command (R154). It is queued where it touches a bound head with an open frame or where an edit
is in progress; on a bound head it reads RESULT 1; else it is applied at once, with BUSY. -/
def defCommand (cmd : Nat) (b : Block) : Block :=
  let w := b.rd Reg.DEF_KEY
  let result (n : Nat) (b : Block) : Block := b.setFld Reg.DEF_STAT 3 0 n
  if 64 ≤ b.defQueue.length then result 6 b
  else if defBadKey cmd w b then result 5 b
  else
    let waits := b.bound (defHead w) && b.frameOpen (defHead w)
    if b.bound (defHead w) || b.defEdit.isSome then
      startEdit { result 1 b with defQueue := b.defQueue ++ [(cmd, w, waits)] }
    else
      let r := (defApply cmd w b.defTab).2
      refreshDef { result r b with defEdit := some (cmd, w, false) }

/-- The last cycle of the edit in progress (R154): the table changes, LAST takes the result of an edit that
had been queued, and the next edit starts. -/
def defEditDone (b : Block) : Block :=
  match b.defEdit with
  | none => b
  | some q =>
    let (t, r) := defApply q.1 q.2.1 b.defTab
    let b := mend (fun u => match u with
      | .defect k => k.toNat == defKey q.2.1 || !(t.any fun w => defKey w == k.toNat)
      | _ => false) { b with defTab := t, defEdit := none }
    startEdit (if q.2.2 then b.setFld Reg.DEF_STAT 7 4 r else b)

/-- A head's frame boundary releases its queued edits, in issue order (R154). -/
def releaseEdits (h : Nat) (b : Block) : Block :=
  startEdit { b with defQueue := b.defQueue.map fun q => if defHead q.2.1 = h then (q.1, q.2.1, false) else q }

/-- A head's defect list in its table section (R153). -/
def defList (tables : List Byte) : List Word :=
  if tables.length < 0x80004 then []
  else
    let n := ofLe ((tables.drop 0x80000).take 4)
    (List.range (min n ((tables.length - 0x80004) / 4))).map fun i =>
      BitVec.ofNat 32 (ofLe ((tables.drop (0x80004 + 4 * i)).take 4))

/-- The merge of a head's list (R153): whether it succeeds. -/
def defMerge (h cols rows : Nat) (list : List Word) (b : Block) : Bool × Block :=
  let kept := list.filter fun w => decide (fieldOf w 21 11 < rows) && decide (fieldOf w 10 0 < cols)
  let old := b.defTab.filter fun w => defHead w != h
  let new := kept.foldl (fun t w => defInsert (setFieldOf (setFieldOf w 31 30 0) 26 22 h) t) old
  let b := mend (fun u => match u with | .defect k => fieldOf (k.setWidth 32) 26 22 == h | _ => false) b
  if defSize < new.length then (false, { b with defTab := old })
  else (true, { b.inc Reg.DEF_STAT 23 8 (list.length - kept.length) with defTab := new })

/-- DEF_HCNT and DEF_HBASE of a head (R156). -/
def Block.defCount (b : Block) (h : Nat) : Nat := (b.defTab.filter fun w => defHead w == h).length
def Block.defBase (b : Block) (h : Nat) : Nat := (b.defTab.filter fun w => decide (defHead w < h)).length

/-- The entry at an index; 0x07C0_0000 marks an empty one. -/
def Block.defAt (b : Block) (i : Nat) : Word := b.defTab.getD i 0x07C00000

end Sys2Proof.Machine
end

