-- ==== Sys2Proof/Machine/Forecast.lean ====
section
/-! DEFINITION. The forecast, its bound and the measured temperature (06_forecast_and_seal.md, R113 to
R119). -/

namespace Sys2Proof.Machine

/-- Sum of a list of rationals. -/
def sumRat (xs : List Rat) : Rat := xs.foldl (· + ·) 0

/-- Number of distinct values in a list. -/
def distinct : List Int → Nat
  | [] => 0
  | x :: xs => if xs.contains x then distinct xs else distinct xs + 1

/-- The determinant of a 3 × 3 matrix, by rows. -/
def det3 (a b c d e f g h i : Rat) : Rat := a * (e * i - f * h) - b * (d * i - f * g) + c * (d * h - e * g)

/-- The value at `u` of the least-squares polynomial of degree `deg` through points (R114). -/
def fitAt (deg : Nat) (pts : List (Int × Rat)) (u : Rat) : Rat :=
  let s (k : Nat) : Rat := sumRat (pts.map fun p => (p.1 : Rat) ^ k)
  let t (k : Nat) : Rat := sumRat (pts.map fun p => p.2 * (p.1 : Rat) ^ k)
  match deg with
  | 0 => t 0 / s 0
  | 1 =>
    let d := s 0 * s 2 - s 1 * s 1
    (t 0 * s 2 - t 1 * s 1) / d + (s 0 * t 1 - s 1 * t 0) / d * u
  | _ =>
    let d := det3 (s 0) (s 1) (s 2) (s 1) (s 2) (s 3) (s 2) (s 3) (s 4)
    let c0 := det3 (t 0) (s 1) (s 2) (t 1) (s 2) (s 3) (t 2) (s 3) (s 4) / d
    let c1 := det3 (s 0) (t 0) (s 2) (s 1) (t 1) (s 3) (s 2) (t 2) (s 4) / d
    let c2 := det3 (s 0) (s 1) (t 0) (s 1) (s 2) (t 1) (s 2) (s 3) (t 2) / d
    c0 + c1 * u + c2 * u * u

/-- The forecast F(t) of R114 from readings (oldest first), the anchor temperature, MODE and K_BIAS. -/
def forecast (rs : List Reading) (anchor mode : Nat) (kBias : Int) (t : Nat) : Nat :=
  match rs.getLast? with
  | none => anchor
  | some last =>
    let n := rs.length
    if n = 1 || mode = 2 then last.t.toNat
    else
      let eN : Int := last.e.toNat
      let pts : List (Int × Rat) := rs.map fun r => ((r.e.toNat : Int) - eN, (r.t.toNat : Rat))
      let first : Int := match pts with
        | p :: _ => p.1
        | [] => 0
      let u0 : Rat := ((t : Int) - eN : Int)
      let lim : Rat := (4 * (-first) : Int) / ((n - 1 : Nat) : Rat)
      let u := if lim < u0 then lim else u0
      let want := if n = 2 || mode = 1 then 1 else 2
      let deg := min want (distinct (pts.map Prod.fst) - 1)
      let bias : Rat :=
        if 3 ≤ n && mode != 1 then
          let mean := sumRat (rs.map fun r => (r.b.toNat : Rat)) / (n : Rat)
          (kBias : Rat) * ((last.b.toNat : Rat) - mean) / 65536
        else 0
      satU 32 (roundRat (fitAt deg pts u + bias))

/-- The anchor temperature of a head (R77). -/
def Block.anchor (b : Block) (h : Nat) : Nat :=
  match (b.port h).hdr with
  | some c => c.anchor
  | none => 0

/-- PL_FC_CTL.MODE; 3 acts as 0 (R133). -/
def Block.fcMode (b : Block) (p : Nat) : Nat := b.fld (Reg.PL_FC_CTL p) 1 0 % 3

/-- The forecast of head `h`, bound to pipeline `p`, at device time `t`. -/
def Block.forecastAt (b : Block) (h p t : Nat) : Nat :=
  forecast (b.hd h).readings (b.anchor h) (b.fcMode p) (b.snum (Reg.PL_K_BIAS p)) t

/-- The bound β of a head as R116 computes it, from pipeline registers by offset. -/
def HeadSt.betaBy (x : HeadSt) (reg : Nat → Word) : Nat :=
  let tol := fieldOf (reg 0x8C) 15 0
  let v :=
    if x.readings.length < 8 then max tol (fieldOf (reg 0x94) 23 0)
    else
      let k := max 0x10 (fieldOf (reg 0x80) 31 24)
      let win := max 1 (fieldOf (reg 0x80) 23 16)
      let m := (x.eps.take win).foldl max 0
      max tol (max (fieldOf (reg 0x90) 23 0) (roundDiv (k * m : Nat) 16).toNat)
  min v 0xFFFFFF

/-- The bound β with the registers of pipeline `p`; with none, by their reset values (DESIGN CHOICE, log entry 125). -/
def Block.computeBeta (b : Block) (h p : Nat) : Nat :=
  (b.hd h).betaBy fun off => if p < 26 then b.rd (0x1A0000 + p * 0x1000 + off) else resetOf (0x1A0000 + off)

/-- The pipeline whose registers describe a head (R133): its own; of an unbound head the one it has left, until another head
is bound there (DESIGN CHOICE, log entry 125). -/
def Block.regPipe (b : Block) (h : Nat) : Nat :=
  let q := (b.hd h).lastPipe
  if b.curPipe h < 26 then b.curPipe h else if q < 26 && !b.bit (Reg.PL_STAT q) 8 then q else 31

/-- The forecast registers that describe a bound head (R133). -/
def refreshForecast (h p : Nat) (b : Block) : Block :=
  if 26 ≤ p then b
  else
    let x := b.hd h
    let win := max 1 (b.fld (Reg.PL_FC_CTL p) 23 16)
    let n := min 8 x.readings.length
    let st := Reg.PL_FC_STAT p
    let b := (b.setFld st 3 0 n).putBit st 5 (decide (n < 8))
    let b := b.putBit st 6 (x.frames.any fun f => f.st == .waiting)
    let b := (b.putBit st 7 x.restriking.isSome).setFld st 9 8 (min 3 x.queuedCount)
    let b := b.wrN (Reg.PL_EPS_MAX p) ((x.eps.take win).foldl max 0)
    b.wrN (Reg.PL_BOUND p) (x.beta.getD (b.computeBeta h p))

/-- Recompute β from pipeline registers by offset (R116). -/
def recomputeBetaBy (h : Nat) (reg : Nat → Word) (b : Block) : Block :=
  let x := b.hd h
  refreshForecast h (b.regPipe h)
    (b.setHd h { x with beta := some (x.betaBy reg), betaCold := decide (x.readings.length < 8) })

/-- Recompute β with the registers of the head's pipeline (R116). -/
def recomputeBeta (h p : Nat) (b : Block) : Block :=
  if 26 ≤ p then b else recomputeBetaBy h (fun off => b.rd (0x1A0000 + p * 0x1000 + off)) b

/-- Take a reading (R113): the 8 most recent are kept. -/
def addReading (h : Nat) (r : Reading) (b : Block) : Block :=
  let x := b.hd h
  let rs := x.readings ++ [r]
  refreshForecast h (b.curPipe h) (b.setHd h { x with readings := rs.drop (rs.length - 8) })

/-- Clear the readings; with `window`, the ε window too (R113, R133). -/
def clearReadings (h : Nat) (window : Bool) (b : Block) : Block :=
  let x := b.hd h
  recomputeBeta h (b.curPipe h) (b.setHd h { x with readings := [], eps := if window then [] else x.eps })

/-- The measured temperature M(a) (R118). -/
def measured (before : Option Reading) (g : Reading) (a : BitVec 64) : Nat :=
  match before with
  | none => g.t.toNat
  | some p =>
    let de : Int := (g.e.toNat : Int) - p.e.toNat
    if de = 0 then g.t.toNat
    else
      let q : Rat := (p.t.toNat : Rat) + (((g.t.toNat : Int) - p.t.toNat : Int) : Rat)
        * (((a.toNat : Int) - p.e.toNat : Int) : Rat) / (de : Rat)
      satU 32 (roundRat q)

/-- The seal error ε of a frame (R119); none where no line of it was emitted (R133; DEDUCED, log entry 149). -/
def sealError (f : Frame) (g : Reading) : Option Nat :=
  if f.lines.isEmpty then none
  else some (f.lines.foldl (fun m l => max m ((measured f.before g l.a : Int) - l.f).natAbs) 0)

/-- Replace a frame of a head, found by its order. -/
def setFrame (h : Nat) (f : Frame) (b : Block) : Block :=
  let x := b.hd h
  b.setHd h { x with frames := x.frames.map fun g => if g.id = f.id then f else g }

/-- Frames waiting for a measured temperature take a reading that arrives (R118): each is decided 64 + L
cycles after it (R119), `sub` after the last tick. -/
def completeWaiting (h sub : Nat) (r : Reading) (b : Block) : Block :=
  let x := b.hd h
  b.setHd h { x with frames := x.frames.map fun f =>
    if f.st == .waiting then { f with st := .closed, meas := some r, decideAt := some (b.now + sub + (64 + f.lines.length) * tuNs) }
    else f }

/-- The seal record of a frame (R130); bytes 48 to 55 take the time of issue. -/
def sealRecord (h : Nat) (f : Frame) (outcome : Nat) (abandoned : Bool) : List Byte :=
  let pos := match f.lines.head?.bind RawLine.pos with
    | some p => (p.signExtend 64).toNat
    | none => 2 ^ 64 - 1
  let flags := b2n f.breach + 2 * b2n f.noTrailer + 4 * b2n f.fault + 8 * b2n (f.lines.any (·.supply)) + 16 * b2n abandoned
  [0x21, BitVec.ofNat 8 h, BitVec.ofNat 8 outcome, BitVec.ofNat 8 flags] ++ leBytes 4 f.num.toNat
    ++ leBytes 2 f.emitted ++ [BitVec.ofNat 8 (b2n f.bank), 0]
    ++ leBytes 4 (match f.meas with | some r => r.t.toNat | none => 0)
    ++ leBytes 4 (f.eps.getD 0xFFFFFFFF) ++ leBytes 4 f.beta ++ leBytes 4 f.betaAfter ++ leBytes 4 f.retracts
    ++ leBytes 8 f.decAt.toNat ++ leBytes 8 pos

/-- Issue a seal record on the verdict ring and the head's tap streams T1 to T4 and T6 (R130). -/
def sendSeal (h : Nat) (o : OwedSeal) (b : Block) : Block :=
  let rec_ := o.rec_ ++ leBytes 8 b.ns ++ List.replicate 8 0
  forEach [1, 2, 3, 4, 6] (fun t b =>
    if b.strEn (8 * h + t) then pushItem (8 * h + t) ⟨rec_, o.num, 0⟩ b else b) (pushRecord 0 rec_ b)

/-- Issue the seal records that no earlier frame holds back (R132). -/
def flushSeals (h : Nat) (b : Block) : Block :=
  let x := b.hd h
  let free (o : OwedSeal) : Bool := !x.frames.any fun f => decide (f.id < o.id) && !f.decided
  forEach (x.owed.filter free) (sendSeal h) (b.setHd h { x with owed := x.owed.filter fun o => !free o })

/-- Whether the budget withholds a tap from a frame (R266, R290, R292). -/
def Frame.withheld (f : Frame) (t : Nat) : Bool :=
  match t with
  | 0 => !f.t0
  | 2 | 3 => decide (3 ≤ f.tapStep)
  | 6 => decide (2 ≤ f.tapStep)
  | _ => false

/-- A decided or lapsed frame's seal record, in frame order (R130, R132). -/
def issueSeal (h : Nat) (f : Frame) (outcome : Nat) (abandoned : Bool) (b : Block) : Block :=
  let x := b.hd h
  let o : OwedSeal := { id := f.id, rec_ := sealRecord h f outcome abandoned, num := f.num }
  let before := x.owed.filter fun q => decide (q.id < f.id)
  let after := x.owed.filter fun q => decide (f.id < q.id)
  flushSeals h (b.setHd h { x with owed := before ++ o :: after })

/-- The readings, β and ε window of a head as a frame mirrors them (R123, R338). -/
def Block.forecastOf (b : Block) (h : Nat) : List Reading × BitVec 24 × List Word :=
  let x := b.hd h
  (x.readings, BitVec.ofNat 24 (x.beta.getD (b.computeBeta h (b.regPipe h))), x.eps.map (BitVec.ofNat 32))

/-- Forecast state is mirrored at each seal decision (R123, R338). -/
def mirrorForecast (h : Nat) (b : Block) : Block :=
  let (rs, beta, eps) := b.forecastOf h
  if h < 24 then mirror (.forecast (Fin.ofNat 24 h) rs beta eps) b else b

end Sys2Proof.Machine
end

