-- ==== Sys2Proof/Machine/Correction.lean ====
section
/-! DEFINITION. Stages 2 to 5: correction (R91 to R98, R124), sharpening (R136 to R139), noise
reduction (R140 to R148), defect substitution (R149 to R154). -/

namespace Sys2Proof.Machine

/-! ### The exponential -/

/-- One unit of the fixed-point scale in which exponentials are formed. -/
abbrev expOne : Nat := 2 ^ 96

/-- Taylor terms of e^(-x), x = t / expOne: the sum from term `n` on, given the term before it. -/
def expTerms (t : Nat) : Nat → Nat → Int → Int
  | 0, _, _ => 0
  | fuel + 1, n, term => term + expTerms t fuel (n + 1) (-(term * t) / ((expOne * (n + 1) : Nat) : Int))

/-- Square a fixed-point number `n` times. -/
def expSquare : Nat → Nat → Nat
  | 0, x => x
  | n + 1, x => expSquare n (x * x / expOne)

/-- e^(-num/den) on the scale of expOne, within 2^-80; 0 from 80 on (R137, R283). -/
def expNeg (num den : Nat) : Nat :=
  if 80 * den ≤ num then 0
  else expSquare 8 (expTerms (num * expOne / (den * 256)) 32 0 (expOne : Int)).toNat

/-! ### The carat record (R91 to R93) -/

/-- Bits [hi:lo] of a carat record. -/
def cField (r hi lo : Nat) : Nat := (r >>> lo) % 2 ^ (hi + 1 - lo)

/-- Bits [hi:lo] of a carat record as a two's complement number. -/
def cSigned (r hi lo : Nat) : Int :=
  let v := cField r hi lo
  if v < 2 ^ (hi - lo) then (v : Int) else (v : Int) - 2 ^ (hi + 1 - lo)

/-- The residue check of a record (R92): bits [111:0] modulo 255. -/
def rchk (r : Nat) : Nat := r % 2 ^ 112 % 255

/-- A record passes its check (R92). -/
def rchkOk (r : Nat) : Bool := cField r 119 112 == rchk r

/-! ### The environment of a frame in the pipeline -/

/-- What stages 2 to 8 read for one frame: stage registers by pipeline offset, geometry, memory, the
temperature each line is corrected with, and the frame before. -/
structure Env where
  cfg : Nat → Word
  head : Nat
  cols : Nat
  rows : Nat
  /-- focal plane origin of the window (R88) and columns of the characterisation -/
  ox : Nat
  oy : Nat
  charCols : Nat
  mosaic : Bool
  band : Bool
  anchor : Nat
  bank : Nat
  hbm : SMap Byte
  defs : List Word
  lines : List RawLine
  prev : List RawLine
  temp : RawLine → Nat
  step : Nat
  beta : Nat
  /-- temporal filter active (R140), the plane applied, |pos_f - pos_(f-1)| (R142) -/
  tf : Bool
  planeIn : Option Nat
  advance : Option Nat
  /-- q_k of a merge frame, unsigned Q4.20 (R169) -/
  merge : Option Nat

/-- A field of a stage register. -/
def Env.fld (e : Env) (off hi lo : Nat) : Nat := fieldOf (e.cfg off) hi lo

/-- The carat record of pixel (x, y) of the window (R105). -/
def Env.record (e : Env) (x y : Nat) : Nat :=
  ofLe (e.hbm.getList (fun _ => 0) (e.bank + ((e.oy + y) * e.charCols + e.ox + x) * 16) 16)

/-- The defect table entry of pixel (x, y) (R150). -/
def Env.defEntry (e : Env) (x y : Nat) : Option Word :=
  e.defs.find? fun w => fieldOf w 26 0 == e.head * 2 ^ 22 + (e.oy + y) * 2 ^ 11 + (e.ox + x)

/-- The line of the frame with number `y`. -/
def Env.line (e : Env) (y : Nat) : Option RawLine := e.lines.find? fun l => l.y == y

/-- A pixel of a line has been made INVALID at a place of the pipeline (R98, R349). -/
def RawLine.spoilt (l : RawLine) (s : Checked) (x : Nat) : Bool := l.bad.contains (x, s)

/-- A pixel of the frame has been made INVALID at a place of the pipeline (R98, R349). -/
def Env.spoilt (e : Env) (s : Checked) (x y : Nat) : Bool :=
  match e.line y with
  | some l => l.spoilt s x
  | none => false

/-- The prior line of line `y`, where it is available (R136). -/
def Env.prior (e : Env) (l : RawLine) : Option RawLine :=
  match e.prev.find? fun p => p.y == l.y with
  | some p =>
    match p.time, l.time with
    | some tp, some tl => if !p.crcBad && tp.toNat < tl.toNat then some p else none
    | _, _ => none
  | none => none

/-! ### Stage 2 -/

/-- A pixel after stage 2: c and sensitivity, its prior sample cp, its record, and which outcome made it
INVALID (1 REC_BAD, 2 GSAT, 3 CSAT, 4 mismatch). -/
structure Px2 where
  c : Int
  inv : Bool
  sc : Nat
  cp : Option Int
  rec_ : Nat
  why : Nat

/-- dt of R94, in 2^-16 K. -/
def dtOf (tfpa anchor : Nat) : Int := satS 24 ((tfpa : Int) - anchor)

/-- The offset o of R94, in 2^-6 counts. -/
def offsetOf (r : Nat) (dt : Int) : Int :=
  satS 24 (roundDiv (cSigned r 15 0 * 2 ^ 38 + cSigned r 27 16 * dt * 2 ^ 18 + cSigned r 37 28 * dt * dt) (2 ^ 34))

/-- The gain g of R94 before saturation, in 2^-22. -/
def gainOf (r : Nat) (dt : Int) : Int :=
  roundDiv ((cField r 53 38 : Int) * 2 ^ 36 + cSigned r 63 54 * dt * 2 ^ 18 + cSigned r 71 64 * dt * dt) (2 ^ 28)

/-- Corrected counts of a raw sample before saturation, in 2^-6: g × (raw - o - Δs) (R94, R136). -/
def countsOf (g o ds : Int) (raw : Nat) : Int := roundDiv (g * ((raw : Int) * 64 - o - ds * 16)) (2 ^ 22)

/-- c fits signed Q18.6. -/
def fitsQ18 (c : Int) : Bool := decide (-(2 ^ 23) ≤ c) && decide (c ≤ 2 ^ 23 - 1)

/-- The sensitivity sc of R124, in 2^-6 counts per K. -/
def sensOf (r : Nat) (dt g d : Int) : Nat :=
  let a := (cSigned r 63 54 * 2 ^ 18 + 2 * cSigned r 71 64 * dt) * d * 64
  let b := g * (cSigned r 27 16 * 2 ^ 18 + 2 * cSigned r 37 28 * dt)
  satU 16 (roundDiv ((a - b).natAbs : Nat) (2 ^ 40))

/-- Stage 2 on one pixel (R92 to R96, R124, R136). -/
def stage2 (e : Env) (l : RawLine) (prior : Option RawLine) (x : Nat) : Px2 :=
  let r := e.record x l.y
  let none_ (why : Nat) : Px2 := { c := 0, inv := true, sc := 0, cp := none, rec_ := r, why := why }
  if l.crcBad || l.got ≤ x then none_ 0
  else if !rchkOk r then none_ 1
  else if cField r 105 104 == 3 then { none_ 0 with why := 0 }
  else if l.spoilt .correct x then none_ 4
  else
    let dt := dtOf (e.temp l) e.anchor
    let o := offsetOf r dt
    let g := gainOf r dt
    let ds := cSigned r 95 82
    if g < 0 || 2 ^ 24 - 1 < g then none_ 2
    else
      let raw := (l.pixels.getD x 0).toNat
      let c := countsOf g o ds raw
      if !fitsQ18 c then none_ 3
      else
        let cp := match prior with
          | some p =>
            if p.got ≤ x then none
            else
              let v := countsOf g o ds (p.pixels.getD x 0).toNat
              if fitsQ18 v then some v else none
          | none => none
        { c := c, inv := false, sc := sensOf r dt g ((raw : Int) * 64 - o - ds * 16), cp := cp, rec_ := r, why := 0 }

/-! ### Stage 3 -/

/-- A pixel after stage 3; `bad`: it became INVALID there (R98). -/
structure Px3 where
  p2 : Px2
  s : Int
  sat : Bool
  bad : Bool

/-- A pixel is INVALID from stage 3 on. -/
def Px3.inv (p : Px3) : Bool := p.p2.inv || p.bad

/-- The gain k of R137 in Q8.8: Δt in units of 62.5 ps, τ in 0.05 ms. -/
def sharpGain (dt16 tau kmax : Nat) : Nat :=
  let e := expNeg dt16 (tau * 50000 * 16)
  let k := if expOne ≤ e then 65535 else satU 16 (roundDiv (256 * expOne : Nat) (expOne - e))
  min (max 0x100 kmax) k

/-- Stage 3 on one pixel (R138, R139), or the merge step (R169). -/
def stage3 (e : Env) (l : RawLine) (prior : Option RawLine) (step : Nat) (p : Px2) : Px3 :=
  let pass : Px3 := { p2 := p, s := p.c, sat := false, bad := false }
  match e.merge with
  | some q => if p.inv then pass else { pass with s := satS 24 (roundDiv (p.c * q) (2 ^ 20)) }
  | none =>
  let tau := cField p.rec_ 81 72
  if e.fld 0x100 0 0 == 0 || p.inv || cField p.rec_ 108 108 == 1 || tau == 0 || 3 ≤ step then pass
  else match p.cp, prior with
    | some cp, some pr =>
      match pr.time, l.time with
      | some tp, some tl =>
        let k := sharpGain (tl.toNat - tp.toNat) tau (e.fld 0x100 31 16)
        let v := roundDiv (p.c * 256 + ((k : Int) - 256) * (p.c - cp)) 256
        { p2 := p, s := satS 24 v, sat := !fitsQ18 v, bad := false }
      | _, _ => pass
    | _, _ => pass

/-- Row `y` after stage 3; none where the frame has no such line. -/
def Env.row3 (e : Env) (y : Nat) : Option (RawLine × Array Px3) :=
  match e.line y with
  | some l =>
    let prior := e.prior l
    some (l, ((List.range e.cols).map fun x =>
      { stage3 e l prior e.step (stage2 e l prior x) with bad := l.spoilt .sharpen x }).toArray)
  | none => none

/-! ### Stage 4 -/

/-- The ramp of R142, in units of 1/256. -/
def ramp (x lo hi a0 : Nat) : Nat :=
  if x ≤ lo then a0
  else if hi ≤ x then 256
  else (roundDiv (a0 * (hi - lo) + (256 - a0) * (x - lo) : Nat) (hi - lo)).toNat

/-- A pixel after the temporal filter: y, and the state word to write (R143). -/
structure Px4 where
  p3 : Px3
  y : Int
  word : Nat
  rsat : Bool

/-- A residual state word of R143 and whether it saturated. -/
def stateWord (r : Int) : Nat × Bool :=
  let v := clampI (-32767) 32767 r
  ((v % 65536).toNat, v != r)

/-- PLANE of R141. -/
def planeBytes (cols rows : Nat) : Nat := (cols * rows * 2 + 4095) / 4096 * 4096

/-- TF_BASE as an HBM address (R155). -/
def Env.tfBase (e : Env) : Nat := (e.cfg 0x118).toNat + (e.cfg 0x11C).toNat % 4 * 2 ^ 32

/-- Address of a pixel's state word in plane `p` (R141). -/
def Env.stateAddr (e : Env) (p x y : Nat) : Nat := e.tfBase + p * planeBytes e.cols e.rows + (y * e.cols + x) * 2

/-- The temporal filter on one pixel (R140 to R143). -/
def temporal (e : Env) (y x : Nat) (p : Px3) : Px4 :=
  let pass (w : Nat × Bool) : Px4 := { p3 := p, y := p.s, word := w.1, rsat := w.2 }
  if !e.tf then pass (0x8000, false)
  else if p.inv || cField p.p2.rec_ 109 109 == 1 then pass (0x8000, false)
  else
    let yPrev : Option Int := match e.planeIn, p.p2.cp with
      | some pl, some cp =>
        let w := ofLe (e.hbm.getList (fun _ => 0) (e.stateAddr pl x y) 2)
        if w = 0x8000 then none else some (cp + if w < 0x8000 then (w : Int) else (w : Int) - 65536)
      | _, _ => none
    match yPrev with
    | none => pass (stateWord (p.s - p.p2.c))
    | some yp =>
      let a0 := max 1 (e.fld 0x108 15 8)
      let as_ := match e.advance with
        | some d => ramp d (e.cfg 0x110).toNat (e.cfg 0x114).toNat a0
        | none => 256
      let a := ramp (p.s - yp).natAbs (e.fld 0x10C 15 0 * 16) (e.fld 0x10C 31 16 * 16) as_
      let v := satS 24 (roundDiv (yp * 256 + (a : Int) * (p.s - yp)) 256)
      let w := stateWord (v - p.p2.c)
      { p3 := p, y := v, word := w.1, rsat := w.2 }

/-- Row `y` after the temporal filter. -/
def Env.row4t (e : Env) (y : Nat) : Option (Array Px4) :=
  (e.row3 y).map fun r => r.2.mapIdx fun x p => temporal e y x p

/-- A pixel after stage 4. -/
structure Px5 where
  p4 : Px4
  z : Int

/-- The kernel of the spatial filter (R146 to R148): offset step, radius, and weights by distance. -/
def Env.kernel (e : Env) (step : Nat) : Option (Int × Int × (Nat → Nat)) :=
  let size := min 2 (e.fld 0x130 1 0)
  if size = 0 || 4 ≤ step then none
  else if e.mosaic then some (2, 1, fun d => if d = 0 then 2 else 1)
  else if size = 1 || 1 ≤ step then some (1, 1, fun d => if d = 0 then 2 else 1)
  else some (1, 2, fun d => if d = 0 then 6 else if d = 1 then 4 else 1)

/-- Integers from -r to r. -/
def offsets (r : Int) : List Int := (List.range (2 * r.toNat + 1)).map fun (i : Nat) => (i : Int) - r

/-- A value at a signed index of an array. -/
def getAt {α : Type} (a : Array α) (i : Int) : Option α := if 0 ≤ i then a[i.toNat]? else none

/-- The row at a signed offset in a window of rows centred on `y`. -/
def rowAt {α : Type} (rows : List (Nat × α)) (y : Int) : Option α :=
  if 0 ≤ y then (rows.find? fun r => r.1 == y.toNat).map Prod.snd else none

/-- A pixel may serve the spatial filter of a neighbour (R146). -/
def Env.spatialOk (e : Env) (x y : Nat) (p : Px4) : Bool :=
  !p.p3.inv && decide (cField p.p3.p2.rec_ 105 104 ≤ 1) && (e.defEntry x y).isNone

/-- The spatial filter on one pixel (R146, R147). -/
def spatial (e : Env) (step : Nat) (rows : List (Nat × Array Px4)) (y x : Nat) (p : Px4) : Px5 :=
  match e.kernel step with
  | none => { p4 := p, z := p.y }
  | some (sp, rad, wt) =>
    if p.p3.inv then { p4 := p, z := p.y }
    else
      let edge := e.fld 0x130 31 16 * 16
      let (sw, swy) := (offsets rad).foldl (fun (acc : Nat × Int) dy =>
        (offsets rad).foldl (fun (acc : Nat × Int) dx =>
          let yy := (y : Int) + dy * sp
          let xx := (x : Int) + dx * sp
          match rowAt rows yy with
          | some row =>
            match getAt row xx with
            | some n =>
              let centre := dx == 0 && dy == 0
              if centre || (e.spatialOk xx.toNat yy.toNat n && decide ((n.y - p.y).natAbs ≤ edge)) then
                let w := wt dx.natAbs * wt dy.natAbs
                (acc.1 + w, acc.2 + n.y * (w : Int))
              else acc
            | none => acc
          | none => acc) acc) (0, 0)
      let k := min 256 (e.fld 0x144 8 0)
      let q : Rat := (p.y : Rat) + (k : Rat) * ((swy : Rat) / (sw : Rat) - (p.y : Rat)) / 256
      { p4 := p, z := satS 24 (roundRat q) }

/-- Row `y` after stage 4. -/
def Env.row4 (e : Env) (y : Nat) : Option (Array Px5) :=
  match e.row4t y with
  | some r =>
    let near := (offsets 2).filterMap fun d =>
      let yy := (y : Int) + d
      if yy < 0 then none else (e.row4t yy.toNat).map fun a => (yy.toNat, a)
    some (r.mapIdx fun x p => spatial e e.step near y x p)
  | none => none

/-! ### Stage 5 -/

/-- A pixel after stage 5: value, INVALID, SUBSTITUTED, and 1 NOENTRY or 2 NOSRC. -/
structure Px6 where
  p5 : Px5
  z : Int
  inv : Bool
  subst : Bool
  why : Nat

/-- The sources a method names, as offsets (R152). -/
def defSources (mosaic : Bool) (method : Nat) : List (Int × Int) :=
  if mosaic then
    match method with
    | 0 => [(-2, 0)] | 1 => [(0, -2)] | 4 => [(-2, 0)] | 5 => [(0, -2)] | 6 => []
    | _ => [(-2, 0), (0, -2)]
  else
    match method with
    | 0 => [(-1, 0), (1, 0)]
    | 1 => [(0, -1), (0, 1)]
    | 3 => [(-1, -1), (0, -1), (1, -1), (-1, 0), (1, 0), (-1, 1), (0, 1), (1, 1)]
    | 4 => [(-1, 0)] | 5 => [(0, -1)] | 6 => []
    | _ => [(-1, 0), (1, 0), (0, -1), (0, 1)]

/-- The defect table entry that stage 5 reads for pixel (x, y): none where it is skipped (R349). -/
def Env.readEntry (e : Env) (x y : Nat) : Option Word :=
  if (e.line y).any (·.skips.contains x) then none else e.defEntry x y

/-- Stage 5 on one pixel (R151). A CRC_BAD line stays INVALID whatever its entries are (R82; DEDUCED, log entry 124). -/
def stage5 (e : Env) (rows : List (Nat × Array Px5)) (y x : Nat) (p : Px5) : Px6 :=
  let p2 := p.p4.p3.p2
  let cls := cField p2.rec_ 105 104
  let pass : Px6 := { p5 := p, z := p.z, inv := p.p4.p3.inv, subst := false, why := 0 }
  let dead := cls == 3
  if (e.line y).any (·.crcBad) then pass
  else if e.fld 0x140 0 0 == 0 then { pass with inv := pass.inv || dead }
  else match e.readEntry x y with
    | none =>
      if dead then { pass with inv := true }
      else if cls == 2 then { pass with why := 1 } else pass
    | some w =>
      let method := fieldOf w 29 27
      let src := (defSources e.mosaic method).filterMap fun d =>
        let xx := (x : Int) + d.1
        let yy := (y : Int) + d.2
        match rowAt rows yy with
        | some row =>
          match getAt row xx with
          | some n =>
            let n2 := n.p4.p3.p2
            if !n.p4.p3.inv && cField n2.rec_ 105 104 == 0 && (e.defEntry xx.toNat yy.toNat).isNone then some n.z else none
          | none => none
        | none => none
      if src.isEmpty then { pass with inv := true, why := if method = 6 then 0 else 2 }
      else
        let sum := src.foldl (· + ·) 0
        { pass with z := satS 24 (roundDiv sum src.length), inv := false, subst := true }

/-- Row `y` after stage 5. -/
def Env.row5 (e : Env) (y : Nat) : Option (Array Px6) :=
  match e.row4 y with
  | some r =>
    let near := (offsets 2).filterMap fun d =>
      let yy := (y : Int) + d
      if yy < 0 then none else (e.row4 yy.toNat).map fun a => (yy.toNat, a)
    some (r.mapIdx fun x p => stage5 e near y x p)
  | none => none

end Sys2Proof.Machine
end

