-- ==== Sys2Proof/Machine/Radiometry.lean ====
section
/-! DEFINITION. Stages 6 and 7: the band matrix (R158, R159), temperature (R160 to R163), the ratio
temperature (R164, R165), the slope for the scruple band (R125, R166), the display output (R171). -/

namespace Sys2Proof.Machine

/-! ### Curves (R162) -/

/-- A point of a piecewise linear curve: its exact value and segment slope per unit of its input, and
whether the input was clamped below (1) or at or above the end (2). -/
structure CurvePt where
  val : Rat
  slope : Rat
  clamp : Nat

/-- A curve with entries 0 to `last` at `x0 + k step`, at input `u` (R162). -/
def curveAt (entry : Nat → Int) (last : Nat) (x0 : Int) (step : Nat) (u : Int) : CurvePt :=
  let st := max 1 step
  let seg (k : Nat) : Rat := ((entry (k + 1) - entry k : Int) : Rat) / (st : Rat)
  let d := u - x0
  if d < 0 then { val := (entry 0 : Rat), slope := seg 0, clamp := 1 }
  else
    let k := (d / (st : Int)).toNat
    if last ≤ k then { val := (entry last : Rat), slope := seg (last - 1), clamp := 2 }
    else { val := (entry k : Rat) + ((d - (k * st : Nat) : Int) : Rat) * seg k, slope := seg k, clamp := 0 }

/-- The low `w` bits of a number as two's complement. -/
def sext (w v : Nat) : Int := if v % 2 ^ w < 2 ^ (w - 1) then (v % 2 ^ w : Nat) else ((v % 2 ^ w : Nat) : Int) - 2 ^ w

/-- `n` bytes of a curve memory. -/
def curveNum (m : SMap Byte) (a n : Nat) : Nat := ofLe (m.getList (fun _ => 0) a n)

/-- A parameter word of R167. -/
def Snap.p (s : Snap) (i : Nat) : Nat := (s.par.getD i 0).toNat

/-- The radiance curve at l (R162). -/
def Snap.radiance (s : Snap) (l : Int) : CurvePt :=
  curveAt (fun k => (curveNum s.curves (4 * k) 4 % 2 ^ 24 : Nat)) 4095 (sext 24 (s.p 0)) (s.p 1 % 2 ^ 18) l

/-- The ratio curve at r (R162). -/
def Snap.ratio (s : Snap) (r : Nat) : CurvePt :=
  curveAt (fun k => (curveNum s.curves (0x4000 + 4 * k) 4 % 2 ^ 24 : Nat)) 1023 (s.p 4 % 2 ^ 24 : Nat) (s.p 5 % 2 ^ 24) r

/-- The residual curve at x1 (R162); 0 with RES_EN = 0. -/
def Snap.residual (s : Snap) (on : Bool) (x1 : Int) : CurvePt :=
  if on then
    let a := if s.resAct then 0x5080 else 0x5000
    curveAt (fun k => sext 16 (curveNum s.curves (a + 2 * k) 2)) 63 (sext 24 (s.p 2)) (s.p 3 % 2 ^ 18) x1
  else { val := 0, slope := 0, clamp := 0 }

/-! ### Stage 6 (R158, R159) -/

/-- The band matrix entry m_ij, signed Q4.12. -/
def Env.bm (e : Env) (i j : Nat) : Int :=
  if e.fld 0x200 0 0 = 0 then (if i = j then 4096 else 0)
  else sext 16 (e.fld (0x204 + 4 * (2 * i + j / 2)) (15 + 16 * (j % 2)) (16 * (j % 2)))

/-- The band gain g_i, unsigned Q2.14. -/
def Env.bg (e : Env) (i : Nat) : Nat :=
  if e.fld 0x200 0 0 = 0 then 16384 else e.fld (0x224 + 4 * (i / 2)) (15 + 16 * (i % 2)) (16 * (i % 2))

/-- A pixel after stage 6. -/
structure Px7 where
  p6 : Px6
  b : Int
  inv : Bool
  /-- its quad does not hold each band once; it became INVALID through another band's pixel -/
  badQuad : Bool
  lost : Bool
  band : Nat

/-- The pixel of a quad that carries band `i`. -/
def ofBand {α : Type} (q : List (Nat × Option α)) (i : Nat) : Option α :=
  match q.find? fun p => p.1 == i with
  | some p => p.2
  | none => none

/-- The quad of pixel (x, y): band and stage 5 output of its four pixels. -/
def Env.quad (e : Env) (even odd : Option (Array Px6)) (y x : Nat) : List (Nat × Option Px6) :=
  let x0 := x / 2 * 2
  let y0 := y / 2 * 2
  let at_ (row : Option (Array Px6)) (yy xx : Nat) : Nat × Option Px6 :=
    (cField (e.record xx yy) 107 106, match row with | some r => r[xx]? | none => none)
  [at_ even y0 x0, at_ even y0 (x0 + 1), at_ odd (y0 + 1) x0, at_ odd (y0 + 1) (x0 + 1)]

/-- Stage 6 on one pixel. -/
def stage6 (e : Env) (even odd : Option (Array Px6)) (y x : Nat) (p : Px6) : Px7 :=
  if !e.mosaic then { p6 := p, b := p.z, inv := p.inv, badQuad := false, lost := false, band := 0 }
  else
    let q := e.quad even odd y x
    let i := cField p.p5.p4.p3.p2.rec_ 107 106
    let whole := [0, 1, 2, 3].all fun k => q.any fun a => a.1 == k
    if !whole then { p6 := p, b := 0, inv := true, badQuad := true, lost := false, band := i }
    else
      let dark := [0, 1, 2, 3].any fun j => e.bm i j != 0 && (match ofBand q j with | some c => c.inv | none => true)
      let sum := [0, 1, 2, 3].foldl (fun (a : Int) j =>
        a + e.bm i j * (match ofBand q j with | some c => c.z | none => 0)) 0
      { p6 := p, b := satS 24 (roundDiv (e.bg i * sum) (2 ^ 26)), inv := p.inv || dark, badQuad := false,
        lost := !p.inv && dark, band := i }

/-! ### Stage 7 (R160 to R166) -/

/-- An emissivity entry: ε in Q1.15 as it acts, REFL, and ie in Q7.17 (R161). -/
def emisOf (w : Word) : Nat × Int × Nat :=
  let eps := max 0x200 (min 0x8000 (fieldOf w 15 0))
  (eps, sext 16 (fieldOf w 31 16), satU 24 (roundDiv (2 ^ 32 : Nat) eps))

/-- Whether the relay trim and the residual curve apply. -/
def Env.trimEn (e : Env) : Bool := e.fld 0x230 1 1 == 1
def Env.resEn (e : Env) : Bool := e.fld 0x230 0 0 == 1

/-- The gain of the relay trim in use, Q2.22. -/
def Env.rg (e : Env) (s : Snap) : Nat := if e.trimEn then s.rg.toNat % 2 ^ 24 else 2 ^ 22

/-- x2 of R160 and the slope R' of the residual curve at x1. -/
def linearise (e : Env) (s : Snap) (x : Int) : Int × Rat :=
  let ro := if e.trimEn then sext 18 s.ro.toNat else 0
  let x1 := satS 24 (roundDiv (e.rg s * x + ro * 2 ^ 22) (2 ^ 22))
  let r := s.residual e.resEn x1
  (satS 24 (x1 + roundRat r.val), r.slope)

/-- A pixel as it leaves stage 7. -/
structure Px8 where
  v : Nat
  inv : Bool
  subst : Bool
  s : Nat
  /-- radiance curve clamp: 1 UNDER, 2 OVER -/
  clamp : Nat
  badQuad : Bool
  lost : Bool
  p6 : Px6

/-- The absolute value of a rational. -/
def absRat (q : Rat) : Rat := if q < 0 then -q else q

/-- The sensitivity of the quad's band-j pixel. -/
def scOf (q : List (Nat × Option Px6)) (j : Nat) : Nat :=
  match ofBand q j with
  | some c => c.p5.p4.p3.p2.sc
  | none => 0

/-- The single-band temperature of a pixel (R160) and its sensitivity s (R125, R166). -/
def singleBand (e : Env) (s : Snap) (q : List (Nat × Option Px6)) (p : Px7) : Nat × Nat × Nat :=
  let (x2, rs) := linearise e s p.b
  let zone := cField p.p6.p5.p4.p3.p2.rec_ 103 96
  let act := if e.fld 0x230 4 4 = 1 then 256 else 0
  let (eps, refl, ie) := emisOf (s.stage.emis.get (fun _ => 0x8000) (act + zone))
  let l := satS 24 (roundDiv ((x2 * 2048 - ((2 ^ 15 - eps : Nat) : Int) * refl) * ie) (2 ^ 28))
  let c := s.radiance l
  let k : Rat := c.slope * (ie : Rat) / 2 ^ 17 * (1 + rs) * (e.rg s : Rat) / 2 ^ 22
  let sum : Rat :=
    if e.mosaic then
      [0, 1, 2, 3].foldl (fun (a : Rat) j =>
        a + (scOf q j : Rat) * absRat (k * (e.bg p.band : Rat) / 2 ^ 14 * (e.bm p.band j : Rat) / 2 ^ 12)) 0
    else (p.p6.p5.p4.p3.p2.sc : Rat) * absRat k
  (satU 24 (roundRat c.val), satU 16 (roundRat sum), c.clamp)

/-- The result of a quad's ratio (R164): value and sensitivity, or INVALID; DARK; out of the curve. -/
structure RatioPx where
  res : Option (Nat × Nat)
  dark : Bool
  rng : Bool

/-- The ratio temperature of a quad from its stage 6 outputs by band (R164, R166). -/
def ratioTemp (e : Env) (s : Snap) (q : List (Nat × Option Px6)) (b : Nat → Option Px7) : RatioPx :=
  let ia := e.fld 0x258 5 4
  let ib := e.fld 0x258 9 8
  match b ia, b ib with
  | some pa, some pb =>
    if pa.inv || pb.inv then { res := none, dark := false, rng := false }
    else
      let (xa, ra) := linearise e s pa.b
      let (xb, rb) := linearise e s pb.b
      let lim : Int := (e.fld 0x258 31 16 * 16 : Nat)
      if xa < lim || xb < lim then { res := none, dark := true, rng := false }
      else if xb = 0 then
        { res := some ((Config.ratioByZero xa).toNat, (Config.slopeByZero xa).toNat), dark := false, rng := false }
      else
        let r := satU 24 (roundDiv (xa * 2 ^ 20) xb.toNat)
        let c := s.ratio r
        let rr : Rat := (r : Rat) / 2 ^ 20
        let sum := [0, 1, 2, 3].foldl (fun (a : Rat) j =>
          let ta : Rat := (1 + ra) * (e.bg ia : Rat) / 2 ^ 14 * (e.bm ia j : Rat) / 2 ^ 12
          let tb : Rat := rr * (1 + rb) * (e.bg ib : Rat) / 2 ^ 14 * (e.bm ib j : Rat) / 2 ^ 12
          a + (scOf q j : Rat) * absRat (c.slope * 2 ^ 20 * ((e.rg s : Rat) / 2 ^ 22) * (ta - tb) / (xb : Rat))) 0
        { res := some (satU 24 (roundRat c.val), satU 16 (roundRat sum)), dark := false, rng := c.clamp != 0 }
  | _, _ => { res := none, dark := false, rng := false }

/-- PL_RAT_CTL.MODE as it acts (R164, R165). -/
def Env.ratMode (e : Env) : Nat :=
  let m := e.fld 0x258 1 0
  if !e.mosaic || m = 3 || e.fld 0x258 5 4 = e.fld 0x258 9 8 then 0 else m

/-- What stages 6 and 7 count on a row: QUAD, INV, UNDER, OVER, DARK, RNG. -/
structure RadCount where
  quad : Nat
  inv : Nat
  under : Nat
  above : Nat
  dark : Nat
  rng : Nat

/-- Row `y` after stage 7, from its stage 5 row and the other row of its quads. -/
def Env.row7 (e : Env) (s : Snap) (y : Nat) (own : Array Px6) (other : Option (Array Px6)) : Array Px8 × RadCount :=
  let even := if y % 2 = 0 then some own else other
  let odd := if y % 2 = 0 then other else some own
  let mode := e.ratMode
  let mate := if y % 2 = 0 then y + 1 else y - 1
  let spoil (z x : Nat) (p : Px7) : Px7 := { p with inv := p.inv || e.spoilt .linear x z }
  let own7 := own.mapIdx fun x p => spoil y x (stage6 e even odd y x p)
  let other7 : Option (Array Px7) := other.map fun r => r.mapIdx fun x p => spoil mate x (stage6 e even odd y x p)
  let quad7 (x : Nat) (i : Nat) : Option Px7 :=
    let x0 := x / 2 * 2
    let get (r : Array Px7) : List Px7 := [r[x0]?, r[x0 + 1]?].filterMap id
    (get own7 ++ (match other7 with | some r => get r | none => [])).find? fun p => p.band == i
  let ratios : Array RatioPx := if mode = 0 then #[] else
    ((List.range ((own.size + 1) / 2)).map fun k =>
      let r := ratioTemp e s (e.quad even odd y (2 * k)) (quad7 (2 * k))
      let hit := [y, mate].any fun z => e.spoilt .ratio (2 * k) z || e.spoilt .ratio (2 * k + 1) z
      if hit then { r with res := none } else r).toArray
  let pix := own7.mapIdx fun x p =>
    let q := if e.mosaic then e.quad even odd y x else []
    let mk (inv : Bool) (v sv clamp : Nat) : Px8 :=
      { v := if inv then 0 else v, inv := inv, subst := p.p6.subst, s := if inv then 0 else sv, clamp := clamp,
        badQuad := p.badQuad, lost := p.lost, p6 := p.p6 }
    let single : Px8 :=
      if p.inv then mk true 0 0 0
      else
        let (v, sv, cl) := singleBand e s q p
        mk false v sv cl
    if mode = 2 || (mode = 1 && p.band == e.fld 0x258 13 12) then
      match (ratios[x / 2]?).bind RatioPx.res with
      | some (v, sv) => mk false v sv 0
      | none => mk true 0 0 0
    else single
  let counts := y % 2 = 0 || other.isNone
  let quads := ((List.range ((own.size + 1) / 2)).filter fun k =>
    match own7[2 * k]? with | some p => p.badQuad | none => false).length
  (pix, { quad := if counts then quads else 0,
          inv := (own7.toList.filter (·.lost)).length,
          under := (pix.toList.filter fun p => p.clamp == 1).length,
          above := (pix.toList.filter fun p => p.clamp == 2).length,
          dark := if counts then (ratios.toList.filter (·.dark)).length else 0,
          rng := if counts then (ratios.toList.filter (·.rng)).length else 0 })

/-- The half-width w of the scruple band (R125). -/
def scruple (s beta guard : Nat) : Nat := satU 24 (roundDiv (s * beta : Nat) (2 ^ 16)) + guard

/-- A RAD24 value as RAD16, and whether it saturates (R163). -/
def rad16 (v : Nat) : Nat × Bool :=
  let r := (roundDiv (v : Nat) 128).toNat
  (min r 0xFFFF, decide (0xFFFF < r))

/-! ### Display (R171) -/

/-- The tone curve at v, Q8.8. -/
def toneAt (tone : SMap Word) (lo step v : Nat) : Nat :=
  satU 16 (roundRat (curveAt (fun k => ((tone.get (fun k => BitVec.ofNat 32 (k * 64)) k).toNat % 65536 : Nat)) 1023
    lo step v).val)

/-- PAL24 of a pixel (R171). -/
def palOf (st : StageCopy) (lo step invCol : Nat) (inv : Bool) (v : Nat) : Nat :=
  if inv then invCol
  else
    let idx := satU 8 (roundDiv (toneAt st.tone lo step v : Nat) 256)
    (st.palette.get (fun k => BitVec.ofNat 32 (k * 0x010101)) idx).toNat % 2 ^ 24

end Sys2Proof.Machine
end

