-- ==== Sys2Proof/Machine/Strip.lean ====
section
/-! DEFINITION. Strip geometry (09_bands_and_seams.md, R185 to R187): the chain, strip columns, exclusion,
and lines in strip columns. -/

namespace Sys2Proof.Machine

/-- SEAM_CTL.LEN as it acts. -/
def Block.chainLen (b : Block) : Nat := max 1 (min 24 (b.fld Reg.SEAM_CTL 28 24))

/-- SEAM_CTL.REF as it acts. -/
def Block.chainRef (b : Block) : Nat :=
  let r := b.fld Reg.SEAM_CTL 20 16
  if b.chainLen ≤ r then 0 else r

/-- The head named at a chain position; 31 none. -/
def Block.chainHead (b : Block) (c : Nat) : Nat := b.fld (Reg.SEAM_CHAIN (c / 4)) (4 + 8 * (c % 4)) (8 * (c % 4))

/-- The lowest chain position that names a head. -/
def Block.chainPos (b : Block) (h : Nat) : Option Nat := (List.range b.chainLen).find? fun c => b.chainHead c == h

/-- COL_OFF of a seam as it acts, and its offset with PHASE, in 1/256 column. -/
def Block.colOff (b : Block) (k : Nat) : Nat := max 1 (b.fld (Reg.SEAM_S_COL k) 11 0)
def Block.seamOff (b : Block) (k : Nat) : Nat := b.colOff k * 256 + b.fld (Reg.SEAM_S_COL k) 23 16

/-- S_c in 1/256 column (R185). -/
def Block.stripOff (b : Block) (c : Nat) : Nat := (List.range c).foldl (fun s k => s + b.seamOff k) 0

/-- H_c (R187). -/
def Block.posOff (b : Block) (c : Nat) : Pos48 :=
  (List.range c).foldl (fun s k => s + b.rdPos (Reg.SEAM_S_POSOFF_LO k)) 0

/-- Columns of the head at a chain position; 0 where it names none. -/
def Block.chainCols (b : Block) (c : Nat) : Nat := if b.chainHead c < 24 then b.colsOf (b.chainHead c) else 0

/-- Strip columns before the cap (R185). -/
def Block.stripCols (b : Block) : Nat :=
  let c := b.chainLen - 1
  b.stripOff c / 256 + b.chainCols c

/-- SEAM_WIDTH. -/
def Block.stripWidth (b : Block) : Nat := min 49152 b.stripCols

/-- The head at chain position `c` is excluded from stitching (R186). -/
def Block.excludedAt (b : Block) (c : Nat) : Bool :=
  let h := b.chainHead c
  if 24 ≤ h then false
  else
    let p := b.curPipe h
    !b.bound h || !b.bandMode h || !b.bit (Reg.PL_TDI_CTL p) 0
      || b.fld (Reg.PL_TDI_OUTPITCH p) 23 0 != b.fld Reg.SEAM_PITCH 23 0
      || b.stkSrc (b.portGroup h) != b.fld Reg.SEAM_CTL 10 8
      || b.chainPos h != some c

/-- SEAM_EXCL: one bit per head excluded. -/
def Block.seamExcl (b : Block) : Nat :=
  (List.range 24).foldl (fun m h =>
    match b.chainPos h with
    | some c => if b.excludedAt c then m + 2 ^ h else m
    | none => m) 0

/-- The degradation step of the budget (BUD_STAT.STEP). -/
def Block.budStep (b : Block) : Nat := b.fld Reg.BUD_STAT 2 0

/-- Stitching runs: SEAM_CTL.EN, and not suspended at step 4 (R188). -/
def Block.stitching (b : Block) : Bool := b.bit Reg.SEAM_CTL 0 && b.budStep != 4

/-- The chain positions whose heads are stitched. -/
def Block.included (b : Block) : List Nat :=
  (List.range b.chainLen).filter fun c => decide (b.chainHead c < 24) && !b.excludedAt c

/-- The chain position at which a head is stitched. -/
def Block.stitchedAt (b : Block) (h : Nat) : Option Nat :=
  if b.stitching then
    match b.chainPos h with
    | some c => if b.excludedAt c then none else some c
    | none => none
  else none

/-- The INVALID flag of a pixel. -/
def Pix.inv (p : Pix) : Bool := p.flags.getLsbD 0

/-- An INVALID pixel. -/
def Pix.dark : Pix := { v := 0, flags := 1, w := 0, s := 0 }

/-- A head's value at strip column `x` (R185): its two neighbouring columns interpolated, or the one of them
that is valid. `s` is S_c in 1/256 column. -/
def stripPixel (pix : Array Pix) (s x : Nat) : Option Pix :=
  if x * 256 < s then none
  else
    let d := x * 256 - s
    let k := d / 256
    let fr := d % 256
    match pix[k]? with
    | none => none
    | some a =>
      match pix[k + 1]? with
        | none => if fr = 0 then some a else none
        | some c =>
          if a.inv then some c
          else if fr = 0 then some a
          else if c.inv then some a
          else some { v := satU 24 (roundDiv (a.v * (256 - fr) + c.v * fr : Nat) 256), flags := a.flags ||| c.flags,
                      w := max a.w c.w, s := max a.s c.s }

/-- A head line's pixels in strip columns: the first column and the pixels; columns beyond the cap are discarded (R185). -/
def toStrip (pix : List Pix) (s : Nat) : Nat × List Pix :=
  let a := pix.toArray
  let x0 := (s + 255) / 256
  (x0, (List.range (min pix.length (49152 - x0))).filterMap fun i => stripPixel a s (x0 + i))

/-- SEAM_STAT.UNDERCOVER's test (R185): some strip column lies within fewer than two heads. -/
def Block.underCovered (b : Block) : Bool :=
  b.bit Reg.SEAM_CTL 1 && (List.range b.stripWidth).any fun x =>
    decide (((List.range b.chainLen).filter fun c =>
      decide (b.stripOff c ≤ x * 256) && decide (x * 256 ≤ b.stripOff c + (b.chainCols c - 1) * 256)
        && decide (0 < b.chainCols c)).length < 2)

end Sys2Proof.Machine
end

