-- ==== Sys2Proof/Machine/Lines.lean ====
section
/-! DEFINITION. Lines through the pipeline: line items and taps (R265 to R269), what a frame takes with its
first line (R115, R135, R157), the processing of one line (R100, R117), the frame store (R105). -/

namespace Sys2Proof.Machine

/-! ### Items (R267 to R269) -/

/-- STATUS of a line tag (R267). -/
structure LStat where
  short : Bool := false
  long : Bool := false
  crcBad : Bool := false
  prov : Bool := false
  sealed : Bool := false
  revised : Bool := false
  supply : Bool := false
  shuttered : Bool := false
  late : Bool := false
  step : Nat := 0

/-- STATUS as a number. -/
def LStat.num (s : LStat) : Nat :=
  b2n s.short + 2 * b2n s.long + 4 * b2n s.crcBad + 8 * b2n s.prov + 16 * b2n s.sealed + 32 * b2n s.revised
    + 64 * b2n (decide (0 < s.step)) + 128 * b2n s.supply + 256 * b2n s.shuttered + 512 * b2n s.late + 1024 * s.step

/-- A line tag before its tap and length are known. -/
structure LTag where
  head : Nat
  frame : Word
  line : Nat
  cols : Nat
  stat : LStat
  subst : Nat := 0
  bank : Bool := false
  stamp : BitVec 21 := 0
  pos : Option Pos48 := none
  time : Option (BitVec 68) := none
  tfpa : Nat := 0
  bound : Nat := 0

/-- A position as 8 bytes; all ones if none. -/
def posBytes : Option Pos48 → List Byte
  | some p => leBytes 8 (p.signExtend 64).toNat
  | none => List.replicate 8 0xFF

/-- The 64 bytes of a line tag; where the time reads all ones, its fraction reads 0 (DESIGN CHOICE, log entry 115). -/
def LTag.bytes (t : LTag) (tap fmt len now : Nat) : List Byte :=
  let (ns, fr) := match t.time with
    | some v => (leBytes 8 (v.toNat / 16), BitVec.ofNat 8 (v.toNat % 16))
    | none => (List.replicate 8 0xFF, 0)
  [0x10, BitVec.ofNat 8 t.head, BitVec.ofNat 8 tap, BitVec.ofNat 8 fmt] ++ leBytes 4 t.frame.toNat
    ++ leBytes 2 t.line ++ leBytes 2 t.cols ++ leBytes 4 t.stat.num ++ leBytes 2 t.subst
    ++ [BitVec.ofNat 8 (b2n t.bank), 0] ++ leBytes 4 t.stamp.toNat ++ posBytes t.pos ++ ns ++ [fr, 0, 0, 0]
    ++ leBytes 4 t.tfpa ++ leBytes 4 t.bound ++ leBytes 4 len ++ leBytes 8 now

/-- The flag plane of a 16-bit format (R268). -/
def flagPlane : List Nat → List Byte
  | [] => []
  | [a] => [BitVec.ofNat 8 a]
  | a :: c :: fs => BitVec.ofNat 8 (a + 16 * c) :: flagPlane fs

/-- A line item from its tag and its pixels as value and flags (R267, R268). -/
def lineItem (t : LTag) (tap fmt : Nat) (planes : Bool) (pix : List (Nat × Nat)) (now : Nat) : List Byte :=
  let data := if fmt < 3 then
      (pix.map fun p => leBytes 2 p.1).flatten ++ (if planes then flagPlane (pix.map Prod.snd) else [])
    else (pix.map fun p => leBytes 4 (p.1 % 2 ^ 24 + p.2 * 2 ^ 24)).flatten
  let pad := (64 - data.length % 64) % 64
  t.bytes tap fmt (data.length + pad) now ++ data ++ List.replicate pad 0

/-- Note the last line copied to a tap (R356): REVISED and PROVISIONAL marks. -/
def noteTap (h t : Nat) (g : LTag) (b : Block) : Block :=
  let v := (g.frame, BitVec.ofNat 16 g.line, b2n g.stat.revised + 2 * b2n g.stat.prov)
  { b with taps := b.taps.set (fun _ => (0, 0, 0)) (8 * h + t) v }

/-- A counter of a pipeline; discarded where the pipeline number is none. -/
def Block.incPl (b : Block) (p : Nat) (reg : Nat → Nat) (hi lo n : Nat) : Block :=
  if p < 26 && n != 0 then b.inc (reg p) hi lo n else b

/-- Copy a line to a tap of a head (R265, R266), where the frame selects it. -/
def copyTap (h : Nat) (f : Frame) (t fmt : Nat) (g : LTag) (pix : List (Nat × Nat)) (b : Block) : Block :=
  if !f.taps.getLsbD t then b
  else
    let s := 8 * h + t
    if !b.strEn s then b.incPl f.pipe Reg.PL_TAP_CNT 31 16 1
    else if f.withheld t then withholdItem s f.num (BitVec.ofNat 16 g.line) (b.incPl f.pipe Reg.PL_TAP_CNT 15 0 1)
    else
      let planes := b.bit (Reg.STR_CTL s) 1
      let item := lineItem g t fmt planes pix b.ns
      noteTap h t g (pushItem s ⟨item, g.frame, BitVec.ofNat 16 g.line⟩ b)

/-- COR16 of a value, and whether it saturates (R97). -/
def cor16 (c : Int) : Nat × Bool :=
  let r := roundDiv c 16
  let v := satS 16 r
  ((v % 65536).toNat, v != r)

/-- Copy corrected counts to one of the taps T1 to T3; saturations count in TAPSAT where a line is copied. -/
def copyCor (h : Nat) (f : Frame) (t : Nat) (g : LTag) (pix : List (Int × Nat)) (b : Block) : Block :=
  let vals := pix.map fun p => (cor16 p.1, p.2)
  let sat := (vals.filter fun v => v.1.2).length
  let copied := f.taps.getLsbD t && b.strEn (8 * h + t) && !f.withheld t
  let b := if copied then b.incPl f.pipe Reg.PL_CNT_B 15 0 sat else b
  copyTap h f t 1 g (vals.map fun v => (v.1.1, v.2)) b

/-- Copy temperatures to T4 (or the strip stream's format): RAD24, or RAD16 with R16 (R163). -/
def radPixels (s p : Nat) (pix : List (Nat × Nat)) (b : Block) : Nat × List (Nat × Nat) × Block :=
  if b.bit (Reg.STR_CTL s) 2 then
    let vals := pix.map fun q => (rad16 q.1, q.2)
    let sat := (vals.filter fun v => v.1.2).length
    (2, vals.map fun v => (v.1.1, v.2), b.incPl p Reg.PL_LIN_CNT2 31 16 sat)
  else (3, pix, b)

/-- The frame item of a tap (R269). -/
def frameItem (h t : Nat) (f : Frame) : List Byte :=
  let (n, tf, ts, sh, bi, hs) := match f.trailer with
    | some x => x
    | none => (0, 0, 0, 0, 0, 0)
  [0x11, BitVec.ofNat 8 h, BitVec.ofNat 8 t,
   BitVec.ofNat 8 (b2n f.short + 2 * b2n f.long + 4 * b2n f.noTrailer + 8 * b2n f.band)] ++ leBytes 4 f.num.toNat
    ++ leBytes 2 f.lines.length ++ leBytes 2 n ++ leBytes 4 tf ++ leBytes 4 ts ++ [BitVec.ofNat 8 sh, 0]
    ++ leBytes 2 bi ++ leBytes 4 hs.toNat ++ leBytes 8 f.closedAt.toNat ++ List.replicate 28 0

/-- Issue a frame's items at the given taps (R269), in every stream of the head that is enabled. -/
def issueFrameItems (h : Nat) (f : Frame) (taps : List Nat) (b : Block) : Block :=
  forEach taps (fun t b =>
    if b.strEn (8 * h + t) then pushItem (8 * h + t) ⟨frameItem h t f, f.num, 0⟩ b else b) b

/-! ### What a frame takes with its first line -/

/-- The stage state that serves a head now: its pipeline's. -/
def Block.stageNow (b : Block) (p : Nat) : StageCopy :=
  let q := b.pl p
  { regs := b.stageRegs p, emis := q.emis, tone := q.tone, palette := q.palette }

/-- Everything a frame may take, as it stands (R135, R154, R157). -/
def Block.takeSnap (b : Block) (h : Nat) (st : StageCopy) : Snap :=
  let x := b.hd h
  { stage := st, curves := x.curves, par := x.par, resAct := x.resAct, rg := b.rd (Reg.SEAM_H_RG h),
    ro := b.rd (Reg.SEAM_H_RO h), defs := b.defTab.filter fun w => defHead w == h }

/-- A stage register of a copy, by pipeline offset. -/
def StageCopy.reg (c : StageCopy) (off : Nat) : Word := c.regs.getD ((off - 0x80) / 4) 0

/-- The registers at 0x200 to 0x2FF of one copy put into another. -/
def mixRegs (old new : List Word) : List Word := old.take 96 ++ ((new.drop 96).take 64) ++ old.drop 160

/-- Bring a frame's snapshot up to the given level (2: its first line enters stage 5, 3: stage 6). -/
def Frame.advanceSnap (f : Frame) (now : Snap) (lvl : Nat) : Frame :=
  match f.snap with
  | none => f
  | some s =>
    if lvl ≤ f.snapLvl then f
    else
      let s := if f.snapLvl < 2 then { s with defs := now.defs } else s
      let s := if lvl = 3 then { now with stage := { now.stage with regs := mixRegs s.stage.regs now.stage.regs }, defs := s.defs } else s
      { f with snap := some s, snapLvl := lvl }

/-- The state area lies wholly in the host region of HBM (R141): BADBASE reads 0. -/
def badBase (st : StageCopy) (cols rows : Nat) : Bool :=
  let base := (st.reg 0x118).toNat + (st.reg 0x11C).toNat % 4 * 2 ^ 32
  !(decide (0x100000000 ≤ base) && decide (base + 6 * planeBytes cols rows ≤ 0x400000000))

/-- The step at which a head's frame is processed (R292, R297): the budget's; in a pair the larger of the two members',
which the standby takes as the active member mirrored it with the frame. -/
def Block.frameStep (b : Block) (h : Nat) (num : Word) : Nat :=
  let own := if b.member then max b.budStep b.pair.peerStep else b.budStep
  match (b.hd h).mirStep.find? fun m => m.1 = num with
  | some m => if b.member && b.role != 1 then m.2 else max m.2 own
  | none => own

/-- STATE of a head's calibration run. -/
def Block.calState (b : Block) (h : Nat) : Nat := b.fld (Reg.CAL_H_STAT h) 3 0

/-- The lowest plane not in use (R144): neither committed nor held by an undecided frame. -/
def HeadSt.freePlane (x : HeadSt) : Nat :=
  let held := x.frames.filterMap fun f => if f.decided then none else some [f.planeIn, f.planeOut]
  let used := (x.plane.toList ++ (held.flatten.filterMap id))
  ((List.range 6).find? fun p => !used.contains p).getD 5

/-! ### The environment of a frame -/

/-- The frame opened directly before, of the same binding and with the FRAME number before (R136, R396). -/
def HeadSt.prevFrame (x : HeadSt) (f : Frame) : Option Frame :=
  x.frames.find? fun g => g.id + 1 == f.id && g.num + 1 == f.num && g.bindNo == f.bindNo && !g.rawLost

/-- The environment in which a frame's lines are processed; `temp` gives each line's temperature. -/
def Block.envOf (b : Block) (h : Nat) (f : Frame) (sn : Snap) (restrike : Bool) (temp : RawLine → Nat) : Env :=
  let live : Nat → Word := match f.regsCopy with
    | some c => c.reg
    | none => fun off => b.rd (0x1A0000 + f.pipe * 0x1000 + off)
  let prev := (b.hd h).prevFrame f
  let line0 (g : Frame) : Option Pos48 := (g.lines.find? fun l => l.y == 0).bind RawLine.pos
  let hdr := (b.port h).hdr
  { cfg := fun off => if restrike || (decide (0x100 ≤ off) && decide (off < 0x300)) then sn.stage.reg off else live off
    head := h, cols := f.cols, rows := f.rows, ox := f.ox, oy := f.oy
    charCols := match hdr with | some c => c.cols | none => 0
    mosaic := match hdr with | some c => c.mosaic | none => false
    band := f.band, anchor := b.anchor h, bank := bankAddr h f.bank, hbm := b.hbm, defs := sn.defs
    lines := f.lines, prev := match prev with | some g => g.lines | none => []
    temp := temp, step := f.step, beta := f.beta
    tf := f.tf && f.planeOut.isSome && fieldOf (sn.stage.reg 0x108) 0 0 == 1 && !badBase sn.stage f.cols f.rows
    planeIn := f.planeIn
    advance := match prev with
      | some g => match line0 g, line0 f with
        | some p, some q => some (posDiff q p).natAbs
        | _, _ => none
      | none => none
    merge := if f.merge.isSome then some f.mergeQ else none }

/-! ### One line -/

/-- The flags a line's pixels carry beside INVALID and SUBSTITUTED (R134): PROVISIONAL, DEGRADED. -/
def extraFlags (prov : Bool) (step : Nat) : Nat := 4 * b2n prov + 8 * b2n (decide (0 < step))

/-- A line after stage 7, with what its taps and counters need. -/
structure Row where
  l : RawLine
  r3 : Array Px3
  r6 : Array Px6
  r8 : Array Px8
  rad : RadCount
  words : List Nat
  rsat : Nat
  noPrior : Bool

/-- Process row `y` of a frame through stages 2 to 7. -/
def Env.run (e : Env) (sn : Snap) (y : Nat) : Option Row :=
  match e.row3 y, e.row4t y, e.row5 y with
  | some (l, r3), some r4, some r6 =>
    let (r8, rad) := e.row7 sn y r6 (if e.mosaic then e.row5 (if y % 2 = 0 then y + 1 else y - 1) else none)
    some { l := l, r3 := r3, r6 := r6, r8 := r8, rad := rad, words := r4.toList.map (·.word),
           rsat := if e.tf then (r4.toList.filter (·.rsat)).length else 0,
           noPrior := e.merge.isNone && (e.prior l).isNone }
  | _, _, _ => none

/-- A number as two bytes per pixel, into a plane of the state area. -/
def putPlane (e : Env) (plane y : Nat) (ws : List Nat) (b : Block) : Block :=
  hbmPut (e.stateAddr plane 0 y) ((ws.map fun w => leBytes 2 w).flatten) b

/-- Write what stage 4 or the merge step keeps in the state area (R143, R169). -/
def putState (e : Env) (f : Frame) (y : Nat) (row : Row) (b : Block) : Block :=
  if f.merge.isSome then
    let cs := row.r3.toList.map fun p => (p.p2.c % 2 ^ 32).toNat
    let k := f.num.toNat % 3
    putPlane e (2 * k + 1) y (cs.map (· / 65536)) (putPlane e (2 * k) y (cs.map (· % 65536)) b)
  else if e.tf then
    match f.planeOut with
    | some p => putPlane e p y row.words b
    | none => b
  else b

/-- The pixels of a row as stage 8 passes them on: value, flags, w, s. -/
def Row.pixels (row : Row) (extra beta guard : Nat) : List Pix :=
  row.r8.toList.map fun p =>
    { v := p.v, flags := BitVec.ofNat 4 (b2n p.inv + 2 * b2n p.subst + extra),
      w := scruple p.s beta guard, s := p.s }

/-- Address of a pixel word in the frame store (R105). -/
def storeAddr (h : Nat) (num : Word) (cols x y : Nat) : Nat :=
  0xB0000000 + h * 0x03000000 + num.toNat % 4 * 0x00C00000 + (y * cols + x) * 4

/-- Write pixels to the frame store. -/
def putStore (addr : Nat) (pix : List Pix) (b : Block) : Block :=
  hbmPut addr ((pix.map fun p => leBytes 4 (p.v + p.flags.toNat * 2 ^ 24)).flatten) b

/-- Count what stages 2 to 7 count on a row. -/
def countRow (p : Nat) (row : Row) (b : Block) : Block :=
  let n3 (why : Nat) : Nat := (row.r3.toList.filter fun q => q.p2.why == why).length
  let n6 (why : Nat) : Nat := (row.r6.toList.filter fun q => q.why == why).length
  let b := (b.incPl p Reg.PL_CNT_A 31 16 (n3 1)).incPl p Reg.PL_CNT_A 15 0 (n3 3)
  let b := b.incPl p Reg.PL_CNT_B 31 16 (n3 2)
  let b := b.incPl p Reg.PL_SH_CNT 15 0 (row.r3.toList.filter (·.sat)).length
  let b := b.incPl p Reg.PL_SH_CNT 31 16 (b2n row.noPrior)
  let b := b.incPl p Reg.PL_TF_CNT 15 0 row.rsat
  let b := (b.incPl p Reg.PL_DEF_CNT 31 16 (n6 1)).incPl p Reg.PL_DEF_CNT 15 0 (n6 2)
  let b := (b.incPl p Reg.PL_BM_CNT 31 16 row.rad.inv).incPl p Reg.PL_BM_CNT 15 0 row.rad.quad
  let b := (b.incPl p Reg.PL_LIN_CNT 31 16 row.rad.above).incPl p Reg.PL_LIN_CNT 15 0 row.rad.under
  (b.incPl p Reg.PL_RAT_CNT 31 16 row.rad.rng).incPl p Reg.PL_RAT_CNT 15 0 row.rad.dark

/-- Send a processed row to the taps T1 to T4 and T6 and to the frame store; its pixels and tag. -/
def emitRow (h : Nat) (f : Frame) (e : Env) (row : Row) (revised : Bool) (tfpa : Nat) (b : Block) :
    List Pix × LTag × Block :=
  let l := row.l
  let sealed := revised || f.st == .sealed
  let extra := extraFlags (!sealed) f.step
  let stat : LStat := { short := l.short, long := l.long, crcBad := l.crcBad, prov := !sealed, sealed := sealed,
                        revised := revised, supply := l.supply, shuttered := l.shuttered, late := l.pos.isNone,
                        step := f.step }
  let g : LTag := { head := h, frame := f.num, line := l.y, cols := f.cols, stat := stat, bank := f.bank,
                    stamp := l.stamp, pos := l.pos, time := l.time, tfpa := tfpa, bound := if revised then 0 else f.beta }
  let subst := (row.r6.toList.filter (·.subst)).length
  let g3 := { g with subst := subst }
  let b := copyCor h f 1 g (row.r3.toList.map fun p => (p.p2.c, b2n p.p2.inv + extra)) b
  let b := copyCor h f 2 g (row.r3.toList.map fun p => (p.s, b2n p.inv + extra)) b
  let b := copyCor h f 3 g3 (row.r6.toList.map fun p => (p.z, b2n p.inv + 2 * b2n p.subst + extra)) b
  let pix := row.pixels extra f.beta (e.cfg 0x9C).toNat
  let vals := pix.map fun p => (p.v, p.flags.toNat)
  let copied := f.taps.getLsbD 4 && b.strEn (8 * h + 4)
  let (fmt, rad, b') := radPixels (8 * h + 4) f.pipe vals b
  let b := copyTap h f 4 fmt g3 rad (if copied then b' else b)
  let st := match f.regsCopy with
    | some c => c
    | none => b.stageNow f.pipe
  let lo := (e.cfg 0x2A0).toNat % 2 ^ 24
  let step := (e.cfg 0x2A4).toNat % 2 ^ 24
  let inv := (e.cfg 0x2A8).toNat % 2 ^ 24
  let b := if l.y % (fieldOf f.taps 15 8 + 1) = 0 then
      copyTap h f 6 4 g3 (pix.map fun p => (palOf st lo step inv p.inv p.v, p.flags.toNat)) b
    else b
  (pix, g3, putStore (storeAddr h f.num f.cols 0 l.y) pix b)

/-- A head's line as the verdict engine takes it, in strip columns (R195); `hold` makes every comparison pending
(R126), `lapsed` resolves it as lapsed (R179). -/
def Block.lineJob (b : Block) (h : Nat) (srcs : List (Nat × Nat)) (g : LTag) (pix : List Pix) (hold lapsed : Bool) : VJob :=
  let (x0, sp) := match b.chainPos h with
    | some c => toStrip pix (b.stripOff c)
    | none => (0, pix)
  let ln : VLine := { head := h, srcs := srcs, frame := g.frame, line := BitVec.ofNat 16 g.line, pos := g.pos,
                      time := g.time, src := b.stkSrc (b.portGroup h), supply := g.stat.supply,
                      degraded := decide (0 < g.stat.step) }
  { ln := ln, x0 := x0, pix := sp, hold := hold, lapsed := lapsed, sealed := g.stat.sealed, shuttered := g.stat.shuttered }

/-- Queue a head's line for the verdict engine. -/
def pushJob (h : Nat) (srcs : List (Nat × Nat)) (g : LTag) (pix : List Pix) (hold lapsed : Bool) (b : Block) : Block :=
  { b with vrd := { b.vrd with jobs := b.vrd.jobs ++ [b.lineJob h srcs g pix hold lapsed] } }

/-! ### The next line of a head -/

/-- The windows of row `y` are complete (R100): the row four below has been received, at the last rows the last row, or the
frame has closed. -/
def Frame.windowDone (f : Frame) (y : Nat) : Bool :=
  f.st != .open_ || f.lines.any fun l => decide (min (y + 4) (f.rows - 1) ≤ l.y)

/-- The frame and line that leaves the pipeline next. -/
def HeadSt.nextLine (x : HeadSt) : Option (Frame × RawLine) :=
  match x.frames.find? fun f => decide (f.emitted < f.lines.length) with
  | some f =>
    match f.lines[f.emitted]? with
    | some l => if f.windowDone l.y then some (f, l) else none
    | none => none
  | none => none

/-- Frames no longer needed are forgotten: decided, fully emitted, integrated, and not among the last four
in frame order. -/
def HeadSt.prune (x : HeadSt) : HeadSt :=
  { x with frames := x.frames.filter fun f =>
      !f.decided || decide (f.emitted < f.lines.length) || x.tdi.ready.contains f.id || (f.calCand && !f.calTaken)
        || decide (x.nextId ≤ f.id + 4) }

/-- Make pixels of a frame INVALID at places of the pipeline (R98, R349). -/
def Frame.mark (f : Frame) (ms : List Mismatch) : Frame :=
  { f with lines := f.lines.map fun l =>
      { l with bad := l.bad ++ (ms.filter fun m => m.line == l.y).map fun m => (m.col, m.stage) } }

/-- A pixel of a frame is one that is processed: received, and not INVALID already. -/
def Frame.live (f : Frame) (y x : Nat) : Bool :=
  match f.lines.find? fun l => l.y == y with
  | some l => !l.crcBad && decide (x < l.got) && !(l.bad.any fun m => m.1 == x)
  | none => false

/-- The line of a frame that has left stage 8 last. -/
def Frame.lastOut (f : Frame) : Option Nat := if f.emitted = 0 then none else (f.lines[f.emitted - 1]?).map (·.y)

/-- Line `z` enters stage 2 between the leaving of the line before `y` and the leaving of line `y`, whose windows reach four
rows on (R100). -/
def Frame.enters (f : Frame) (y z : Nat) : Bool :=
  decide (z ≤ y + 4) && (match f.lastOut with
    | some p => decide (p + 4 < z)
    | none => true)

/-- Line `z` passes stage 7 as line `y` leaves: the line itself or, with MOSAIC, both lines of its quads (R100, R158). -/
def Frame.leaves (f : Frame) (mosaic : Bool) (y z : Nat) : Bool :=
  if mosaic then z / 2 == y / 2 && (match f.lastOut with
    | some p => p / 2 != y / 2
    | none => true)
  else z == y

/-- The operation that a mismatch names is performed as line `y` leaves the pipeline. -/
def Frame.performs (f : Frame) (mosaic : Bool) (y : Nat) (m : Mismatch) : Bool :=
  f.live m.line m.col && (match m.stage with
    | .correct | .sharpen => f.enters y m.line
    | .linear | .ratio => f.leaves mosaic y m.line)

/-- The pixels at which a list of mismatches counts: once each (R98). -/
def mismatched (ms : List Mismatch) : Nat := ((ms.map fun m => (m.line, m.col)).eraseDups).length

/-- Pixels that an uncorrectable word makes INVALID from stage 2 on. -/
def pixelMarks (ps : List PixelAt) : List Mismatch := ps.map fun p => { line := p.line, col := p.col, stage := .correct }

/-- The MOSAIC of a head's characterisation. -/
def Block.mosaic (b : Block) (h : Nat) : Bool := match (b.port h).hdr with | some c => c.mosaic | none => false

/-- Base of a head's raw replay ring, and the slot of a FRAME number in it. -/
def rawAddr (h : Nat) (num : Word) : Nat := 0x90000000 + h * 0x01400000 + num.toNat % 3 * 0x00600000

/-- Columns of a line whose carat record is uncorrectable in HBM (R349). -/
def Block.spoiltRecords (b : Block) (h : Nat) (f : Frame) (y : Nat) : List Nat :=
  let cc := match (b.port h).hdr with | some c => c.cols | none => 0
  if b.bad.isEmpty then []
  else (List.range f.cols).filter fun x => b.hbmBad (bankAddr h f.bank + ((f.oy + y) * cc + f.ox + x) * 16) 16

/-- Columns of a line whose defect table entry is uncorrectable (R349). -/
def Block.spoiltDefs (b : Block) (h : Nat) (f : Frame) (y : Nat) : List Nat :=
  if b.bad.isEmpty then []
  else (List.range f.cols).filter fun x =>
    b.isBad (.defect (BitVec.ofNat 27 (h * 2 ^ 22 + (f.oy + y) * 2 ^ 11 + (f.ox + x))))

/-- Columns of a line whose raw pixel is uncorrectable in the replay ring (R349). -/
def Block.spoiltRaw (b : Block) (h : Nat) (f : Frame) (y : Nat) : List Nat :=
  if b.bad.isEmpty then []
  else (List.range f.cols).filter fun x => b.hbmBad (rawAddr h f.num + (y * f.cols + x) * 2) 2

/-- Columns of a line that are uncorrectable in the frame store (R349). -/
def Block.spoiltStore (b : Block) (h : Nat) (f : Frame) (y : Nat) : List Nat :=
  if b.bad.isEmpty then [] else (List.range f.cols).filter fun x => b.hbmBad (storeAddr h f.num f.cols x y) 4

/-- What reading a frame back from the replay ring finds (R349): the frame with its uncorrectable pixels INVALID and their
defect entries skipped; the uncorrectable reads of HBM; those of them that are carat records; and the pixels whose
defect entry is uncorrectable. -/
structure Reread where
  frame : Frame
  reads : Nat
  records : Nat
  entries : Nat
  deriving DecidableEq, Repr

/-- A frame as the replay ring gives it back (R120, R224, R349), with the defect table where stage 5 runs on it. -/
def Block.reread (b : Block) (h : Nat) (f : Frame) (defects : Bool) : Reread :=
  let raw (l : RawLine) : List Nat := b.spoiltRaw h f l.y
  let recs (l : RawLine) : List Nat := b.spoiltRecords h f l.y
  let defs (l : RawLine) : List Nat := if defects && !l.crcBad then b.spoiltDefs h f l.y else []
  let count (g : RawLine → List Nat) : Nat := f.lines.foldl (fun n l => n + (g l).length) 0
  { frame := { f with lines := f.lines.map fun l =>
      { l with bad := (raw l ++ recs l ++ defs l).eraseDups.map fun x => (x, .correct), skips := defs l } }
    reads := count fun l => (raw l ++ recs l).eraseDups
    records := count recs
    entries := count defs }

/-- Pixels of the lines that enter stage 2 as line `y` leaves whose carat record HBM gives back uncorrectable, now or since
(R349). -/
def Block.lostReads (b : Block) (h : Nat) (f : Frame) (y : Nat) (now : List LostRecord) : List PixelAt :=
  let known := (f.lines.map fun l => if f.enters y l.y then (b.spoiltRecords h f l.y).map fun x => (⟨l.y, x⟩ : PixelAt) else []).flatten
  (((now.filter fun r => !r.prefetch && f.enters y r.pixel.line).map (·.pixel)) ++ known).eraseDups.filter fun p =>
    f.live p.line p.col

/-- Pixels of the lines that enter stage 2 as line `y` leaves whose carat record is uncorrectable in the coefficient
prefetch (R349). -/
def Frame.lostPrefetch (f : Frame) (y : Nat) (now : List LostRecord) : List PixelAt :=
  ((now.filter fun r => r.prefetch && f.enters y r.pixel.line).map (·.pixel)).eraseDups.filter fun p => f.live p.line p.col

/-- Pixels of the lines that enter stage 2 as line `y` leaves whose carat record is lost, in HBM or in the prefetch: each is
counted in REC_BAD (R349). -/
def Block.lostRecords (b : Block) (h : Nat) (f : Frame) (y : Nat) (now : List LostRecord) : List PixelAt :=
  (b.lostReads h f y now ++ f.lostPrefetch y now).eraseDups

/-- Pixels of the lines that enter stage 2 as line `y` leaves whose defect entry is uncorrectable (R349). -/
def Block.lostDefects (b : Block) (h : Nat) (f : Frame) (y : Nat) : List PixelAt :=
  (f.lines.map fun l => if f.enters y l.y && !l.crcBad then (b.spoiltDefs h f l.y).map fun x => (⟨l.y, x⟩ : PixelAt)
    else []).flatten

/-- Pixels that meet an uncorrectable word in a buffer or a table as line `y` leaves, and those of its lines that enter whose
defect entry is uncorrectable (R349). -/
def Block.lostBuffers (b : Block) (h : Nat) (f : Frame) (y : Nat) (now : List PixelAt) : List PixelAt :=
  ((now.filter fun p => decide (y ≤ p.line) && decide (p.line ≤ y + 4) && f.live p.line p.col) ++ b.lostDefects h f y).eraseDups

/-- Skip the defect entries of pixels (R349). -/
def Frame.skipDefects (f : Frame) (ps : List PixelAt) : Frame :=
  if ps.isEmpty then f
  else { f with lines := f.lines.map fun l => { l with skips := l.skips ++ (ps.filter fun p => p.line == l.y).map (·.col) } }

/-- The taps a frame's lines are copied to, as the streams stand (R265, R266); line `y` at T6 by its decimation. -/
def Block.tapsNow (b : Block) (h : Nat) (f : Frame) (y : Nat) : BitVec 8 :=
  [1, 2, 3, 4, 6].foldl (fun (w : BitVec 8) t =>
    if f.taps.getLsbD t && b.strEn (8 * h + t) && !f.withheld t && (t != 6 || y % (fieldOf f.taps 15 8 + 1) == 0) then
      w ||| 1#8 <<< t
    else w) 0

/-- Note at which taps a line has been emitted (R120). -/
def Frame.noteOut (f : Frame) (y : Nat) (out : BitVec 8) : Frame :=
  { f with lines := f.lines.map fun l => if l.y = y then { l with out := out } else l }

/-- The next line of head `h` leaves stages 2 to 8 (R100, R117): its taps, frame store and counters; in frame
mode it goes to the verdict engine (R15). Pixels of the lines processed with it that meet a residue mismatch, an
uncorrectable record or an uncorrectable word in a buffer, table or defect entry are INVALID from there on, the entry being
skipped (R98, R349). -/
def correctLine (h : Nat) (mismatch : List Mismatch) (ue : List LostRecord) (buffers : List PixelAt) (b : Block) : Block :=
  let x := b.hd h
  match x.nextLine with
  | none => b
  | some (f0, l) =>
    let f := f0
    let mm := mismatch.filter (f.performs (b.mosaic h) l.y)
    let uu := b.lostRecords h f l.y ue
    let ss := b.lostBuffers h f l.y buffers
    let f := (f.mark (mm ++ pixelMarks uu ++ pixelMarks ss)).skipDefects (b.lostDefects h f l.y)
    match f.snap with
    | none => b
    | some sn =>
      let e := b.envOf h f sn false (·.f)
      match e.run sn l.y with
      | none => b
      | some row =>
        let b := (b.incPl f.pipe Reg.PL_RES_CNT 15 0 (mismatched mm)).incPl f.pipe Reg.PL_CNT_A 31 16 uu.length
        let b := sramUe (ss.length + (f0.lostPrefetch l.y ue).length) (hbmUe (b.lostReads h f0 l.y ue).length (countRow f.pipe row b))
        let b := putState e f l.y row b
        let out := b.tapsNow h f l.y
        let (pix, g, b) := emitRow h f e row false l.f b
        let hold := g.stat.supply || f.cold
        let b := if f.band then b else pushJob h [(h, f.id)] g pix (hold && f.st != .sealed) false b
        let f := { f.noteOut l.y out with emitted := f.emitted + 1, mism := f.mism + mismatched mm }
        let done := f.st != .open_ && f.emitted == f.lines.length
        let b := if done && !f.items then residueCheck f.pipe f.mism (issueFrameItems h f [1, 2, 3, 4, 6] b) else b
        let f := if done then { f with items := true } else f
        let b := setFrame h f b
        let b := b.setHd h { b.hd h with frames := (b.hd h).frames.map fun g =>
          if g.id < f.id && g.num.toNat % 4 == f.num.toNat % 4 then { g with slotLost := true } else g }
        let b := forEach ((List.range 26).filter fun p => (b.pl p).drainHead == some h) refreshDrain b
        b.setHd h (b.hd h).prune

end Sys2Proof.Machine
end

