-- ==== Sys2Proof/Machine/Cal.lean ====
section
/-! DEFINITION. Shutter calibration (11_shutter_calibration.md, R215 to R234). -/

namespace Sys2Proof.Machine

/-! ### Conditions (R217, R218) -/

/-- The gap window is open (R218). -/
def Block.gapOpen (b : Block) : Bool :=
  let q := b.hwmNow (b.fld Reg.CAL_GAP 8 6)
  (b.bit Reg.CAL_GAP 0 && b.bit Reg.ACT_EI_STAT (b.fld Reg.CAL_GAP 3 1) != b.bit Reg.CAL_GAP 4)
    || (b.bit Reg.CAL_GAP 5 && decide (0 ≤ posDiff q (b.rdPos Reg.CAL_GAP_PLO_LO))
      && decide (0 ≤ posDiff (b.rdPos Reg.CAL_GAP_PHI_LO) q))

/-- A head has double coverage (R217). -/
def Block.doubleCover (b : Block) (h : Nat) : Bool :=
  b.bit Reg.SEAM_CTL 0 && b.bit Reg.SEAM_CTL 1 && b.budStep != 4 && !b.bit Reg.SEAM_STAT 7
    && (match b.chainPos h with
      | some c => !b.excludedAt c
      | none => false)

/-- A head is in production (R217). -/
def Block.inProduction (b : Block) (h : Nat) : Bool :=
  b.stkEn (b.portGroup h) && !b.still (b.stkSrc (b.portGroup h))

/-- The head's run has its shutter step between 3 and 8. -/
def Block.calBlind (b : Block) (h : Nat) : Bool := decide (3 ≤ b.calState h) && decide (b.calState h ≤ 8)

/-- No head at an adjacent chain position is in STATE 3 to 8 (R217). -/
def Block.neighboursOpen (b : Block) (h : Nat) : Bool :=
  match b.chainPos h with
  | some c => (List.range b.chainLen).all fun d =>
      !(decide (d + 1 = c ∨ c + 1 = d) && decide (b.chainHead d < 24) && b.calBlind (b.chainHead d))
  | none => true

/-- A pending run of a head may start now (R217). -/
def Block.calMayStart (b : Block) (h : Nat) : Bool :=
  let x := b.hd h
  if x.mg.isSome then false
  else if !b.inProduction h then true
  else if b.doubleCover h then b.neighboursOpen h
  else b.gapOpen
    || (x.cal.forced && decide (x.cal.pendAt + b.num Reg.CAL_RECAL_DEFER_MAX * 1000 * tuMs ≤ b.now))

/-- The state area of the head's pipeline is not usable (PL_TF_STAT.BADBASE). -/
def Block.tfBad (b : Block) (h : Nat) : Bool :=
  badBase (b.stageNow (b.curPipe h)) (b.colsOf h) (b.rowsOf h)

/-! ### State and commands -/

/-- Replace a head's calibration run. -/
def setCal (h : Nat) (c : CalSt) (b : Block) : Block := b.setHd h { b.hd h with cal := c }

/-- Set CAL_H_STAT.STATE, and FORCED, which reads 1 while a forced run is in progress. -/
def setCalState (h n : Nat) (b : Block) : Block :=
  let b := b.setFld (Reg.CAL_H_STAT h) 3 0 n
  b.putBit (Reg.CAL_H_STAT h) 4 ((b.hd h).cal.forced && decide (2 ≤ n) && decide (n ≤ 8))

/-- Set CAL_H_STAT.CAUSE. -/
def setCalCause (h n : Nat) (b : Block) : Block := b.setFld (Reg.CAL_H_STAT h) 19 16 n

/-- Queue a SHUTTER command of a run (R221); only the active member of a pair sends one (R231). -/
def calShutter (h : Nat) (close : Bool) (b : Block) : Block :=
  if b.standby then b
  else queueCmd h { opc := 0x03, payload := [BitVec.ofNat 8 (b2n close)], org := .shutter close } b

/-- The shuttered strikes of a run are told to the standby (R222, R231). -/
def mirrorShut (h : Nat) (b : Block) : Block :=
  let c := (b.hd h).cal
  match c.shutFrom with
  | some t => if h < 24 then mirror (.calShut (Fin.ofNat 24 h) (BitVec.ofNat 68 t) (c.shutTo.map (BitVec.ofNat 68))) b else b
  | none => b

/-- A frame is no candidate of a run that has ended, or of one that begins (R223). -/
def Frame.uncand (f : Frame) : Frame := { f with calCand := false }

/-- The run of a head has ended: STATE 9 while a retry waits, else 0 (R228). An opening that has ended before stays the end of
the shuttered strikes (R222). -/
def calEnd (h : Nat) (b : Block) : Block :=
  let x := b.hd h
  let c := x.cal
  let done : CalSt :=
    { c with closed := false, settleAt := none, used := [], skipped := 0, wanted := [], shutTo := some (c.shutTo.getD b.inst.t16),
             openEarly := false, opened := false, pass := false, written := false, swAfter := none, outcome := none }
  let b := mirrorShut h (b.setHd h { x with cal := done, frames := x.frames.map Frame.uncand })
  setCalState h (if c.retryAt.isSome then 9 else 0) b

/-- Step 6 of R221: the shutter opens, unless it already does. A standby, which sends no command, waits for the end of the
active member's step 6 (R231), unless it has heard of it. -/
def calOpen (h : Nat) (b : Block) : Block :=
  let c := (b.hd h).cal
  if !c.closed || c.opened then calEnd h b
  else if b.standby then (if c.shutTo.isSome then calEnd h b else setCalState h 8 b)
  else if c.openEarly then setCalState h 8 b
  else calShutter h false (setCalState h 8 (setCal h { c with settleAt := none } b))

/-- A run becomes pending (R215, R216). -/
def calPend (h trigger : Nat) (forced : Bool) (b : Block) : Block :=
  let c := (b.hd h).cal
  let b := setCal h { c with pendAt := b.now, forced := forced, retryAt := none } b
  setCalState h 1 (b.setFld (Reg.CAL_H_STAT h) 15 12 trigger)

/-- An automatic trigger (R215). -/
def calAuto (h trigger : Nat) (b : Block) : Block :=
  if b.bit Reg.CAL_CTL 0 && b.bound h && b.calState h == 0 && !(b.hd h).cal.stopped
  then calPend h trigger (b.bit Reg.CAL_CTL 2) b else b

/-- A request by software or an action (R216): it merges with a run pending or in progress, and ends a retry
wait. -/
def calRequest (h trigger : Nat) (forced : Bool) (b : Block) : Block :=
  if !b.bound h then setCalCause h 10 b
  else
    let c := (b.hd h).cal
    let b := setCal h { c with stopped := false } b
    let st := b.calState h
    if st = 0 then calPend h trigger forced b
    else if st = 9 then calPend h trigger (forced || c.forced) b
    else
      let b := setCal h { (b.hd h).cal with forced := forced || c.forced } b
      setCalState h st b

/-- The drift trigger of a new reading (R215). -/
def calDrift (h tfpa : Nat) (b : Block) : Block :=
  if b.fld Reg.CAL_RECAL_DT 23 0 < ((tfpa : Int) - b.num (Reg.CAL_H_TREF h)).natAbs then calAuto h 1 b else b

/-- The bind trigger (R215). -/
def calBind (h : Nat) (b : Block) : Block :=
  if b.bit Reg.CAL_CTL 1 && !(b.hd h).cal.accepted then calAuto h 6 b else b

/-! ### Rejection and abandonment (R228, R229) -/

/-- The outcome of a run is mirrored by its CAUSE (R231). -/
def mirrorOutcome (h cause : Nat) (b : Block) : Block :=
  if h < 24 then mirror (.calOutcome (Fin.ofNat 24 h) (BitVec.ofNat 4 cause)) b else b

/-- Count a rejection, log it, and schedule a retry or give up (R228). -/
def calCountReject (h cause : Nat) (b : Block) : Block :=
  let b := (setCalCause h cause (b.setBit (Reg.CAL_H_STAT h) 7)).inc (Reg.CAL_H_CNT h) 15 0 1
  let b := b.inc (Reg.CAL_H_STAT h) 31 24 1
  let b := logT24 0x0002 false ([BitVec.ofNat 8 h, BitVec.ofNat 8 cause] ++ leBytes 3 (b.num (Reg.CAL_H_SIGMA h))
    ++ leBytes 3 (b.num (Reg.CAL_H_DRIFT h)) ++ leBytes 4 (b.num (Reg.CAL_H_TDIFF h))) b
  let b := mirrorOutcome h cause b
  let max_ := b.fld Reg.CAL_CTL 23 16
  let c := (b.hd h).cal
  if max_ != 0 && max_ ≤ b.fld (Reg.CAL_H_STAT h) 31 24 then
    raiseBit 8 (setCal h { c with retryAt := none, stopped := true } (b.setBit (Reg.CAL_H_STAT h) 5))
  else setCal h { c with retryAt := some (b.now + max 1 (b.num Reg.CAL_RECAL_RETRY) * 1000 * tuMs) } b

/-- A run is rejected or refused (R228): with the shutter closed it goes on to step 6, else it ends. -/
def calReject (h cause : Nat) (b : Block) : Block := calOpen h (calCountReject h cause b)

/-- The inactive bank is no longer owned by calibration (R226, R229): its digest is not valid, and no switch that the run has
requested is made. -/
def calDisown (h : Nat) (b : Block) : Block :=
  if b.bit (Reg.HD_BANK h) 3 then
    let b := if b.calState h = 7 then b.clrBit (Reg.HD_BANK h) 1 else b
    noteBankWrite h (!b.activeBank h) (b.clrBit (Reg.HD_BANK h) 3)
  else b

/-- Abandon a run in STATE 1 to 8 with CAUSE 10 (R229): SHUTTER open is sent at once, or where the link is down and no open has
been answered, at the first SET_PORT after the link comes back. -/
def calAbandon (h : Nat) (b : Block) : Block :=
  let st := b.calState h
  if 1 ≤ st ∧ st ≤ 8 then
    let c := (b.hd h).cal
    let b := mirrorOutcome h 10 (calDisown h (setCalCause h 10 b))
    let asked := st == 8 || c.openEarly
    let b := if c.closed && !c.opened && !(asked && c.settleAt.isSome) then
        if !b.linkUp h then setCal h { c with openOwed := true } b
        else if asked then b
        else calShutter h false b
      else b
    let c := (b.hd h).cal
    calEnd h (setCal h { c with retryAt := none } b)
  else b

/-- The gap window has closed (R221): an unforced run of a head with single coverage is abandoned with CAUSE 9
before step 3 has finished, and opens its shutter at once after it. -/
def calGapClosed (h : Nat) (b : Block) : Block :=
  let st := b.calState h
  let c := (b.hd h).cal
  if c.forced || b.doubleCover h || b.standby then b
  else if 3 ≤ st ∧ st ≤ 5 then calOpen h (mirrorOutcome h 9 (setCalCause h 9 b))
  else if (st = 6 ∨ st = 7) && !c.openEarly then
    calShutter h false (setCal h { c with openEarly := true, settleAt := none } b)
  else b

/-- What a change of conditions does to every run: a run that waits for the grant without its conditions returns
to STATE 1 (R220); `wasOpen` tells whether the gap window was open before. -/
def calUpdate (wasOpen : Bool) (b : Block) : Block :=
  forEach (List.range 24) (fun h b =>
    let b := if wasOpen && !b.gapOpen then calGapClosed h b else b
    if b.calState h == 2 && !b.calMayStart h then setCalState h 1 b else b) b

/-! ### Collecting (R223, R224) -/

/-- Frames per run (CAL_CTL.N). -/
def Block.calN (b : Block) : Nat := max 1 (min 64 (b.fld Reg.CAL_CTL 31 24))

/-- The address of a pixel's word in plane `p` of the head's state area. -/
def Block.calAddr (b : Block) (h p x y : Nat) : Nat :=
  let base := (b.rd64 (Reg.PL_TF_BASE_LO (b.curPipe h))).toNat % 2 ^ 34
  base + p * planeBytes (b.colsOf h) (b.rowsOf h) + (y * b.colsOf h + x) * 2

/-- Zero the sums and counts of the planes 0 to 2 as collection begins. -/
def calClear (h : Nat) (b : Block) : Block :=
  let base := b.calAddr h 0 0 0
  mendHbm base (3 * planeBytes (b.colsOf h) (b.rowsOf h))
    { b with hbm := b.hbm.clear base (base + 3 * planeBytes (b.colsOf h) (b.rowsOf h)) }

/-- What a calibration read of a pixel gives (R224): nothing, a saturated sample, or raw - o in 2^-6 counts. -/
inductive CalPx where
  | skip | sat
  | add (v : Int) (good : Bool)

/-- Read one pixel of a used frame, as the replay ring and the bank give it back. -/
def calPixel (e : Env) (depth : Nat) (l : RawLine) (x : Nat) : CalPx :=
  let r := e.record x l.y
  let raw := (l.pixels.getD x 0).toNat
  if l.crcBad || l.got ≤ x || l.spoilt .correct x || !rchkOk r then .skip
  else if raw = 0 || raw = 2 ^ depth - 1 then .sat
  else .add ((raw : Int) * 64 - offsetOf r (dtOf (e.temp l) e.anchor)) (cField r 105 104 == 0)

/-- Add one pixel to the state area's sum and count. -/
def calAdd (h x y : Nat) (v : Int) (b : Block) : Block :=
  let lo := b.calAddr h 0 x y
  let hi := b.calAddr h 1 x y
  let n := b.calAddr h 2 x y
  let s : Word := BitVec.ofNat 32 (b.hbmNum lo 2 + 2 ^ 16 * b.hbmNum hi 2) + BitVec.ofInt 32 v
  hbmPut n (leBytes 2 (b.hbmNum n 2 + 1))
    (hbmPut hi (leBytes 2 (s.toNat / 2 ^ 16)) (hbmPut lo (leBytes 2 (s.toNat % 2 ^ 16)) b))

/-- The running sums of one used frame: sum and count over class 0 pixels, saturated pixels. -/
structure CalAcc where
  sum : Int := 0
  n : Nat := 0
  sat : Nat := 0

/-- Accumulate a used frame (R224). -/
def calAccumulate (h : Nat) (f : Frame) (g : Reading) (b : Block) : Block :=
  match f.snap with
  | none => b
  | some sn =>
    let found := b.reread h f false
    let f := found.frame
    let b := (hbmUe found.reads b).incPl (b.regPipe h) Reg.PL_CNT_A 31 16 found.records
    let e := b.envOf h f sn true (fun l => measured f.before g l.a)
    let depth := b.fld (Reg.HD_FMT h) 20 16
    let (acc, b) := f.lines.foldl (fun (a : CalAcc × Block) l =>
      (List.range f.cols).foldl (fun (a : CalAcc × Block) x =>
        match calPixel e depth l x with
        | .skip => a
        | .sat => ({ a.1 with sat := a.1.sat + 1 }, a.2)
        | .add v good =>
          (if good then { a.1 with sum := a.1.sum + v, n := a.1.n + 1 } else a.1, calAdd h x l.y v a.2)) a)
      (({} : CalAcc), b)
    let (ts, sh) := match f.trailer with
      | some (_, _, ts, sh, _, _) => (ts, sh)
      | none => (0, 0)
    let m : Option Rat := if acc.n = 0 then none else some ((acc.sum : Rat) / (acc.n : Rat))
    let c := (b.hd h).cal
    let u : CalFrame := { m := m, tg := g.t.toNat, tshut := ts, sat := acc.sat, shutter := sh }
    let b := setCal h { c with used := c.used ++ [u], lastUsed := f.num } b
    b.setFld (Reg.CAL_H_FRAMES h) 15 0 (c.used.length + 1)

/-! ### Acceptance (R225) -/

/-- The integer square root, from bit `k` down. -/
def isqrtFrom (n : Nat) : Nat → Nat → Nat
  | 0, r => r
  | k + 1, r => isqrtFrom n k (if (r + 2 ^ k) * (r + 2 ^ k) ≤ n then r + 2 ^ k else r)

/-- The square root of a rational rounded to nearest, ties away from zero (R7). -/
def roundSqrt (q : Rat) : Nat := (isqrtFrom ((4 * q).floor.toNat) 64 0 + 1) / 2

/-- A pixel's calibration result: its record, gbar in 2^-22, a in counts (none where it added nothing), and
whether it added to at least half the frames. -/
structure CalRes where
  rec_ : Nat
  gbar : Int
  a : Rat
  enough : Bool

/-- The result of pixel (x, y) of the window (R225). -/
def Block.calRes (b : Block) (h : Nat) (dt : Int) (x y : Nat) : CalRes :=
  let f := b.fld (Reg.HD_BIND h)
  let cc := match (b.port h).hdr with | some c => c.cols | none => 0
  let addr := bankAddr h (b.activeBank h) + ((f 21 12 * 2 + y) * cc + f 11 6 * 32 + x) * 16
  let r := b.hbmNum addr 16
  let n := b.hbmNum (b.calAddr h 2 x y) 2
  let s := (BitVec.ofNat 32 (b.hbmNum (b.calAddr h 0 x y) 2 + 2 ^ 16 * b.hbmNum (b.calAddr h 1 x y) 2)).toInt
  { rec_ := r, gbar := clampI 0 (2 ^ 24 - 1) (gainOf r dt), a := if n = 0 then 0 else (s : Rat) / 64 / (n : Rat),
    enough := decide ((b.calN + 1) / 2 ≤ n) && decide (0 < n) }

/-- cbar of a pixel in counts (R225). -/
def CalRes.cbar (p : CalRes) : Rat := (p.gbar : Rat) / 2 ^ 22 * (p.a - (cSigned p.rec_ 95 82 : Rat) / 4)

/-- A reference pixel (R225). -/
def CalRes.isRef (p : CalRes) : Bool :=
  cField p.rec_ 105 104 == 0 && cField p.rec_ 110 110 == 0 && p.enough && decide (0 < p.gbar)

/-- The mean of a list of rationals; 0 of none. -/
def meanRat (xs : List Rat) : Rat := if xs.isEmpty then 0 else sumRat xs / (xs.length : Rat)

/-- The largest difference of consecutive values of m (R225). -/
def maxDrift : List CalFrame → Rat
  | u :: v :: us =>
    let d : Rat := match u.m, v.m with
      | some p, some q => absRat (q - p)
      | _, _ => 0
    max d (maxDrift (v :: us))
  | _ => 0

/-- Form the acceptance values of R225, and leave them in the registers; the CAUSE of the tests. -/
def calEvaluate (h : Nat) (b : Block) : Nat × Block :=
  let c := (b.hd h).cal
  let tref := (roundRat (meanRat (c.used.map fun u => (u.tg : Rat)))).toNat
  let tshut := meanRat (c.used.map fun u => (u.tshut : Rat))
  let dt := dtOf tref (b.anchor h)
  let refs := ((List.range (b.rowsOf h)).map fun y =>
    ((List.range (b.colsOf h)).map fun x => b.calRes h dt x y).filter CalRes.isRef).flatten
  let cbars := refs.map CalRes.cbar
  let mean := meanRat cbars
  let (v, b') := b.draw
  let (w, b') := b'.draw
  let (cm, sg, b) := if refs.isEmpty then
      ((v.setWidth 24 : BitVec 24).toInt, (w.setWidth 24 : BitVec 24).toNat, b')
    else
      (satS 24 (roundRat (mean * 64)),
       min (2 ^ 24 - 1) (roundSqrt ((meanRat (cbars.map fun q => q * q) - mean * mean) * 4096)), b)
  let drift := maxDrift c.used
  let curve := ((b.takeSnap h (b.stageNow (b.curPipe h))).radiance cm).val
  let tdiff := satS 32 (roundRat (curve * 16 - tshut))
  let sat := c.used.foldl (fun n u => max n u.sat) 0
  let b := b.wrN (Reg.CAL_H_SIGMA h) sg
  let b := b.wrN (Reg.CAL_H_DRIFT h) (satU 24 (roundRat drift))
  let b := b.wr (Reg.CAL_H_TDIFF h) (BitVec.ofInt 32 tdiff)
  let b := b.wrN (Reg.CAL_H_SATMAX h) sat
  let b := b.wr (Reg.CAL_H_CMEAN h) (BitVec.ofInt 32 cm)
  let b := setCal h { (b.hd h).cal with tref := tref, tshut := (roundRat tshut).toNat } b
  let cause :=
    if c.used.any (fun u => u.shutter != 1) then 2
    else if b.fld Reg.CAL_SH_SAT 21 0 < sat then 4
    else if (b.fld Reg.CAL_SH_DRIFT 23 0 : Rat) < drift then 5
    else if (b.fld Reg.CAL_SH_TAGREE 23 0 : Int) < tdiff.natAbs then 6
    else if b.fld Reg.CAL_SH_SIGMA 23 0 < sg || refs.isEmpty then 7
    else 1
  (cause, b)

/-- Collection has ended with N frames used (R221, R225): the tests decide. -/
def calFinish (h : Nat) (b : Block) : Block :=
  let (cause, b) := calEvaluate h (setCalState h 6 b)
  if cause = 1 then mirrorOutcome h 1 (setCal h { (b.hd h).cal with pass := true } (setCalCause h 1 b))
  else calReject h cause b

/-- Collection has ended by skips (R223, R225): the values are left in the registers, and the run is rejected. -/
def calSkipped (h : Nat) (b : Block) : Block := calReject h 3 (calEvaluate h (setCalState h 6 b)).2

/-- Whether a decided candidate is used (R223). -/
def Frame.calUsable (f : Frame) : Bool :=
  f.st != .lapsed && f.own.isSome && !f.short && !f.long && !(f.lines.any (·.supply)) && !f.rawLost

/-- A candidate frame comes to its turn (R223, R224): it is used, and named to the partner, or skipped. -/
def calCandidate (h : Nat) (f : Frame) (b : Block) : Block :=
  let c := (b.hd h).cal
  match f.own, f.calUsable with
  | some g, true =>
    let b := calAccumulate h f g b
    let b := if h < 24 then mirror (.calFrame (Fin.ofNat 24 h) f.num) b else b
    if b.calN ≤ (b.hd h).cal.used.length then calFinish h b else b
  | _, _ =>
    let b := setCal h { c with skipped := c.skipped + 1 } b
    let b := b.inc (Reg.CAL_H_FRAMES h) 31 16 1
    if b.fld Reg.CAL_SH_SKIPMAX 7 0 < c.skipped + 1 then calSkipped h b else b

/-- The outcome of a run at a standby, by its CAUSE (R231): an accepted one is written and switched here too; a rejected one counts
and leaves its values as at the active member (R225, R228); an abandoned one ends (R221, R229). -/
def calOutcome (h cause : Nat) (b : Block) : Block :=
  let b := setCal h { (b.hd h).cal with outcome := none } b
  let collected := b.calState h == 5
  if cause = 1 then
    let b := (calEvaluate h (setCalState h 6 b)).2
    setCalCause h 1 (setCal h { (b.hd h).cal with pass := true } b)
  else if cause = 10 then
    let b := calDisown h (setCalCause h 10 b)
    calEnd h (setCal h { (b.hd h).cal with retryAt := none } b)
  else if cause = 9 then calOpen h (setCalCause h 9 b)
  else calReject h cause (if collected then (calEvaluate h (setCalState h 6 b)).2 else b)

/-- The outcome of a run is heard (R231): it acts once every frame that the active member has used has been accumulated, an
abandonment at once. -/
def calOutcomeHeard (h cause : Nat) (b : Block) : Block :=
  let c := (b.hd h).cal
  if c.wanted.isEmpty || cause = 9 || cause = 10 then calOutcome h cause b else setCal h { c with outcome := some cause } b

/-- Every named frame has been accumulated: an outcome that waits for them acts. -/
def calOutcomeDue (h : Nat) (b : Block) : Block :=
  let c := (b.hd h).cal
  match c.outcome with
  | some cause => if c.wanted.isEmpty then calOutcome h cause b else b
  | none => b

/-- A frame that the active member has used comes to its turn at the standby (R231): it is accumulated from the own data
where it is sealed here (R123). -/
def calNamed (h : Nat) (f : Frame) (b : Block) : Block :=
  let c := (b.hd h).cal
  let b := setCal h { c with wanted := c.wanted.erase f.num } b
  calOutcomeDue h (match f.own, f.calUsable with
  | some g, true => calAccumulate h f g b
  | _, _ => b)

/-- The frame whose calibration read comes next (R223, R231): the first candidate in frame order, once it has been
decided; at a standby the first decided frame that the active member has named. -/
def Block.calNext (b : Block) (h : Nat) : Option Frame :=
  let x := b.hd h
  if b.standby then x.frames.find? fun f => f.decided && !f.calTaken && x.cal.wanted.contains f.num
  else match x.frames.find? fun f => f.calCand && !f.calTaken with
    | some f => if f.decided then some f else none
    | none => none

/-- The calibration reads that may be made (R223, R224), unless the arbiter defers bulk transfers (R293). `fuel` bounds the
frames of the head. -/
def calReads (h : Nat) : Nat → Block → Block
  | 0, b => b
  | fuel + 1, b =>
    if b.calState h != 5 || b.bit Reg.BUD_STAT 6 then b
    else match b.calNext h with
      | some f =>
        let b := setFrame h { f with calTaken := true } b
        calReads h fuel (if b.standby then calNamed h f b else calCandidate h f b)
      | none => b

/-- A head's frames have been decided, or bulk transfers are no longer deferred: its calibration reads go on. -/
def calCollect (h : Nat) (b : Block) : Block := calReads h (b.hd h).frames.length b

/-- Calibration reads of every head go on (R293). -/
def calResume (b : Block) : Block := forEach (List.range 24) calCollect b

/-! ### Steps of a run (R217 to R227) -/

/-- Head `g`'s pending run is considered before head `h`'s (R217). -/
def Block.pendsBefore (b : Block) (g h : Nat) : Bool :=
  let p := (b.hd g).cal.pendAt
  let q := (b.hd h).cal.pendAt
  decide (p < q ∨ (p = q ∧ g < h))

/-- A pending run whose conditions hold moves on to wait for the grant, or is refused (R217, R219). -/
def calStart (h : Nat) (b : Block) : Block :=
  if b.calState h == 1 && !b.standby && b.calMayStart h
    && (List.range 24).all (fun g => !(b.calState g == 1 && b.calMayStart g && b.pendsBefore g h)) then
    if !b.bound h then calReject h 10 b
    else if b.tfBad h then calReject h 11 b
    else setCalState h 2 b
  else b

/-- The temporal filter of an undecided frame stops (R222): it keeps no plane and commits none. -/
def Frame.unfilter (f : Frame) : Frame := if f.decided then f else { f with tf := false, planeIn := none, planeOut := none }

/-- The run begins (R221 step 1): the committed plane becomes none, the filter stops and SHUTTER close is sent. -/
def calBegin (h : Nat) (b : Block) : Block :=
  let x := b.hd h
  let c := { x.cal with used := [], skipped := 0, closed := true, shutFrom := none, shutTo := none, openEarly := false,
                        opened := false, pass := false, written := false, wanted := [], outcome := none, settleAt := none }
  let b := b.setHd h { x with plane := none, shut := true, cal := c, frames := x.frames.map fun f => f.unfilter.uncand }
  let b := (setCalState h 3 b).wrN (Reg.CAL_H_FRAMES h) 0
  calShutter h true b

/-- A run of the head waits for the grant (R220). -/
def Block.calReady (b : Block) (h : Nat) : Bool := b.calState h == 2 && b.calMayStart h

/-- A waiting calibration run may start (R293): granted, the first in this period, of the lowest head. -/
def Block.mayCal (b : Block) (h : Nat) : Bool :=
  b.cGrant && !b.bud.calDone && b.calReady h && (List.range h).all fun g => !b.calReady g

/-- Class C is granted to a waiting run (R220, R293). -/
def calGrant (h : Nat) (b : Block) : Block :=
  if b.mayCal h then
    let b := calBegin h { b with bud := { b.bud with calDone := true } }
    if h < 24 then mirror (.calStart (Fin.ofNat 24 h) (b.hd h).cal.forced) b else b
  else b

/-- The head has answered a SHUTTER command of the run (R221). -/
def calAnswered (h : Nat) (close : Bool) (b : Block) : Block :=
  let c := (b.hd h).cal
  if close then
    if b.calState h == 3 then
      setCalState h 4 (setCal h { c with settleAt := some (b.now + b.fld Reg.CAL_SETTLE 15 0 * tuMs) } b)
    else b
  else
    let b := b.setHd h { b.hd h with shut := false }
    if b.calState h == 8 || (c.openEarly && !c.opened) then
      setCal h { c with settleAt := some (b.now + b.fld Reg.CAL_SETTLE_OPEN 15 0 * tuMs) } b
    else b

/-- A SHUTTER command of the run has failed under R73: the close rejects the run with CAUSE 8; a failed open ends
the run with no response to wait for. -/
def calFailed (h : Nat) (close : Bool) (b : Block) : Block :=
  if close then (if b.calState h == 3 then calReject h 8 b else b)
  else if b.calState h == 8 then calEnd h b
  else setCal h { (b.hd h).cal with opened := true } b

/-- Settling has ended (R221): collection begins. -/
def calSettled (h : Nat) (b : Block) : Block :=
  match (b.hd h).cal.settleAt with
  | some t =>
    if b.calState h == 4 && decide (t ≤ b.now) then
      setCalState h 5 (calClear h (setCal h { (b.hd h).cal with settleAt := none } b))
    else b
  | none => b

/-- SETTLE_OPEN has passed (R221): step 6 ends. -/
def calOpened (h : Nat) (b : Block) : Block :=
  let c := (b.hd h).cal
  match c.settleAt with
  | some t =>
    if b.now < t then b
    else if b.calState h == 8 then calEnd h b
    else if c.openEarly && !c.opened then
      mirrorShut h (setCal h { c with settleAt := none, opened := true, shutTo := some b.inst.t16 } b)
    else b
  | none => b

/-- A record with a new Δs and its RCHK (R92, R226). -/
def calRecord (r : Nat) (ds : Option Int) : Nat :=
  let body := r % 2 ^ 111
  let body := match ds with
    | some d => body - cField body 95 82 * 2 ^ 82 + (BitVec.ofInt 14 d).toNat * 2 ^ 82
    | none => body
  body + body % 255 * 2 ^ 112

/-- The new Δs of a pixel in quarter counts, and whether it saturates (R226); none where it keeps its value. -/
def CalRes.newDs (p : CalRes) (cmean : Int) : Option Int × Bool :=
  if cField p.rec_ 105 104 == 3 || cField p.rec_ 110 110 == 1 || !p.enough || p.gbar == 0 then (none, false)
  else
    let q := roundRat ((p.a - (cmean : Rat) / 64 * 2 ^ 22 / (p.gbar : Rat)) * 4)
    (some (satS 14 q), satS 14 q != q)

/-- Write the inactive bank (R226): every record of the characterisation geometry, Δs replaced inside the window. -/
def calBankWrite (h : Nat) (b : Block) : Block :=
  let c := (b.hd h).cal
  if b.calState h == 6 && c.pass && !c.written && !b.bit (Reg.HD_BANK h) 2 && !b.bit (Reg.HD_BANK h) 1 then
    let act := b.activeBank h
    let b := b.setBit (Reg.HD_BANK h) 3
    let f := b.fld (Reg.HD_BIND h)
    let (wx, wy) := (f 11 6 * 32, f 21 12 * 2)
    let dt := dtOf c.tref (b.anchor h)
    let cm := b.snum (Reg.CAL_H_CMEAN h)
    let (cc, rr) := match (b.port h).hdr with | some c => (c.cols, c.rows) | none => (0, 0)
    let b0 := b
    let b := forEach (List.range rr) (fun y b => forEach (List.range cc) (fun x b =>
      let r := b0.hbmNum (bankAddr h act + (y * cc + x) * 16) 16
      let inside := decide (wx ≤ x ∧ x < wx + b0.colsOf h ∧ wy ≤ y ∧ y < wy + b0.rowsOf h)
      let (ds, sat) := if inside then (b0.calRes h dt (x - wx) (y - wy)).newDs cm else (none, false)
      let b := if sat then b.inc (Reg.CAL_H_CNT2 h) 15 0 1 else b
      hbmPut (bankAddr h (!act) + (y * cc + x) * 16) (leBytes 16 (calRecord r ds)) b) b) b
    let b := setCal h { (b.hd h).cal with written := true } (noteBankWrite h (!act) b)
    if b.bit (Reg.HD_BANK h) 4 then b else startDigest h (!act) false b
  else b

/-- The body of the calibration summary (R234). -/
def calSummary (h : Nat) (b : Block) : List Byte :=
  let x := b.hd h
  let act := b.activeBank h
  let (anchor, crc, serial) := match (b.port h).hdr with
    | some c => (c.anchor, c.crc.toNat, c.serial)
    | none => (0, 0, [])
  let ro := sext 18 (b.num (Reg.SEAM_H_RO h))
  [BitVec.ofNat 8 h, BitVec.ofNat 8 (b2n act)] ++ leBytes 2 x.cal.used.length ++ leBytes 4 x.cal.tref
    ++ leBytes 4 x.cal.tshut ++ leBytes 4 anchor ++ leBytes 4 (if act then x.digB else x.digA).toNat ++ leBytes 4 crc
    ++ leBytes 4 (b.num (Reg.SEAM_H_RG h)) ++ leBytes 4 (BitVec.ofInt 32 ro).toNat ++ leBytes 4 (b.num (Reg.CAL_H_SIGMA h))
    ++ leBytes 4 (b.num (Reg.CAL_H_DRIFT h)) ++ leBytes 4 (b.num (Reg.CAL_H_TDIFF h)) ++ leBytes 4 (b.num (Reg.CAL_H_SATMAX h))
    ++ leBytes 8 b.ns ++ (serial ++ List.replicate (16 - serial.length) 0).take 16 ++ List.replicate 24 0

/-- The boundary of the calibration switch or of a restore's switch (R227, R233), just after the banks switch. A standby's summary
is the active member's, mirrored with its SEQ (R338). -/
def calSwitched (h : Nat) (b : Block) : Block :=
  let x := b.hd h
  if x.restoring then
    b.setHd h { x with restoring := false, cal := { x.cal with ageFrom := some b.now, accepted := true, stopped := false } }
  else if b.calState h == 7 then
    let c := x.cal
    let b := (if b.wroteNow (Reg.CAL_H_TREF h) then b else b.wrN (Reg.CAL_H_TREF h) c.tref).wrN (Reg.CAL_H_TSHUT h) c.tshut
    let b := ((b.setBit (Reg.CAL_H_STAT h) 6).inc (Reg.CAL_H_CNT h) 31 16 1).setFld (Reg.CAL_H_STAT h) 31 24 0
    let b := b.clrBit (Reg.HD_BANK h) 3
    let b := if b.standby then b else queueWrite (.twin 0x20 h (calSummary h b)) b
    let b := setCal h { c with ageFrom := some b.now, accepted := true, stopped := false, retryAt := none } b
    calOpen h b
  else b

/-! ### Requests of a bank switch (R102) -/

/-- Switch banks now, with what a calibration or a restore does at that boundary. -/
def doSwitch (h : Nat) (b : Block) : Block := calSwitched h (switchBank h b)

/-- Request a switch (R102): at once without an open frame, else at the frame boundary. -/
def requestSwitch (h : Nat) (b : Block) : Block :=
  if b.bound h && b.frameOpen h then b.setBit (Reg.HD_BANK h) 1 else doSwitch h b

/-- HD_BANK.SWITCH from any other writer (R102): refused while calibration owns the inactive bank. -/
def hostSwitch (h : Nat) (b : Block) : Block :=
  if b.bit (Reg.HD_BANK h) 3 then b.setBit (Reg.HD_BANK h) 7 else requestSwitch h b

/-- A standby in STATE 7 requests its switch once the frame at whose end the active member switches has begun (R231). -/
def calSwitchTry (h : Nat) (b : Block) : Block :=
  let x := b.hd h
  match x.cal.swAfter with
  | some n =>
    if b.calState h == 7 && x.frames.any (·.num == n) then requestSwitch h (setCal h { x.cal with swAfter := none } b) else b
  | none => b

/-- The switch of an accepted run is requested (R227); the active member names the frame at whose end it is made to the
standby, which makes its own there (R231). -/
def calSwitchRequest (h : Nat) (b : Block) : Block :=
  let b := setCalState h 7 b
  if b.standby then calSwitchTry h b
  else
    let b := match (b.hd h).lastNum with
      | some n => if h < 24 then mirror (.calSwitch (Fin.ofNat 24 h) n) b else b
      | none => b
    requestSwitch h b

/-- The digest of the bank that a run has written, as the members compare it (R231, R342; its FRAME is the run's last used
frame: DESIGN CHOICE, log entry 128). -/
def calDigest (h : Nat) (d : Word) (b : Block) : Block :=
  ownDigest { kind := 4, head := BitVec.ofNat 5 h, frame := (b.hd h).cal.lastUsed, value := d.setWidth 64 } [] b

/-- The digest of the active bank that a switch owes is computed once no other one is (R103). -/
def digestOwed (h : Nat) (b : Block) : Block :=
  let x := b.hd h
  if x.digOwed && x.dig.isNone then
    let b := b.setHd h { x with digOwed := false }
    if b.bit (Reg.HD_BANK h) (if b.activeBank h then 6 else 5) then b else startDigest h (b.activeBank h) false b
  else b

/-- The digest in progress may be computed (R103, R220, R293): Class C bulk work; that of a calibration run that has been
granted waits for the arbiter alone. -/
def Block.digestRuns (b : Block) (h : Nat) : Bool :=
  if b.calState h == 6 && (b.hd h).cal.written then !b.bit Reg.BUD_STAT 6 else b.cBulk

/-- A bank digest completes (R103, R226, R233). -/
def finishDigest (h : Nat) (b : Block) : Block :=
  let x := b.hd h
  match x.dig with
  | none => b
  | some j =>
    let b := (b.setHd h { x with dig := none }).clrBit (Reg.HD_BANK h) 4
    let d := b.bankDigest h j.bank
    let b := if j.dirty then syncDescriptor h b else setDigest h j.bank d b
    let b := if j.restore then
        if !j.dirty && d = b.rd (Reg.CAL_H_RDIG h) then
          let b := b.setFld (Reg.CAL_H_STAT h) 23 20 1
          requestSwitch h (b.setHd h { b.hd h with restoring := true })
        else b.setFld (Reg.CAL_H_STAT h) 23 20 2
      else b
    let b := if b.calState h == 6 && (b.hd h).cal.written then
        if j.bank != b.activeBank h && !j.dirty then calSwitchRequest h (calDigest h d b)
        else startDigest h (!b.activeBank h) false b
      else b
    digestOwed h b

/-- CAL_H_CMD.RESTORE (R233). -/
def calRestore (h : Nat) (b : Block) : Block :=
  let k := Reg.HD_BANK h
  if b.calState h != 0 || b.bit k 2 || b.bit k 1 || b.bit k 4 then b.setFld (Reg.CAL_H_STAT h) 23 20 3
  else startDigest h (!b.activeBank h) true b

/-- Seconds since the last accepted run or restore (CAL_H_AGE). -/
def Block.calAge (b : Block) (h : Nat) : Option Nat :=
  (b.hd h).cal.ageFrom.map fun t => (b.now - t) / (1000 * tuMs)

end Sys2Proof.Machine
end

