-- ==== Sys2Proof/Machine/Integration.lean ====
section
/-! DEFINITION. Band integration (09_bands_and_seams.md, R174 to R183). -/

namespace Sys2Proof.Machine

/-- The pipeline whose band integration registers describe a head. -/
def Block.tdiPipe (b : Block) (h : Nat) : Nat :=
  if b.curPipe h < 26 then b.curPipe h
  else match (b.hd h).frames.getLast? with
    | some f => f.pipe
    | none => 31

/-- The settings as they stand in the registers (R183). -/
def Block.tdiNow (b : Block) (p : Nat) : TdiCfg :=
  { rowPitch := b.rd (Reg.PL_TDI_ROWPITCH p), off := b.rdPos (Reg.PL_TDI_OFF_LO p),
    origin := b.rdPos (Reg.PL_TDI_ORIGIN_LO p), outPitch := b.fld (Reg.PL_TDI_OUTPITCH p) 23 0,
    en := b.bit (Reg.PL_TDI_CTL p) 0 }

/-- OUTPITCH as it acts: at least ceil(|ROWPITCH|), at least 1 (R174). -/
def TdiCfg.pitch (c : TdiCfg) : Nat := max (max 1 c.outPitch) ((c.rowPitch.toInt.natAbs + 255) / 256)

/-- The position of output line `j` (R179). -/
def TdiCfg.linePos (c : TdiCfg) (j : Int) : Pos48 := c.origin + toPos (j * c.pitch)

/-- q_r - ORIGIN in 1/256 grain, for a band struck at `p` (R174). -/
def TdiCfg.rowAt (c : TdiCfg) (p : Pos48) (r : Nat) : Int :=
  posDiff (p - c.off) c.origin * 256 - (r : Int) * c.rowPitch.toInt

/-- The output line of a row (R174). -/
def TdiCfg.lineOf (c : TdiCfg) (q : Int) : Int := q / ((c.pitch * 256 : Nat) : Int)

/-- Address of integrated line `n` in the frame store (R180). -/
def tdiAddr (h cols : Nat) (n : Word) : Nat :=
  0xB0000000 + h * 0x03000000 + n.toNat / 1024 % 4 * 0x00C00000 + 0x00100000 + n.toNat % 1024 * cols * 4

/-- Send a line of stage 8 onward (R186, R195): to the seam unit where its head is stitched, else to the verdict
engine. `pitch` is the length of its interval. -/
def sendLine (h pitch : Nat) (srcs : List (Nat × Nat)) (g : LTag) (pix : List Pix) (lapsed : Bool) (b : Block) : Block :=
  match b.stitchedAt h, g.pos with
  | some c, some p =>
    let l : SeamLine := { head := h, chain := c, pos := p + b.posOff c, time := g.time, pix := pix, status := g.stat.num,
                          stamp := g.stamp, srcs := srcs, at_ := b.now, pitch := pitch }
    { b with seam := { b.seam with lines := b.seam.lines ++ [l] } }
  | _, _ => pushJob h srcs g pix false lapsed b

/-- Number a line by OUTSEQ, keep it in the frame store and send it on (R179, R180). -/
def outLine (h p pitch : Nat) (srcs : List (Nat × Nat)) (g : LTag) (pix : List Pix) (lapsed : Bool) (b : Block) : Block :=
  let n := b.rd (Reg.PL_TDI_OUTSEQ p)
  let b := b.wr (Reg.PL_TDI_OUTSEQ p) (n + 1)
  let g := { g with frame := n >>> 10, line := n.toNat % 1024 }
  sendLine h pitch srcs g pix lapsed (putStore (tdiAddr h g.cols n) pix b)

/-- Emit an open line, or an empty one (R178, R179); an uncorrectable accumulator gives an INVALID pixel (R349). -/
def emitOpen (h p cols : Nat) (c : TdiCfg) (j : Int) (line : Option OpenLine) (b : Block) : Block :=
  let b := b.wrPos (Reg.PL_TDI_LAST_J_LO p) (toPos j)
  match line with
  | none =>
    let b := b.incPl p Reg.PL_TDI_CNT_A 31 16 1
    outLine h p c.pitch [] { head := h, frame := 0, line := 0, cols := cols, stat := { sealed := true }, pos := some (c.linePos j) }
      (List.replicate cols Pix.dark) false b
  | some l =>
    let extra := extraFlags l.lapsed l.step
    let spoilt (x : Nat) : Bool := b.isBad (.accumulator (Fin.ofNat 24 h) j x)
    let pix := l.words.mapIdx fun x w =>
      let n := fieldOf w 31 28
      let s := fieldOf w 27 0
      if n = 0 || spoilt x then { Pix.dark with flags := BitVec.ofNat 4 (1 + extra) }
      else { v := satU 24 (roundDiv (s : Nat) n), flags := BitVec.ofNat 4 extra, w := 0, s := 0 }
    let stat : LStat := { sealed := !l.lapsed, prov := l.lapsed, revised := l.revised, supply := l.supply,
                          shuttered := l.shuttered, step := l.step }
    let b := sramUe ((List.range l.words.length).filter spoilt).length b
    let b := mend (fun u => match u with | .accumulator g k _ => g.val == h && k == j | _ => false) b
    let b := if l.lapsed then b.incPl p Reg.PL_TDI_CNT_D 15 0 1 else b
    outLine h p c.pitch l.srcs { head := h, frame := 0, line := 0, cols := cols, stat := stat, stamp := l.stamp,
                                 pos := some (c.linePos j), time := l.time } pix l.lapsed b

/-- Emit the gap lines before line `j` (R178): none of a run longer than GAP_MAX, which counts once. -/
def emitGaps (h p cols : Nat) (c : TdiCfg) (last : Option Int) (j : Int) (b : Block) : Block :=
  match last with
  | none => b
  | some l =>
    let n := (j - l - 1).toNat
    if n = 0 then b
    else if b.fld (Reg.PL_TDI_CTL p) 31 16 < n then b.incPl p Reg.PL_TDI_CNT_D 31 16 1
    else forEach (List.range n) (fun (i : Nat) b => emitOpen h p cols c (l + 1 + (i : Int)) none b) b

/-- Close and emit those open lines of a head that satisfy a test, in ascending index (R178). -/
def closeLines (h p : Nat) (test : OpenLine → Bool) (b : Block) : Block :=
  let t := (b.hd h).tdi
  match t.cfg with
  | none => b
  | some c =>
    let out := t.lines.filter test
    let b := b.setHd h { b.hd h with tdi := { t with lines := t.lines.filter fun l => !test l } }
    forEach out (fun l b =>
      let x := b.hd h
      let b := emitGaps h p l.words.length c x.tdi.last l.j b
      let b := emitOpen h p l.words.length c l.j (some l) b
      let x := b.hd h
      b.setHd h { x with tdi := { x.tdi with last := some l.j } }) b

/-- A rebase (R178, R183): every open line is emitted, and the next band starts without gap lines. -/
def rebase (h p : Nat) (b : Block) : Block :=
  let b := (closeLines h p (fun _ => true) b).incPl p Reg.PL_TDI_CNT_C 15 0 1
  let x := b.hd h
  b.setHd h { x with tdi := { x.tdi with last := none } }

/-- Add a pixel to an accumulator word (R177): the word, and whether it was full. -/
def accumulate (w : Word) (v : Nat) : Word × Bool :=
  let n := fieldOf w 31 28
  if n = 15 then (w, true) else (BitVec.ofNat 32 (fieldOf w 27 0 + v + (n + 1) * 2 ^ 28), false)

/-- FRAME `a` comes before FRAME `c`, modulo 2^32. -/
def frameBefore (a c : Word) : Bool := decide (a ≠ c) && (a - c).msb

/-- Put an open line in its place by index. -/
def insertLine (l : OpenLine) : List OpenLine → List OpenLine
  | [] => [l]
  | m :: ms => if l.j < m.j then l :: m :: ms else if l.j = m.j then l :: ms else m :: insertLine l ms

/-- Add a row of a band to its open line (R177). -/
def addRow (h p : Nat) (f : Frame) (l : RawLine) (j : Int) (b : Block) : Block :=
  let x := b.hd h
  let old : OpenLine := match x.tdi.lines.find? fun o => o.j == j with
    | some o => o
    | none => { j := j, words := List.replicate f.cols 0, lo := f.num, hi := f.num, time := l.time, stamp := l.stamp,
                revised := false, supply := false, shuttered := false, step := 0, lapsed := false, srcs := [] }
  let addr := storeAddr h f.num f.cols 0 l.y
  let sums := old.words.mapIdx fun x w =>
    let v := b.hbmNum (addr + 4 * x) 4
    if v / 2 ^ 24 % 2 = 1 || b.hbmBad (addr + 4 * x) 4 then (w, false) else accumulate w (v % 2 ^ 24)
  let above := (sums.filter (·.2)).length
  let first := frameBefore f.num old.lo
  let new : OpenLine := { old with
    words := sums.map (·.1), lo := if first then f.num else old.lo, hi := if frameBefore old.hi f.num then f.num else old.hi
    time := if first then l.time else old.time, stamp := if first then l.stamp else old.stamp
    revised := old.revised || f.restruck, supply := old.supply || l.supply, shuttered := old.shuttered || l.shuttered
    step := max old.step f.step, lapsed := old.lapsed || f.st == .lapsed
    srcs := if old.srcs.contains (h, f.id) then old.srcs else old.srcs ++ [(h, f.id)] }
  let b := hbmUe (b.spoiltStore h f l.y).length (b.incPl p Reg.PL_TDI_CNT_A 15 0 above)
  let x := b.hd h
  b.setHd h { x with tdi := { x.tdi with lines := insertLine new x.tdi.lines } }

/-- Put a band in its place among those that are ready, by frame order. -/
def insertId (n : Nat) : List Nat → List Nat
  | [] => [n]
  | m :: ms => if n < m then n :: m :: ms else m :: insertId n ms

/-- A band that is integrated once it is ready (R175): started by an edge or interpolated strike, at a known position. -/
def Frame.integrates (f : Frame) : Bool :=
  f.band && match f.lines.head? with
    | some l => decide (l.stamp.toNat / 2 ^ 19 < 2) && l.pos.isSome
    | none => false

/-- Head `h` has a band before frame `id` that is to be integrated and is not decided yet (R176). -/
def HeadSt.bandsBefore (x : HeadSt) (id : Nat) : Bool := x.frames.any fun f => f.integrates && decide (f.id < id) && !f.decided

/-- A band is ready (R175, R176): idle, manual and LATE bands are only counted. -/
def bandReady (h : Nat) (f : Frame) (b : Block) : Block :=
  if !f.band then b
  else
    let p := if b.curPipe h < 26 then b.curPipe h else f.pipe
    match f.lines.head? with
    | none => b
    | some l =>
      if 2 ≤ l.stamp.toNat / 2 ^ 19 then b.incPl p Reg.PL_TDI_CNT_B 31 16 1
      else if !f.integrates then b.incPl p Reg.PL_TDI_CNT_B 15 0 1
      else
        let x := b.hd h
        b.setHd h { x with tdi := { x.tdi with ready := insertId f.id x.tdi.ready } }

/-- A row of a band leaving alone with EN = 0 (R182). -/
def lineAlone (h p : Nat) (c : TdiCfg) (f : Frame) (at_ : Pos48) (l : RawLine) (b : Block) : Block :=
  let addr := storeAddr h f.num f.cols 0 l.y
  let lapsed := f.st == .lapsed
  let pix := (List.range f.cols).map fun x =>
    let v := b.hbmNum (addr + 4 * x) 4
    if b.hbmBad (addr + 4 * x) 4 then { Pix.dark with flags := BitVec.ofNat 4 (v / 2 ^ 24) ||| 1 }
    else ({ v := v % 2 ^ 24, flags := BitVec.ofNat 4 (v / 2 ^ 24), w := 0, s := 0 } : Pix)
  let q : Pos48 := c.origin + toPos (c.rowAt at_ l.y / 256)
  let stat : LStat := { short := l.short, long := l.long, crcBad := l.crcBad, sealed := !lapsed, prov := lapsed,
                        revised := f.restruck, supply := l.supply, shuttered := l.shuttered, step := f.step }
  outLine h p c.pitch [(h, f.id)] { head := h, frame := 0, line := 0, cols := f.cols, stat := stat, stamp := l.stamp, pos := some q,
                                    time := l.time } pix lapsed (hbmUe (b.spoiltStore h f l.y).length b)

/-- Integrate the band of a head that is ready first (R176 to R183), once every earlier band has been decided. -/
def integrateBand (h : Nat) (b : Block) : Block :=
  let x := b.hd h
  match x.tdi.ready with
  | [] => b
  | id :: rest =>
    if x.bandsBefore id then b
    else match x.frames.find? fun f => f.id == id with
    | none => b.setHd h { x with tdi := { x.tdi with ready := rest } }
    | some f =>
      match f.lines.head?.bind RawLine.pos with
      | none => b.setHd h { x with tdi := { x.tdi with ready := rest } }
      | some at_ =>
        let p := if b.curPipe h < 26 then b.curPipe h else f.pipe
        let c := b.tdiNow p
        let b := match x.tdi.cfg with
          | some old => if old = c then b else rebase h p b
          | none => b
        let x := b.hd h
        let b := b.setHd h { x with tdi := { x.tdi with ready := rest, cfg := some c } }
        let rows := if f.slotLost then [] else f.lines
        let b := if f.slotLost then b.incPl p Reg.PL_TDI_CNT_E 15 0 1 else b
        if !c.en then forEach rows (lineAlone h p c f at_) b
        else
          let ends := [c.rowAt at_ 0, c.rowAt at_ (f.rows - 1)]
          let lo := ends.foldl min (c.rowAt at_ 0)
          let hi := ends.foldl max (c.rowAt at_ 0)
          let b := closeLines h p (fun l => decide ((l.j + 1) * (c.pitch * 256 : Nat) ≤ lo)) b
          let b := match (b.hd h).tdi.last with
            | some last => if c.lineOf hi ≤ last then rebase h p b else b
            | none => b
          forEach (rows.filter fun l => !l.crcBad) (fun l b =>
            let j := c.lineOf (c.rowAt at_ l.y)
            match (b.hd h).tdi.last with
            | some last => if j ≤ last then b.incPl p Reg.PL_TDI_CNT_C 31 16 1 else addRow h p f l j b
            | none => addRow h p f l j b) b

/-- PL_TDI_CMD.FLUSH of a pipeline (R178). -/
def flushTdi (p : Nat) (b : Block) : Block :=
  let h := b.fld (Reg.PL_STAT p) 4 0
  if b.bit (Reg.PL_STAT p) 8 then closeLines h p (fun _ => true) b else b

/-- Standstill of source `n` closes the open lines of the heads struck from it, with FLUSH_SS (R178). -/
def standstillFlush (n : Nat) (b : Block) : Block :=
  forEach (List.range 26) (fun p b =>
    let h := b.fld (Reg.PL_STAT p) 4 0
    if b.bit (Reg.PL_STAT p) 8 && b.bit (Reg.PL_TDI_CTL p) 1 && b.stkSrc (b.portGroup h) == n then flushTdi p b else b) b

end Sys2Proof.Machine
end

