-- ==== Sys2Proof/Machine/Digest.lean ====
section
/-! DEFINITION. Digests of frames, strip windows and verdict windows (17_pair_operation.md, R341). -/

namespace Sys2Proof.Machine

/-- What a digest covers of a line: FRAME, LINE, STATUS, position, pixel words (R341). -/
def digestLine (frame : Word) (line status : Nat) (pos : Option Pos48) (words : List Nat) : List Byte :=
  leBytes 4 frame.toNat ++ leBytes 2 line ++ leBytes 4 status ++ posBytes pos ++ (words.map (leBytes 4)).flatten

/-- The digest of a decided head frame (R341), from the frame store and the STATUS its lines now have. -/
def digestFrame (h : Nat) (f : Frame) (b : Block) : Block :=
  if !b.digestsOn || f.st == .lapsed then b
  else
    let lines := (f.lines.take f.emitted).map fun l =>
      let words := (List.range f.cols).map fun x => b.hbmNum (storeAddr h f.num f.cols x l.y) 4
      let stat : LStat := { short := l.short, long := l.long, crcBad := l.crcBad, sealed := true, revised := f.restruck,
                            supply := l.supply, shuttered := l.shuttered, late := l.pos.isNone, step := f.step }
      (BitVec.ofNat 16 l.y, digestLine f.num l.y stat.num l.pos words)
    ownDigest { kind := 0, head := BitVec.ofNat 5 h, frame := f.num,
                value := lines.foldl (fun c l => crc64 c l.2) 0 } (lines.map fun l => (l.1, crc32c l.2)) b

/-- A strip line enters the strip window's digest, which begins with line 0 of its FRAME and ends with line 1,023; a window that
is not whole, as one in which a join has begun, has no digest. -/
def digestStrip (frame : Word) (line status : Nat) (pos : Option Pos48) (words : List Nat) (b : Block) : Block :=
  let bytes := digestLine frame line status pos words
  let p := if line = 0 then { b.pair with stripCrc := 0, stripCrcs := [] } else b.pair
  let c := crc64 p.stripCrc bytes
  let crcs := p.stripCrcs ++ [(BitVec.ofNat 16 line, crc32c bytes)]
  if line = 1023 then
    let b := setPair { p with stripCrc := 0, stripCrcs := [] } b
    if crcs.length = 1024 then ownDigest { kind := 1, head := 0x1F, frame := frame, value := c } crcs b else b
  else setPair { p with stripCrc := c, stripCrcs := crcs } b

/-- A verdict record enters the verdict window's digest, which begins and ends with its block of 1,024 numbers. -/
def digestVerdict (seq : Word) (record : List Byte) (b : Block) : Block :=
  let bytes := record.take 32
  let p := if seq.toNat % 1024 = 0 then { b.pair with vrdCrc := 0, vrdCrcs := [] } else b.pair
  let c := crc64 p.vrdCrc bytes
  let crcs := p.vrdCrcs ++ [(BitVec.ofNat 16 (seq.toNat % 1024), crc32c bytes)]
  if seq.toNat % 1024 = 1023 then
    let b := setPair { p with vrdCrc := 0, vrdCrcs := [] } b
    if crcs.length = 1024 then ownDigest { kind := 2, head := 0x1F, frame := seq >>> 10, value := c } crcs b else b
  else setPair { p with vrdCrc := c, vrdCrcs := crcs } b

end Sys2Proof.Machine
end

