-- ==== Sys2Proof/Machine/Action.lean ====
section
/-! DEFINITION. The action queue, event outputs and event inputs (10_verdicts_and_actions.md, R202 to R213). -/

namespace Sys2Proof.Machine

/-! ### Event outputs (R209, R210, R332) -/

/-- This member drives the event output balls (R66, R343): through a handover the old active member, until it releases
them. -/
def Block.ballsOn (b : Block) : Bool :=
  !b.member || ((if b.pair.handAt.isSome then b.giver else b.role == 1) && !b.released)

/-- What the ball of an event output does: driven to a level, or high impedance (R210, R332). -/
def Block.eoDrive (b : Block) (k : Nat) : Option Bool :=
  if b.stage_ < 5 || b.bud.down then none
  else if b.bit Reg.PAIR_CTL 7 && b.fld Reg.PAIR_CTL 11 8 == k then some true
  else
    let inv := b.bit Reg.ACT_EO_CFG k
    if b.ballsOn then some (b.bit Reg.ACT_EO_LEVEL k != inv)
    else if b.role == 0 || b.released || b.bit Reg.ACT_EO_CFG (16 + k) then none
    else some inv

/-- Emit the balls whose drive differs from what it was in `old`, at device time `t` in units of 62.5 ps. -/
def ballsSince (old : Block) (t : Nat) (b : Block) : Block :=
  forEach (List.range 16) (fun k b => if b.eoDrive k = old.eoDrive k then b else b.emit (.eo k (b.eoDrive k) t)) b

/-- Set the logical level of an output; its ball changes at device time `t`. -/
def setLevel (k : Nat) (v : Bool) (t : Nat) (b : Block) : Block :=
  let c := b.putBit Reg.ACT_EO_LEVEL k v
  if c.eoDrive k = b.eoDrive k then c else c.emit (.eo k (c.eoDrive k) t)

/-- Replace an output's pulse. -/
def setPulse (k : Nat) (p : Option Pulse) (b : Block) : Block :=
  { b with act := { b.act with pulses := b.act.pulses.set (fun _ => none) k p } }

/-- The pulse in progress on an output. -/
def Block.pulse (b : Block) (k : Nat) : Option Pulse := b.act.pulses.get (fun _ => none) k

/-- EO_SET and EO_CLR (R210). -/
def eoTo (k : Nat) (v : Bool) (t : Nat) (b : Block) : Block := setLevel k v t (setPulse k none b)

/-- EO_PULSE (R204, R210): `arg` in 10 ns units. The ball changes at `t`, 32 ns after the level (R209). -/
def eoPulse (k arg t : Nat) (entry : Option Nat) (b : Block) : Block :=
  let ends := t - 512 + max 1 arg * 160
  let p : Pulse := match b.pulse k with
    | some q => if ends < q.ends then q else { ends := ends, entry := entry }
    | none => { ends := ends, entry := entry }
  setLevel k true t (setPulse k (some p) b)

/-- A pulse has run its width (R210). -/
def eoPulseEnd (k : Nat) (b : Block) : Block :=
  match b.pulse k with
  | some p => if p.ends ≤ b.inst.t16 then setLevel k false (p.ends + 512) (setPulse k none b) else b
  | none => b

/-- A host write to EO_SET or EO_CLR (R210): an executed SET or CLR action, 32 ns from the tick. -/
def eoWrite (v : Bool) (mask : Word) (b : Block) : Block :=
  forEach (List.range 16) (fun k b => if mask.getLsbD k then eoTo k v (b.inst.t16 + 512) b else b) b

/-! ### Entries (R202 to R204) -/

/-- ACT_CTL.SPLIT as it acts. -/
def Block.split (b : Block) : Nat := min 4096 (b.fld Reg.ACT_CTL 12 0)

/-- The fields of an entry's control word. -/
def ActEntry.kind (e : ActEntry) : Nat := fieldOf e.ctrl 3 0
def ActEntry.target (e : ActEntry) : Nat := fieldOf e.ctrl 20 16
def ActEntry.src (e : ActEntry) : Nat := fieldOf e.ctrl 7 5
def ActEntry.position (e : ActEntry) : Bool := bitOf e.ctrl 4
def ActEntry.bidir (e : ActEntry) : Bool := bitOf e.ctrl 10
def ActEntry.policy (e : ActEntry) : Nat := min 2 (fieldOf e.ctrl 9 8)
def ActEntry.pkey (e : ActEntry) : Pos48 := e.key.setWidth 48

/-- The stream an EGRESS_LAUNCH names: 8 TARGET + ARG. -/
def launchTarget (target arg : Nat) : Nat := 8 * target + arg

/-- KIND and TARGET may be armed (R204). -/
def actOk (ctrl : Word) (arg : BitVec 24) : Bool :=
  let t := fieldOf ctrl 20 16
  match fieldOf ctrl 3 0 with
  | 1 | 2 | 3 => decide (t < 16)
  | 4 | 5 | 6 | 12 => decide (t < 24)
  | 7 => decide (t < 26)
  | 8 => decide (arg.toNat < 8) && isStream (launchTarget t arg.toNat)
  | 9 => decide (t < 4)
  | 10 | 11 => decide (t < 8)
  | _ => false

/-- The lowest free entry from `lo` up to, but not including, `hi`. -/
def Block.freeEntry (b : Block) (lo hi : Nat) : Option Nat :=
  ((List.range (hi - lo)).map (· + lo)).find? fun i => (b.actE i).st == 0

/-- An arm is refused (R203): counted, and ARM_REFUSED set. -/
def armRefused (b : Block) : Block := (b.inc Reg.ACT_CNT_B 31 16 1).setBit Reg.ACT_STAT 17

/-! ### Records (R208) -/

/-- The action record of an entry. -/
def actRecord (i : Nat) (e : ActEntry) (outcome : Nat) (late : Int) (when_ : Nat) (b : Block) : List Byte :=
  let pos : Pos48 := b.posNow e.src
  [0x23, BitVec.ofNat 8 outcome, BitVec.ofNat 8 e.kind, BitVec.ofNat 8 e.target] ++ leBytes 2 i
    ++ [BitVec.ofNat 8 (b2n e.position + 2 * e.src + 16 * fieldOf e.ctrl 9 8 + 64 * b2n e.bidir + 128 * b2n (e.writer == 5)),
        BitVec.ofNat 8 e.writer]
    ++ leBytes 8 (if e.position then e.pkey.toNat else e.key.toNat) ++ leBytes 8 (BitVec.ofInt 64 late).toNat
    ++ leBytes 8 when_ ++ leBytes 8 (pos.signExtend 64).toNat
    ++ leBytes 4 (match e.vseq with | some v => v.toNat | none => 0xFFFFFFFF) ++ List.replicate 20 0

/-- Issue an action record on the verdict ring or the log ring. -/
def issueAct (i : Nat) (e : ActEntry) (outcome : Nat) (late : Int) (when_ : Nat) (b : Block) : Block :=
  pushRecord (if e.writer = 5 then 0 else 1) (actRecord i e outcome late when_ b) b

/-- What became of a verdict's action is kept with its early verdict (R131). -/
def noteFate (e : ActEntry) (t : Nat) (b : Block) : Block :=
  match e.vseq with
  | some v => { b with vrd := { b.vrd with early := b.vrd.early.map fun x =>
      if x.vseq = v && x.act.isSome then { x with fate := some t } else x } }
  | none => b

/-- An entry leaves the queue: STATE 0, and its journal STATE (R203, R357). -/
def freeAct (i jst : Nat) (late : Bool) (b : Block) : Block :=
  let e := b.actE i
  b.setAct i { e with st := 0, fresh := false, reached := none, start := none, below := none, held := false, conf := false, jst := jst,
                      jlate := late, jtime := BitVec.ofNat 48 b.ns }

/-! ### Execution (R204, R206, R209) -/

/-- An entry has executed at `when_` ns with its lateness, none on time. -/
def finishAct (i : Nat) (late : Option Int) (when_ : Nat) (b : Block) : Block :=
  let e := b.actE i
  let b := noteFate e when_ (freeAct i 3 late.isSome b)
  match late with
  | some l => issueAct i e 1 l when_ ((b.inc Reg.ACT_CNT_A 31 16 1).setBit Reg.ACT_STAT 18)
  | none => if b.bit Reg.ACT_CTL 16 then issueAct i e 0 0 when_ b else b

/-- An entry is discarded late (R206). -/
def discardAct (i : Nat) (late : Int) (b : Block) : Block :=
  let e := b.actE i
  let b := noteFate e 0 (freeAct i 4 true b)
  issueAct i e 2 late 0 (b.inc Reg.ACT_CNT_A 15 0 1)

/-- An uncorrectable entry is freed, with a record of OUTCOME 2 and lateness all ones, and an active-member fault
(R349, R350). -/
def spoiltAct (i : Nat) (b : Block) : Block :=
  let e := b.actE i
  let b := noteFate e 0 (freeAct i 4 false (mend (· == .action (Fin.ofNat 4096 i)) b))
  let b := { b with act := { b.act with backlog := b.act.backlog.filter (· != i) } }
  activeFault 3 (sramUe 1 (issueAct i e 2 (-1) 0 b))

/-- The device time at which an event output's ball changes (R209), in units of 62.5 ps. -/
def ballTime (e : ActEntry) (inst : Inst) (late : Bool) (b : Block) : Nat :=
  if late then b.inst.t16 + 512
  else if e.position then inst.t16 + 512 + (b.filtNs e.src - 8) * 16
  else (e.key.toNat + 32) * 16

/-- The execution instant of an entry, in ns. -/
def actTime (e : ActEntry) (inst : Inst) (late : Bool) (b : Block) : Nat :=
  if late then b.ns else if e.position then inst.t1 else e.key.toNat

/-- The lateness of a head command that has waited for a place in its queue (R204), in the key's unit. -/
def lateNow (e : ActEntry) (b : Block) : Int :=
  if !e.position then (b.ns : Int) - e.key.toNat
  else if e.bidir then ((posDiff (b.posNow e.src) e.pkey).natAbs : Int)
  else posDiff (b.hwmNow e.src) e.pkey

/-- The head command of a KIND 4 or 5 action. -/
def actCmd (i : Nat) (e : ActEntry) : HdCmd :=
  if e.kind = 4 then { opc := 0x03, payload := [BitVec.ofNat 8 (e.arg.toNat % 2)], org := .action i }
  else { opc := 0x04, payload := leBytes 4 e.arg.toNat, org := .action i }

/-- A SHUTTER action has entered the queue: a close is then commanded, or undone (R356). -/
def noteShutter (e : ActEntry) (b : Block) : Block :=
  if e.kind = 4 then b.setHd e.target { b.hd e.target with shut := e.arg.toNat % 2 == 1 } else b

/-- A head command action that waited has entered the port's queue (R204). -/
def actEntered (i : Nat) (b : Block) : Block :=
  let e := b.actE i
  if e.st = 2 then
    let l := lateNow e b
    finishAct i (if 0 < l then some l else none) b.ns (noteShutter e b)
  else b

/-- A strike group is enabled or disabled (R52, R204): STK_GRP_CTL.EN is written, after the requesters' writes of the tick
(R60). -/
def switchGroup (g : Nat) (on : Bool) (b : Block) : Block :=
  let off := Reg.STK_GRP_CTL g
  (writeStkCtl g (setFieldOf (b.rd off) 0 0 (b2n on)) b).noteWrite queuePlace off

/-- Execute an entry (R204): its effect, and its end. -/
def performAct (i : Nat) (inst : Inst) (late : Option Int) (b : Block) : Block :=
  let e := b.actE i
  let t := ballTime e inst late.isSome b
  let when_ := actTime e inst late.isSome b
  let done := finishAct i late when_
  match e.kind with
  | 1 => done (eoTo e.target true t b)
  | 2 => done (eoTo e.target false t b)
  | 3 => done (eoPulse e.target e.arg.toNat t (some i) b)
  | 4 | 5 =>
    if b.standby then done b
    else
      let free := b.queueFree e.target
      let b := queueCmd e.target (actCmd i e) b
      if free then done (noteShutter e b)
      else b.setAct i { e with st := 2, jst := 2, jtime := BitVec.ofNat 48 b.ns }
  | 6 => done (calRequest e.target 5 false b)
  | 7 => done ((b.genWrite (Reg.PL_TAP_SEL e.target) (BitVec.ofNat 32 (e.arg.toNat % 65536))).noteWrite queuePlace
      (Reg.PL_TAP_SEL e.target))
  | 8 => done (launchStream (launchTarget e.target e.arg.toNat) b)
  | 9 => done (wake e.target e.arg.toNat b)
  | 10 => done (switchGroup e.target true b)
  | 11 => done (switchGroup e.target false b)
  | 12 => done (hostSwitch e.target b)
  | _ => done b

/-- Execute a reached entry. KIND 1 to 5: the active member of a pair sends EXEC, and a standby holds the execution until
EXEC confirms it (R340). -/
def execAct (i : Nat) (b : Block) : Block :=
  let e := b.actE i
  match e.reached with
  | none => b
  | some (inst, late) =>
    if b.standby && 1 ≤ e.kind && e.kind ≤ 5 && !e.conf then b.setAct i { e with held := true }
    else
      let b := if 1 ≤ e.kind ∧ e.kind ≤ 5 then pairSend (.exec i) b else b
      performAct i inst late b

/-- Insert an index in ascending order. -/
def insertIx (i : Nat) : List Nat → List Nat
  | [] => [i]
  | j :: js => if i < j then i :: j :: js else if i = j then j :: js else j :: insertIx i js

/-- The first entry that waits for its turn executes, where the tick still has room (R207: at most 16); an uncorrectable one
is freed as it is read (R349). -/
def runFirst (b : Block) : Block :=
  match b.act.backlog with
  | [] => b
  | i :: is =>
    if 16 ≤ b.act.done then b
    else
      let b := { b with act := { b.act with backlog := is, done := b.act.done + 1 } }
      if b.isBad (.action (Fin.ofNat 4096 i)) then spoiltAct i b else execAct i b

/-- Waiting entries execute in index order as far as the tick allows (R207). `fuel` bounds them. -/
def runBacklog : Nat → Block → Block
  | 0, b => b
  | fuel + 1, b => runBacklog fuel (runFirst b)

/-- A late entry (R206): the LATE policy applies: discarded, or reached with its lateness (R207 step 3). -/
def lateAct (i : Nat) (l : Int) (b : Block) : Block :=
  let b := b.setBit Reg.ACT_STAT 18
  let e := b.actE i
  let grace : Int := if e.position then (b.fld Reg.ACT_GRACE_P 23 0 : Nat) else (b.num Reg.ACT_GRACE_T : Nat)
  if e.policy = 0 || (e.policy = 2 && l ≤ grace) then
    b.setAct i { e with reached := some (b.inst, some l) }
  else discardAct i l b

/-! ### Arming and cancelling (R203, R206, R340) -/

/-- Arm an entry with its words (R203): tested from `start` on, or at step 3 of this tick (R207). -/
def armEntry (i writer : Nat) (key : BitVec 64) (ctrl : Word) (arg : BitVec 24) (vseq : Option Word)
    (start : Option (BitVec 64)) (b : Block) : Block :=
  let e : ActEntry :=
    { st := 1, key := key, ctrl := ctrl, arg := arg, writer := writer, vseq := vseq, start := start,
      fresh := start.isNone, jst := 1, jwriter := writer, jkind := fieldOf ctrl 3 0, jtime := BitVec.ofNat 48 b.ns }
  mend (· == .action (Fin.ofNat 4096 i)) (b.setAct i e)

/-- The start time of an arm by the host or a thread (R340): at the active member while mirroring runs. -/
def Block.armStart (b : Block) : Option (BitVec 64) :=
  if b.mirroring then some (BitVec.ofNat 64 (b.ns + max 1 (b.fld Reg.PAIR_CTL 23 16) * 1000)) else none

/-- An arm by the host or a thread (R203): whether it is accepted. -/
def armByWriter (i writer : Nat) (key : BitVec 64) (ctrl : Word) (arg : BitVec 24) (b : Block) : Bool × Block :=
  let ctrl := ctrl &&& 0x001F07FF
  if (b.actE i).st ≠ 0 || b.split ≤ i || !actOk ctrl arg then (false, armRefused b)
  else
    let start := b.armStart
    let b := match start with
      | some t => if h : i < 4096 then
          let f : ArmFrame := { i := ⟨i, h⟩, key := key, ctrl := ctrl, arg := arg, writer := Fin.ofNat 6 writer, start := t }
          sendFrame (.arm f) b
        else b
      | none => b
    (true, armEntry i writer key ctrl arg none start b)

/-- CANCEL of an entry (R203): an armed entry is freed with a record. -/
def cancelAct (i : Nat) (b : Block) : Block :=
  let e := b.actE i
  if e.st = 1 then
    let b := noteFate e 0 (freeAct i 5 false b)
    let b := { b with act := { b.act with backlog := b.act.backlog.filter (· != i) } }
    issueAct i e 3 0 0 (b.inc Reg.ACT_CNT_C 31 16 1)
  else b

/-- A cancel by the host or a thread, mirrored (R340). -/
def cancelByWriter (i : Nat) (b : Block) : Block :=
  if (b.actE i).st = 1 then cancelAct i (pairSend (.cancel i) b) else b

/-- A verdict's action (R201): armed in the lowest free entry at or above SPLIT; none where no entry is free or the
template may not be armed. -/
def armByVerdict (key : BitVec 64) (ctrl : Word) (arg : BitVec 24) (vseq : Word) (b : Block) : Option Nat × Block :=
  if !actOk ctrl arg then (none, armRefused b)
  else match b.freeEntry b.split 4096 with
    | none => (none, (b.inc Reg.ACT_CNT_B 15 0 1).setBit Reg.ACT_STAT 16)
    | some i => (some i, armEntry i 5 key ctrl arg (some vseq) none b)

/-- The head command of a KIND 4 or 5 entry that waits for a place leaves its port's queue. -/
def unqueueAct (i : Nat) (b : Block) : Block :=
  let h := (b.actE i).target
  b.setPort h { b.port h with queue := (b.port h).queue.filter fun c => c.org != .action i }

/-- Retraction of a verdict's action (R128): removed where it has not executed, also where its head command still waits for a
place in its port's queue (R204). -/
def retractAct (i : Nat) (vseq : Word) (b : Block) : Bool × Block :=
  let e := b.actE i
  if (e.st = 1 || e.st = 2) && e.vseq == some vseq then
    let b := freeAct i 6 false (if e.st = 2 then unqueueAct i b else b)
    let b := { b with act := { b.act with backlog := b.act.backlog.filter (· != i) } }
    (true, issueAct i e 4 0 0 (b.inc Reg.ACT_CNT_C 15 0 1))
  else (false, b)

/-! ### Reaching a key (R205) -/

/-- An entry waits for its key to be reached. -/
def ActEntry.waiting (e : ActEntry) : Bool := e.st == 1 && e.start.isNone && e.reached.isNone

/-- The reference time predicted for a position key that falls inside the current count (R205, R55). -/
def PosCh.predict (c : PosCh) (e : ActEntry) : Option Nat :=
  match c.last with
  | none => none
  | some l =>
    let ahead := if e.bidir then e.below == some c.fwd else c.fwd
    let d := if c.fwd then posDiff e.pkey c.base else posDiff c.base e.pkey
    if c.valid && c.frozen.isNone && ahead && 0 ≤ d && d < 256 then some (l.ref + (roundDiv (d * c.span) 4096).toNat)
    else none

/-- Keys of source `n` whose predicted instant does not come after a counted transition's crossing are reached
at it (R205). Applied before the transition counts. -/
def keysSettle (n : Nat) (cross : Inst) (b : Block) : Block :=
  forEach b.act.entries (fun x b =>
    let e := x.2
    if e.waiting && !e.fresh && e.position && e.src == n then
      match (b.ch n).predict e with
      | some t => if t ≤ cross.ref then b.setAct x.1 { e with reached := some (b.instOf t, none) } else b
      | none => b
    else b) b

/-- A counted transition has brought the count to or past a key (R205). -/
def Eval.reaches (v : Eval) (e : ActEntry) : Bool :=
  let above (d : Int) : Bool := if v.valid then decide (0 < d) else decide (0 ≤ d)
  if e.bidir then
    match e.below with
    | some true => above (posDiff v.base e.pkey)
    | some false => above (posDiff e.pkey v.base)
    | none => false
  else v.fwd && (above (posDiff v.base e.pkey) || (!v.valid && decide (0 ≤ posDiff v.hwm e.pkey)))

/-- The signed distance from a position key to what it is compared with (R37, R205): the position with BIDIR, else the
high-water mark. -/
def Block.keyDist (b : Block) (e : ActEntry) : Int :=
  posDiff (if e.bidir then b.posNow e.src else b.hwmNow e.src) e.pkey

/-- A key crossed by a jump of the tick (R38, R205): a BIDIR key where the position is no longer strictly on its side. -/
def Block.keyCrossed (b : Block) (e : ActEntry) : Bool :=
  let d := b.keyDist e
  if e.bidir then !(e.below == some (decide (d < 0)) && d != 0) else decide (0 ≤ d)

/-- The test of a waiting time key (R205, R206): reached on time, or late where it was armed after its time or a jump of
this tick has passed it. -/
def Block.timeHit (b : Block) (e : ActEntry) : Option (Inst × Option Int) :=
  let key := e.key.toNat
  if b.ns < key then none
  else
    let jumped := match b.tim.jumpFrom with
      | some n => decide (n < key)
      | none => false
    if jumped || (e.fresh && key < b.ns) then some (b.inst, some ((b.ns : Int) - key)) else some (b.inst, none)

/-- The test of a waiting position key against the transitions of this tick, and its prediction (R205). -/
def Block.posHit (b : Block) (e : ActEntry) : Option (Inst × Option Int) :=
  let c := b.ch e.src
  match c.evals.find? (·.reaches e) with
  | some v => some (v.cross, none)
  | none =>
    match c.predict e with
    | some t => if t + b.filtNs e.src * tuNs ≤ b.now then some (b.instOf t, none) else none
    | none => none

/-- The test of a waiting entry at step 3 of R207: the instant at which its key is reached, with its lateness where it is
late. -/
def Block.keyHit (b : Block) (e : ActEntry) : Option (Inst × Option Int) :=
  if !e.position then b.timeHit e
  else
    let d := b.keyDist e
    if e.fresh then
      if e.bidir then
        (if d = 0 || e.passed then some (b.inst, if d = 0 then none else some (d.natAbs : Int)) else none)
      else if 0 ≤ d then some (b.inst, some d) else none
    else match (b.ch e.src).jump with
      | some .forward => if b.keyCrossed e then some (b.inst, some (if e.bidir then (d.natAbs : Int) else d)) else none
      | some .backward => if e.bidir && d == 0 then some (b.inst, none) else none
      | none => b.posHit e

/-- The instant and lateness of an entry that is to execute (R205): its key is reached. -/
def Block.keyDue (b : Block) (i : Nat) : Option (Inst × Option Int) :=
  let e := b.actE i
  if e.st != 1 || e.start.isSome || e.held || b.act.backlog.contains i then none
  else match e.reached with
    | some r => some r
    | none => b.keyHit e

/-- Before the start time of its arm a BIDIR entry records its side of KEY, and whether the position has reached KEY (R205,
R340). -/
def Block.keyWatch (b : Block) (e : ActEntry) : ActEntry :=
  let d := b.keyDist e
  let side := decide (d < 0)
  match e.below with
  | some s =>
    if (b.ch e.src).jump == some .backward then { e with below := some side, passed := e.passed || d == 0 }
    else { e with passed := e.passed || d == 0 || s != side }
  | none => { e with below := some side, passed := d == 0 }

/-- A tested entry that has not reached its key (R205): it waits on; a BIDIR entry records its side of KEY at arming and
after a jump. -/
def keyWaits (i : Nat) (b : Block) : Block :=
  let e := b.actE i
  if e.start.isSome then (if e.position && e.bidir then b.setAct i (b.keyWatch e) else b) else
  let side := e.waiting && e.position && e.bidir && (e.fresh || (b.ch e.src).jump.isSome)
  b.setAct i { e with fresh := false, below := if side then some (decide (b.keyDist e < 0)) else e.below }

/-- Step 3 of R207 for an entry: its key is tested; reached or late it is marked so, a late one discarded where its LATE
policy says so; an uncorrectable one whose key is reached is freed (R349). -/
def keyTest (i : Nat) (b : Block) : Block :=
  match b.keyDue i with
  | none => if (b.actE i).st = 1 then keyWaits i b else b
  | some r =>
    if b.isBad (.action (Fin.ofNat 4096 i)) then spoiltAct i b
    else
      let e := { b.actE i with fresh := false }
      match e.reached, r.2 with
      | none, some l => lateAct i l (b.setAct i e)
      | _, _ => b.setAct i { e with reached := some r }

/-- An entry that a test has marked reached waits for its turn to execute. -/
def keyQueue (i : Nat) (b : Block) : Block :=
  let e := b.actE i
  if e.st == 1 && e.reached.isSome && !e.held then { b with act := { b.act with backlog := insertIx i b.act.backlog } }
  else b

/-- Steps 3 and 4 of R207 at the end of a tick: every key is tested, and reached entries execute in ascending index. -/
def keysClose (b : Block) : Block :=
  runBacklog 16 (forEach b.act.entries (fun x b => keyQueue x.1 (keyTest x.1 b)) b)

/-- Device time of the active member in ns (R337): at a standby the own time less θ. -/
def Block.activeNs (b : Block) : Nat := if b.standby then ((b.ns : Int) - b.pair.theta).toNat else b.ns

/-- Mirrored arms whose start time has come by the active member's time (R340): they are tested in this tick. -/
def startDue (b : Block) : Block :=
  forEach b.act.entries (fun x b =>
    let e := b.actE x.1
    match e.start with
    | some t => if e.st = 1 && t.toNat ≤ b.activeNs then b.setAct x.1 { e with start := none, fresh := true } else b
    | none => b) b

/-- An entry whose key the test of a tick has found reached goes to execution as its turn comes, in ascending index (R205,
R207). -/
def keyReached (i : Nat) (b : Block) : Block := if b.act.backlog.head? = some i then runFirst b else b

/-! ### Event inputs (R211) -/

/-- EI_FILT as it acts, in reference units. -/
def Block.eiFilt (b : Block) : Nat :=
  let v := b.fld Reg.ACT_EI_FILT 16 0
  (if v = 0 then 2 else min v 100000) * 10 * tuNs

/-- An event input. -/
def Block.eiCh (b : Block) (i : Nat) : EiCh := b.act.ei.get (fun _ => {}) i

/-- Replace an event input. -/
def setEi (i : Nat) (e : EiCh) (b : Block) : Block :=
  { b with act := { b.act with ei := b.act.ei.set (fun _ => {}) i e } }

/-- A level change at an event input's ball starts or ends its filter's hold. -/
def eiChange (i : Nat) (level : Bool) (sub : Nat) (b : Block) : Block :=
  let c := b.instAt sub
  let hold : Option Hold := if level = b.bit Reg.ACT_EI_STAT i then none
    else some { level := level, cross := c, due := c.ref + b.eiFilt }
  setEi i { raw := level, hold := hold, at_ := (List.range 8).map fun n => (b.ch n).at_ c.ref } b

/-- Capture of edges of input `i` to `level` is enabled. -/
def Block.eiEnabled (b : Block) (i : Nat) (level : Bool) : Bool := b.bit Reg.ACT_EI_CTL (if level then i else 8 + i)

/-- A held level is accepted; an enabled edge is captured. -/
def eiAccept (i : Nat) (h : Hold) (b : Block) : Block :=
  let b := (setEi i { b.eiCh i with hold := none } b).putBit Reg.ACT_EI_STAT i h.level
  if b.eiEnabled i h.level then
    let src := b.fld Reg.ACT_EI_CTL 18 16
    let b := b.wr64 (Reg.ACT_EI_TIME_LO i) (BitVec.ofNat 64 h.cross.t1)
    (b.wrPos (Reg.ACT_EI_POS_LO i) ((b.eiCh i).at_.getD src 0)).setBit Reg.ACT_EI_STAT (8 + i)
  else b

/-- A hold of an event input that is due, with capture enabled or not. -/
def Block.eiDue (b : Block) (i : Nat) (enabled : Bool) : Option Hold :=
  match (b.eiCh i).hold with
  | some h => if h.due ≤ b.now && b.eiEnabled i h.level == enabled then some h else none
  | none => none

end Sys2Proof.Machine
end

