-- ==== Sys2Proof/Machine/Encoder.lean ====
section
/-! DEFINITION. What happens on an encoder channel as a whole (02_position_and_time.md, R29 to R39): level changes,
accepted transitions, the index, standstill, loads; with the strike points and action keys they reach. -/

namespace Sys2Proof.Machine

/-- The level at a ball, the filtered level and the hold of an input. -/
def PosCh.hold (c : PosCh) : EncPin → Option Hold
  | .a => c.holdA
  | .b => c.holdB
  | .z => c.holdZ

/-- The filtered level of an input. -/
def PosCh.filt (c : PosCh) : EncPin → Bool
  | .a => c.filtA
  | .b => c.filtB
  | .z => c.filtZ

/-- Replace the ball level and the hold of an input. -/
def PosCh.setHold (c : PosCh) (pin : EncPin) (raw : Bool) (h : Option Hold) : PosCh :=
  match pin with
  | .a => { c with rawA := raw, holdA := h }
  | .b => { c with rawB := raw, holdB := h }
  | .z => { c with rawZ := raw, holdZ := h }

/-- An input's held level is accepted: its filtered level changes and its hold ends. -/
def PosCh.accept (c : PosCh) (pin : EncPin) (level : Bool) : PosCh :=
  match pin with
  | .a => { c with filtA := level, holdA := none }
  | .b => { c with filtB := level, holdB := none }
  | .z => { c with filtZ := level, holdZ := none }

/-- Event inputs whose crossing a counted transition of channel `n` precedes capture the position it gives (R211). -/
def eiMoved (n : Nat) (cross : Inst) (b : Block) : Block :=
  forEach (List.range 8) (fun i b =>
    let e := b.eiCh i
    match e.hold with
    | some h => if cross.ref ≤ h.cross.ref then setEi i { e with at_ := e.at_.set n ((b.ch n).at_ h.cross.ref) } b else b
    | none => b) b

/-- A counted transition (R30 to R33, R35, R39). Strike points and keys are tested at the end of the tick; keys whose
predicted instants it does not precede have been reached at them. -/
def transition (n : Nat) (fwd : Bool) (cross : Inst) (b : Block) : Block :=
  let b := eiMoved n cross (countTransition n fwd cross (keysSettle n cross b))
  idleUpdateAll (slipChecks n cross.ref b)

/-- Two crossings lie within 1 ns (R30). -/
def nearBy (x y : Inst) : Bool := decide (((x.ref : Int) - y.ref).natAbs ≤ tuNs)

/-- Count an accepted change of A (`onA`) or B. -/
def quadCount (n : Nat) (onA : Bool) (h : Hold) (b : Block) : Block :=
  let c := b.ch n
  let fwd := quadForward onA h.level (if onA then c.quadB else c.quadA) (b.bit (Reg.POS_CTL n) 1)
  transition n fwd h.cross (b.setCh n (if onA then { c with quadA := h.level } else { c with quadB := h.level }))

/-- An accepted change that waits for the other input is counted: the other has not changed within 1 ns of it. -/
def quadAlone (n : Nat) (b : Block) : Block :=
  match (b.ch n).wait with
  | some (onA, h) => quadCount n onA h (b.setCh n { b.ch n with wait := none })
  | none => b

/-- A double transition (R30): not counted, reported, and the A/B state is adopted. -/
def quadDouble (n : Nat) (b : Block) : Block :=
  let c := b.ch n
  ((b.setCh n { c with wait := none, quadA := c.filtA, quadB := c.filtB }).inc (Reg.POS_ERR n) 15 0 1).setBit (Reg.POS_STAT n) 8

/-- An accepted change of A or B (R30). With an accepted change of the other within 1 ns it is a double transition; while
the other's filter holds a change within 1 ns it waits for that to be accepted or discarded; else it counts. -/
def quadAccept (n : Nat) (onA : Bool) (h : Hold) (b : Block) : Block :=
  let c := (b.ch n).accept (if onA then .a else .b) h.level
  let b := b.setCh n c
  if !b.posEn n then b
  else match c.wait with
    | some (a, w) =>
      if a != onA && nearBy w.cross h.cross then quadDouble n b else quadCount n onA h (quadAlone n b)
    | none =>
      match c.hold (if onA then .b else .a) with
      | some o => if nearBy o.cross h.cross then b.setCh n { c with wait := some (onA, h) } else quadCount n onA h b
      | none => quadCount n onA h b

/-- Changes of A and B that are due by reference time `t` are accepted, in the order of their crossings (R35: they count
before the index and a load of the same tick). -/
def quadSettle (n t : Nat) (b : Block) : Block :=
  let due (h : Option Hold) : Option Hold := h.bind fun h => if h.due ≤ t then some h else none
  match due (b.ch n).holdA, due (b.ch n).holdB with
  | some x, some y =>
    if x.cross.ref ≤ y.cross.ref then quadAccept n false y (quadAccept n true x b) else quadAccept n true x (quadAccept n false y b)
  | some x, none => quadAccept n true x b
  | none, some y => quadAccept n false y b
  | none, none => b

/-- A change of A (`onA`) or B that is due by `t` and crossed before `h` is accepted before it. -/
def quadBefore (n t : Nat) (onA : Bool) (h : Hold) (b : Block) : Block :=
  match (b.ch n).hold (if onA then .a else .b) with
  | some o => if o.due ≤ t && o.cross.ref < h.cross.ref then quadAccept n onA o b else b
  | none => b

/-- An accepted change of Z (R36): a rising edge is an index edge where it is enabled and its gate holds. A zero is a
backward jump for keys, whatever the sign of the position. -/
def indexAccept (n t : Nat) (h : Hold) (b : Block) : Block :=
  let b := quadSettle n t b
  let b := b.setCh n ((b.ch n).accept .z h.level)
  let c := b.ch n
  let gate := !b.bit (Reg.POS_CTL n) 3 || (c.filtA && c.filtB)
  if b.posEn n && h.level && b.bit (Reg.POS_CTL n) 2 && gate then
    let c := c.touch h.cross.ref
    let p := c.at_ h.cross.ref
    let b := ((b.setCh n c).wrPos (Reg.POS_ZCAP_LO n) p).setBit (Reg.POS_STAT n) 4
    if b.bit (Reg.POS_CTL n) 4 && c.moved && c.fwd then
      idleUpdateAll (strikeJump n false c.hwm (b.setCh n (c.jumpTo h.cross.ref 0 (c.hwm - p) .backward)))
    else b
  else b

/-- An input that has held its new level for FILT_NS by reference time `t` is accepted (R29). -/
def filterBy (n t : Nat) (pin : EncPin) (b : Block) : Block :=
  match (b.ch n).hold pin with
  | some h =>
    if h.due ≤ t then
      match pin with
      | .a => quadAccept n true h (quadBefore n t false h b)
      | .b => quadAccept n false h (quadBefore n t true h b)
      | .z => indexAccept n t h b
    else b
  | none => b

/-- An input has held its new level for FILT_NS (R29). -/
def filterAccept (n : Nat) (pin : EncPin) (b : Block) : Block := filterBy n b.now pin b

/-- What the filters of a channel have held long enough by reference time `t` is accepted: A and B, then Z (R35). -/
def posSettle (n t : Nat) (b : Block) : Block := filterBy n t .z (quadSettle n t b)

/-- A change of A or B waits for the other input `pin`. -/
def PosCh.waitsFor (c : PosCh) (pin : EncPin) : Bool :=
  match c.wait, pin with
  | some (onA, _), .a => !onA
  | some (onA, _), .b => onA
  | _, _ => false

/-- A level change at an encoder ball starts the filter's hold, or ends it without trace (R29): a change of the other
input that waited for the discarded one then counts alone (R30). What the filters have held long enough by that instant has
been accepted. A hold keeps the due time of the FILT_NS under which it began, whatever is written to POS_FILT while it runs
(DESIGN CHOICE, log entry 133). -/
def encoderChange (n : Nat) (pin : EncPin) (level : Bool) (sub : Nat) (b : Block) : Block :=
  let i := b.instAt sub
  let b := posSettle n i.ref b
  let c := b.ch n
  let hold : Option Hold := if level = c.filt pin then none
    else some { level := level, cross := i, due := i.ref + b.filtNs n * tuNs }
  let b := b.setCh n (c.setHold pin level hold)
  if c.waitsFor pin then quadAlone n b else b

/-- A channel stops: an accepted change that waits for the other input counts alone (R30), keys whose instants have come are
reached, predictions beyond are withdrawn (R32). -/
def stopChannel (n : Nat) (b : Block) : Block :=
  let b := quadAlone n b
  let b := toStandstill n (keysSettle n b.inst b)
  let b := forEach (List.range 8) (fun g b =>
    if b.stkSrc g == n then
      let s := b.grp g
      b.setGrp g { s with preds := s.preds.filter fun p => decide (p.at_ ≤ b.now) }
    else b) b
  idleUpdateAll b

/-- The channel has had no counted transition for STALL_US (R32), and none is accepted and still to be counted (R30). -/
def Block.stallDue (b : Block) (n : Nat) : Bool :=
  let c := b.ch n
  b.posEn n && !c.standstill && c.wait.isNone && (match c.last with
    | some l => decide (l.ref + b.stallTu n ≤ b.now)
    | none => false)

/-- STANDSTILL (R32). -/
def standstill (n : Nat) (b : Block) : Block := if b.stallDue n then stopChannel n b else b

/-- A write of POS_CTL (R32, R39). -/
def writePosCtl (n : Nat) (val : Word) (b : Block) : Block :=
  let en := b.posEn n
  let slip := b.bit (Reg.POS_CTL n) 8
  let b := if en && !bitOf val 0 then quadAlone n b else b
  let b := b.genWrite (Reg.POS_CTL n) val
  let b := if !en && b.posEn n then
      let c := b.ch n
      b.setCh n { c with quadA := c.filtA, quadB := c.filtB, standstill := true, fresh := true, run := [] }
    else if en && !b.posEn n then stopChannel n b
    else b
  let b := if !slip && b.bit (Reg.POS_CTL n) 8 then slipClear n b else b
  idleUpdateAll b

/-- A write of POS_STALL applies at once (R32). -/
def writePosStall (n : Nat) (val : Word) (b : Block) : Block := standstill n (b.genWrite (Reg.POS_STALL n) val)

/-- POS_CMD.HWM_TO_POS (R37, R59). -/
def hwmToPos (n : Nat) (b : Block) : Block :=
  let c := b.ch n
  let old := b.hwmNow n
  idleUpdateAll (strikeJump n false old (b.setCh n { c with hwm := c.at_ b.now }))

/-- POS_CMD.LOAD (R38), after the transitions and the index of the same tick (R35). -/
def loadPos (n : Nat) (b : Block) : Block :=
  let b := posSettle n b.now b
  let c := (b.ch n).touch b.now
  let p := b.rdPos (Reg.POS_SET_LO n) &&& ~~~ 0xFF#48
  let j : Jump := if 0 < posDiff p (c.at_ b.now) then .forward else .backward
  let b := b.setCh n { c.jumpTo b.now p p j with run := [], fresh := true }
  idleUpdateAll (strikeJump n true c.hwm b)

/-- POS_CMD.SLIP_REARM (R39). -/
def slipRearm (n : Nat) (b : Block) : Block := slipClear n b

/-- POS_CMD: its pulses; the load is applied last but for the high-water mark (R35). -/
def posCmd (n : Nat) (val : Word) (b : Block) : Block :=
  let b := if bitOf val 1 then slipRearm n b else b
  let b := if bitOf val 0 then loadPos n b else b
  if bitOf val 2 then hwmToPos n b else b

/-- A write of STK_PORT (R51, R63): DESKEW at once, above 128 as 128; GROUP only while the head is unbound, and the head
is told. -/
def writeStkPort (h : Nat) (val : Word) (b : Block) : Block :=
  let off := Reg.STK_PORT h
  let old := b.portGroup h
  let b := if b.bound h then b else b.genWrite off val
  let b := b.setFld off 15 8 (min 128 (fieldOf val 15 8))
  if b.bound h then b
  else
    if b.portGroup h != old then setPortCmd h .group b else b

/-- The median of three positions, by their signed differences (R34, R65). -/
def median3 (p q r : Pos48) : Pos48 :=
  let le (x y : Pos48) : Bool := decide (posDiff x y ≤ 0)
  if le p q then (if le q r then q else if le p r then r else p)
  else (if le p r then p else if le q r then r else q)

/-- The position value of a channel is put at `p`, its fraction running on (R65). -/
def voteLoad (n : Nat) (p : Pos48) (b : Block) : Block :=
  let c := b.ch n
  b.setCh n ({ c with base := p - toPos (c.frac b.now) }.touch b.now)

/-- A vote disagreement (R65, R347): a minority copy is reloaded from the majority, which is the value the model holds, and
counted; where no two copies of a position agree, all three take their median, and an active-member fault is raised
(R350). -/
def voteSeen (v : Vote) (b : Block) : Block :=
  match v with
  | .minority u k =>
    raiseBit 0 ((b.inc Reg.STK_VOTE 31 16 1).wrN Reg.STK_VOTE_STAT (u.val * 256 + k.val))
  | .noMajority n p q r =>
    let b := voteLoad n (median3 p q r) b
    activeFault 2 (raiseBit 1 ((b.inc Reg.STK_VOTE 15 0 1).wrN Reg.STK_VOTE_STAT (n.val * 256 + 3)))

end Sys2Proof.Machine
end

