-- ==== Sys2Proof/Machine/Deframe.lean ====
section
/-! DEFINITION. Upstream packets as the lanes bring them (04_head_link.md, R74, R76): blocks, striping, header fields, CRC,
pixel packing. -/

namespace Sys2Proof

open Sys2Proof.Machine

/-! ### Blocks and striping (R74) -/

/-- A control block (R74). -/
def LaneBlock.control (x : LaneBlock) : Bool := x.sync == 2

/-- A start block (R74). -/
def LaneBlock.start (x : LaneBlock) : Bool := x.control && x.bytes == 0x78

/-- A sync header is valid: 01 or 10 (R74, R75). -/
def validSync (s : BitVec 2) : Bool := s == 1 || s == 2

/-- All four lanes begin with start blocks (R74). -/
def Upstream.starts (u : Upstream) : Bool :=
  let s (xs : List LaneBlock) : Bool := match xs with
    | x :: _ => x.start
    | [] => false
  s u.lane0 && s u.lane1 && s u.lane2 && s u.lane3

/-- The 8-byte groups of four lanes in their order (R74): group k from lane k mod 4. -/
def destripe : List LaneBlock → List LaneBlock → List LaneBlock → List LaneBlock → List Byte
  | a :: as, x :: xs, y :: ys, z :: zs =>
    leBytes 8 a.bytes.toNat ++ leBytes 8 x.bytes.toNat ++ leBytes 8 y.bytes.toNat ++ leBytes 8 z.bytes.toNat
      ++ destripe as xs ys zs
  | _, _, _, _ => []

/-- The blocks that follow a lane's start block, up to the first control block. -/
def body (xs : List LaneBlock) : List LaneBlock := (xs.drop 1).takeWhile fun x => !x.control

/-- The bytes of a packet with its padding (R74): it ends at the first control block on lane 0. A block with an invalid
sync header stands as data (DESIGN CHOICE, log entry 121). -/
def Upstream.bytes (u : Upstream) : List Byte := destripe (body u.lane0) (u.lane1.drop 1) (u.lane2.drop 1) (u.lane3.drop 1)

/-- Data blocks that a packet takes on each lane. -/
def Upstream.periods (u : Upstream) : Nat := (body u.lane0).length

/-- The sync headers of a lane in a packet. -/
def Upstream.headers (u : Upstream) (lane : Nat) : List (BitVec 2) :=
  (if lane = 0 then u.lane0 else if lane = 1 then u.lane1 else if lane = 2 then u.lane2 else u.lane3).map LaneBlock.sync

/-! ### Packets (R76) -/

/-- A line packet (R76). `crcOk` is false where the CRC mismatches or the packet ends before its CRC; `sub` is the instant of
its CRC check, `periods` the data blocks it took on each lane. -/
structure LinePacket where
  head : Byte
  depth : BitVec 5
  pack : Bool
  band : Bool
  frame : BitVec 32
  line : BitVec 16
  cols : BitVec 16
  stamp : BitVec 21
  pixels : List (BitVec 16)
  crcOk : Bool
  sub : Sub
  periods : Nat
  deriving DecidableEq, Repr

/-- A frame or band trailer (R76). -/
structure TrailerPacket where
  head : Byte
  band : Bool
  frame : BitVec 32
  lines : BitVec 16
  stamp : BitVec 21
  shutter : Byte
  tfpa : BitVec 32
  tshut : BitVec 32
  bias : BitVec 16
  hstat : BitVec 32
  crcOk : Bool
  sub : Sub
  deriving DecidableEq, Repr

/-- A response packet (R76). -/
structure RspPacket where
  tag : Byte
  rstat : Byte
  addr : BitVec 32
  payload : List Byte
  crcOk : Bool
  deriving DecidableEq, Repr

/-- `n` bytes of a packet from byte `i`, as a number (R5). -/
def pktNum (xs : List Byte) (i n : Nat) : Nat := ofLe ((xs.drop i).take n)

/-- The CRC that follows header and payload matches (R76). -/
def pktCrcOk (xs : List Byte) (payload : Nat) : Bool :=
  decide (16 + payload + 4 ≤ xs.length) && (crc32c (xs.take (16 + payload))).toNat == pktNum xs (16 + payload) 4

/-- Bytes of a line payload of `cols` pixels (R76). -/
def payloadLen (pack : Bool) (depth cols : Nat) : Nat := if pack then cols * 2 else (cols * depth + 7) / 8

/-- The first `cols` pixels of a payload, as far as it goes (R76). -/
def unpackPixels (pack : Bool) (depth cols : Nat) (xs : List Byte) : List (BitVec 16) :=
  let d := if pack then 16 else depth
  let n := min cols (xs.length * 8 / max 1 d)
  let v := ofLe (xs.take (payloadLen pack depth n))
  (List.range n).map fun i => BitVec.ofNat 16 ((v >>> (i * d)) % 2 ^ d)

/-- The format a port declares (HD_GEOM, HD_FMT): columns, depth, PACK, band mode. -/
structure LineFmt where
  cols : Nat
  depth : Nat
  pack : Bool
  band : Bool
  deriving DecidableEq, Repr

/-- The header of a line packet has the declared format (R82, test 4). -/
def LinePacket.fits (p : LinePacket) (f : LineFmt) : Bool :=
  p.depth.toNat == f.depth && p.pack == f.pack && p.band == f.band

/-- A line packet from its bytes (R76); none for another TYPE. Where its header cannot be trusted (R82, tests 3 and 4) its
pixels are taken at the declared format (DESIGN CHOICE, log entry 120). -/
def Upstream.line (u : Upstream) (f : LineFmt) : Option LinePacket :=
  let xs := u.bytes
  if pktNum xs 0 1 ≠ 1 then none
  else
    let fmt := pktNum xs 2 1
    let depth := fmt % 32
    let pack := fmt / 32 % 2 == 1
    let cols := pktNum xs 10 2
    let p : LinePacket :=
      { head := BitVec.ofNat 8 (pktNum xs 1 1), depth := BitVec.ofNat 5 depth, pack := pack, band := pktNum xs 3 1 % 2 == 1,
        frame := BitVec.ofNat 32 (pktNum xs 4 4), line := BitVec.ofNat 16 (pktNum xs 8 2), cols := BitVec.ofNat 16 cols,
        stamp := BitVec.ofNat 21 (pktNum xs 12 3), pixels := [], crcOk := pktCrcOk xs (payloadLen pack depth cols),
        sub := u.sub, periods := u.periods }
    let n := if p.crcOk && p.fits f then cols else f.cols
    some { p with pixels := unpackPixels f.pack f.depth n (xs.drop 16) }

/-- A trailer from its bytes (R76); none for another TYPE. -/
def Upstream.trailer (u : Upstream) : Option TrailerPacket :=
  let xs := u.bytes
  if pktNum xs 0 1 ≠ 2 ∧ pktNum xs 0 1 ≠ 3 then none
  else some
    { head := BitVec.ofNat 8 (pktNum xs 1 1), band := pktNum xs 0 1 == 3, frame := BitVec.ofNat 32 (pktNum xs 4 4),
      lines := BitVec.ofNat 16 (pktNum xs 8 2), stamp := BitVec.ofNat 21 (pktNum xs 12 3),
      shutter := BitVec.ofNat 8 (pktNum xs 15 1), tfpa := BitVec.ofNat 32 (pktNum xs 16 4),
      tshut := BitVec.ofNat 32 (pktNum xs 20 4), bias := BitVec.ofNat 16 (pktNum xs 24 2),
      hstat := BitVec.ofNat 32 (pktNum xs 28 4), crcOk := pktCrcOk xs 16, sub := u.sub }

/-- A response from its bytes (R76); none for another TYPE. -/
def Upstream.response (u : Upstream) : Option RspPacket :=
  let xs := u.bytes
  if pktNum xs 0 1 ≠ 4 then none
  else
    let len := pktNum xs 8 2
    some { tag := BitVec.ofNat 8 (pktNum xs 2 1), rstat := BitVec.ofNat 8 (pktNum xs 3 1),
           addr := BitVec.ofNat 32 (pktNum xs 4 4), payload := (xs.drop 16).take len, crcOk := pktCrcOk xs len }

end Sys2Proof
end

