-- ==== Sys2Proof/Machine/Verdict.lean ====
section
/-! DEFINITION. Zones, rules and verdicts (10_verdicts_and_actions.md, R195 to R201; 06_forecast_and_seal.md, R126 to
R131). -/

namespace Sys2Proof.Machine

/-! ### Zones (R195, R196) -/

/-- A line lies in zone `z` by its position. -/
def Block.zoneHas (b : Block) (z : Nat) (pos : Option Pos48) : Bool :=
  b.bit (Reg.Z_CTL z) 0 && (b.bit (Reg.Z_CTL z) 1 || match pos with
    | some p => decide (0 ≤ posDiff p (b.rdPos (Reg.Z_PLO_LO z))) && decide (0 ≤ posDiff (b.rdPos (Reg.Z_PHI_LO z)) p)
    | none => false)

/-- Rule `r` of zone `z` as it stands, on a line of `n` pixels from strip column `x0`; none where it is off or
selects no column. -/
def Block.ruleSet (b : Block) (z r x0 n : Nat) : Option RuleSet :=
  let w := Reg.Z_RULE z r
  let t := b.fld w 2 0
  let lo := max x0 (b.fld (Reg.Z_COL z) 15 0)
  let hi := min (x0 + n) (b.fld (Reg.Z_COL z) 31 16 + 1)
  if t = 0 || 5 < t || hi ≤ lo then none
  else some { type_ := t, n := max 1 (b.fld w 19 8), thr := b.fld (Reg.Z_THR z r) 23 0, actEn := b.bit w 20,
              tmpl := b.fld w 26 21, lo := lo, hi := hi - 1 }

/-! ### Comparisons (R126, R197, R198) -/

/-- A blob rule. -/
def RuleSet.blob (rs : RuleSet) : Bool := rs.type_ == 4 || rs.type_ == 5

/-- The comparisons a rule forms on a line, in column order. -/
def RuleSet.compare (rs : RuleSet) (x0 : Nat) (pix : List Pix) : List Cmp :=
  let a := pix.toArray
  (List.range (rs.hi + 1 - rs.lo)).filterMap fun i =>
    let x := rs.lo + i
    match a[x - x0]? with
    | none => none
    | some p =>
      if p.inv then none
      else if rs.type_ = 3 then
        if rs.hi < x + rs.n then none
        else match a[x + rs.n - x0]? with
          | none => none
          | some q =>
            if q.inv then none
            else
              let d := ((p.v : Int) - q.v).natAbs
              some { col := x, value := d, margin := (d : Int) - rs.thr, w := p.w + q.w, s := [p.s, q.s] }
      else
        let m : Int := if rs.type_ = 1 || rs.type_ = 4 then (p.v : Int) - rs.thr else (rs.thr : Int) - p.v
        some { col := x, value := p.v, margin := m, w := p.w, s := [p.s] }

/-- How comparisons are decided: by the scruple band (R126), all pending, or finally (R127). -/
inductive JMode where
  | scruple | hold | final
  deriving DecidableEq

/-- A comparison is met. -/
def JMode.met (m : JMode) (c : Cmp) : Bool :=
  match m with
  | .scruple => decide ((c.w : Int) < c.margin)
  | .hold => false
  | .final => decide (0 < c.margin)

/-- A comparison is pending. -/
def JMode.pends (m : JMode) (c : Cmp) : Bool :=
  match m with
  | .scruple => decide (c.margin ≤ (c.w : Int)) && decide (-c.margin ≤ (c.w : Int))
  | .hold => true
  | .final => false

/-- The runs of adjacent comparisons that satisfy a test. -/
def runsOf (test : Cmp → Bool) : List Cmp → List (List Cmp)
  | [] => []
  | c :: cs =>
    let rest := runsOf test cs
    if test c then
      match rest with
      | (d :: g) :: gs => if d.col = c.col + 1 then (c :: d :: g) :: gs else [c] :: rest
      | _ => [c] :: rest
    else rest

/-- The comparisons that count as met: for a blob, those of runs of at least N (R197). -/
def RuleSet.mets (rs : RuleSet) (m : JMode) (cs : List Cmp) : List Cmp :=
  if rs.blob then ((runsOf m.met cs).filter fun g => decide (rs.n ≤ g.length)).flatten else cs.filter m.met

/-- A rule with nothing met is pending (R126): for a blob, N adjacent pixels could be met. -/
def RuleSet.pends (rs : RuleSet) (m : JMode) (cs : List Cmp) : Bool :=
  if rs.blob then (runsOf (fun c => m.met c || m.pends c) cs).any fun g => decide (rs.n ≤ g.length) else cs.any m.pends

/-- The deciding comparison (R199): the largest margin, ties to the lowest column. -/
def deciding (cs : List Cmp) : Option Cmp :=
  cs.foldl (fun (best : Option Cmp) c => match best with
    | some d => if d.margin < c.margin then some c else some d
    | none => some c) none

/-- What a verdict is decided on. -/
def decideOf (cs : List Cmp) : Option Decide :=
  (deciding cs).map fun c => { col := c.col, value := c.value, margin := c.margin, met := cs.length }

/-- The final decision of a rule (R127). -/
def RuleSet.final (rs : RuleSet) (cs : List Cmp) : Option Decide := decideOf (rs.mets .final cs)

/-! ### Verdict records and actions (R200, R201) -/

/-- The action of a verdict (R201), with the instant of its line in ns: the index where it is created. -/
def createAction (ln : VLine) (rs : RuleSet) (inst : BitVec 64) (seq : Word) (b : Block) : Option Nat × Block :=
  let t := rs.tmpl
  let ctrl := b.rd (Reg.VRD_TMPL_CTRL t)
  let off := b.rdPos (Reg.VRD_TMPL_OFFSET_LO t)
  let arg : BitVec 24 := BitVec.ofNat 24 (b.num (Reg.VRD_TMPL_ARG t))
  let ctrl := setFieldOf ctrl 7 5 ln.src
  if bitOf ctrl 4 then
    match ln.pos with
    | some p => armByVerdict ((p + off).setWidth 64) ctrl arg seq b
    | none => (none, b)
  else armByVerdict (inst + off.signExtend 64) ctrl arg seq b

/-- The verdict record. -/
def verdictRecord (ln : VLine) (zone rule outcome : Nat) (seq : Word) (made missed : Bool) (d : Decide) (act : Option Nat)
    (inst : BitVec 64) (now : Nat) : List Byte :=
  [0x20, BitVec.ofNat 8 ln.head, BitVec.ofNat 8 outcome,
   BitVec.ofNat 8 (rule + 4 * b2n made + 8 * b2n missed + 16 * b2n ln.supply + 32 * b2n ln.degraded)]
    ++ leBytes 4 ln.frame.toNat ++ leBytes 2 ln.line.toNat ++ [BitVec.ofNat 8 zone, 0] ++ leBytes 4 seq.toNat
    ++ leBytes 2 d.col ++ leBytes 2 (min d.met 0xFFFF) ++ leBytes 4 d.value
    ++ leBytes 4 (BitVec.ofInt 32 d.margin).toNat ++ leBytes 2 (act.getD 0xFFFF) ++ [0, 0] ++ posBytes ln.pos
    ++ leBytes 8 inst.toNat ++ leBytes 8 now ++ List.replicate 8 0

/-- Issue a verdict, its instant narrowed to ns (R199 to R201, R7): 0 EARLY, 1 SEALED, 2 LAPSED, 3 UNDECIDED. Its number, and its action. The column and
value of a record that was never decided are free values. A line whose stamp matches no strike has its instant at all
ones, as its tag does (R64; DEDUCED). -/
def issueVerdict (ln : VLine) (zone rule : Nat) (rs : RuleSet) (outcome : Nat) (dec : Option Decide) (b : Block) :
    Word × Option Nat × Block :=
  let seq := b.rd Reg.VRD_SEQ
  let b := b.wr Reg.VRD_SEQ (seq + 1)
  let (inst, b) : BitVec 64 × Block := match ln.time with
    | some v => (BitVec.ofInt 64 (roundDiv v.toNat 16), b)
    | none => (BitVec.allOnes 64, b)
  let (d, b) : Decide × Block := match dec with
    | some d => (d, b)
    | none =>
      let (x, b) := b.draw
      let (v, b) := b.draw
      ({ col := x.toNat % 2 ^ 16, value := v.toNat % 2 ^ 24, margin := 0, met := 0 }, b)
  let b := match outcome with
    | 0 => b.inc Reg.VRD_CNT_A 31 16 1
    | 1 => b.inc Reg.VRD_CNT_A 15 0 1
    | 2 => b.inc Reg.VRD_CNT_B 15 0 1
    | _ => b
  let wants := decide (outcome ≤ 1) && rs.actEn
  let (act, b) := if wants then createAction ln rs inst seq b else (none, b)
  let rec_ := verdictRecord ln zone rule outcome seq act.isSome (wants && act.isNone) d act inst b.ns
  (seq, act, digestVerdict seq rec_ (pushRecord 0 rec_ b))

/-! ### A line enters the verdict engine (R199) -/

/-- Pending entries held in the store. -/
def Block.pendCount (b : Block) : Nat := (b.vrd.pend.filter (·.pending)).length

/-- Replace the pending entries and early verdicts. -/
def setPend (ps : List Pend) (b : Block) : Block := { b with vrd := { b.vrd with pend := ps } }
def setEarly (es : List Early) (b : Block) : Block := { b with vrd := { b.vrd with early := es } }

/-- One rule on a line whose frames are not decided (R126, R127, R199). -/
def evalRule (ln : VLine) (zone rule : Nat) (rs : RuleSet) (hold : Bool) (cs : List Cmp) (b : Block) : Block :=
  let m : JMode := if hold then .hold else .scruple
  let met := rs.mets m cs
  match decideOf met with
  | some d =>
    let (seq, act, b) := issueVerdict ln zone rule rs 0 (some d) b
    let e : Early :=
      { ln := ln, zone := zone, rule := rule, rs := rs, vseq := seq, margin := d.margin, act := act,
        pix := met.map fun c => (c.margin, c.s) }
    setEarly (b.vrd.early ++ [e]) b
  | none =>
    let pending := rs.pends m cs
    let p : Pend :=
      { ln := ln, zone := zone, rule := rule, rs := rs, pending := pending, ifSealed := rs.final cs,
        stand := if hold then [] else cs.filter fun c => !m.pends c }
    if pending && 4096 ≤ b.pendCount then
      let b := (b.inc Reg.VRD_PEND_OVF 31 0 1).setBit Reg.VRD_STAT 16
      (issueVerdict ln zone rule rs 3 none b).2.2
    else setPend (b.vrd.pend ++ [p]) b

/-- One rule on a line (R199): a sealed integrated line is decided at once, a lapsed one resolves as lapsed (R179). -/
def evalOne (j : VJob) (zone rule : Nat) (rs : RuleSet) (b : Block) : Block :=
  let cs := rs.compare j.x0 j.pix
  if cs.isEmpty then b
  else if j.lapsed then (issueVerdict j.ln zone rule rs 2 none b).2.2
  else if j.sealed then
    match rs.final cs with
    | some d => (issueVerdict j.ln zone rule rs 1 (some d) b).2.2
    | none => b
  else evalRule j.ln zone rule rs j.hold cs b

/-- A line enters the verdict engine (R195, R198, R199). -/
def evalLine (j : VJob) (b : Block) : Block :=
  if !b.bit Reg.VRD_CTL 0 then b
  else if j.shuttered && j.ln.head != 0x1F then b.inc Reg.VRD_CNT_B 31 16 1
  else forEach (List.range 256) (fun z b =>
    if b.zoneHas z j.ln.pos then
      forEach (List.range 4) (fun r b =>
        match b.ruleSet z r j.x0 j.pix.length with
        | some rs => evalOne j z r rs b
        | none => b) b
    else b) b

/-- The next line waiting at the verdict engine is evaluated. -/
def verdictEval (b : Block) : Block :=
  match b.vrd.jobs with
  | [] => b
  | j :: js => evalLine j { b with vrd := { b.vrd with jobs := js } }

/-! ### Resolution (R127 to R129, R131) -/

/-- An entry or early verdict draws on frame `id` of head `h`. -/
def VLine.of (ln : VLine) (h id : Nat) : Bool := ln.srcs.contains (h, id)

/-- Early verdicts and quiet or pending entries of a frame are forgotten. -/
def forgetFrame (h id : Nat) (b : Block) : Block :=
  setEarly (b.vrd.early.filter fun e => !e.ln.of h id) (setPend (b.vrd.pend.filter fun p => !p.ln.of h id) b)

/-- Resolve the pending verdicts of a frame sealed as emitted (R127, R119 step 3), in line order. -/
def resolveSealed (h id : Nat) (b : Block) : Block :=
  let ps := b.vrd.pend.filter fun p => p.pending && p.ln.of h id
  forEach ps (fun p b => match p.ifSealed with
    | some d => (issueVerdict p.ln p.zone p.rule p.rs 1 (some d) b).2.2
    | none => b) (forgetFrame h id b)

/-- The error caused e at a pixel of sensitivity `s` by an error `delta` (R128). -/
def errorOf (s delta : Nat) : Nat := satU 24 (roundDiv (s * delta : Nat) (2 ^ 16))

/-- The errors of a comparison's pixels, summed. -/
def errorSum (ss : List Nat) (delta : Nat) : Nat := ss.foldl (fun n s => n + errorOf s delta) 0

/-- The error of an early verdict's deciding comparison. -/
def Early.error (e : Early) (delta : Nat) : Nat :=
  match e.pix.find? fun p => p.1 == e.margin with
  | some p => errorSum p.2 delta
  | none => 0

/-- An early verdict is listed (R128). -/
def Early.listed (e : Early) (delta : Nat) : Bool :=
  if e.rs.blob then decide ((e.pix.filter fun p => decide ((errorSum p.2 delta : Int) < p.1)).length < e.rs.n)
  else decide (e.margin ≤ (e.error delta : Int))

/-- Issue a retraction record (R131): 0 CONFIRMED, 1 REVERSED, 2 UNRESOLVED. -/
def retract (h : Nat) (f : Frame) (e : Early) (result delta : Nat) (b : Block) : Block :=
  let (code, when_, b) : Nat × Nat × Block := match e.act, e.fate with
    | none, _ => (0, 0, b)
    | some _, some 0 => (0, 0, b)
    | some _, some t => (2, t, b)
    | some i, none =>
      if result = 1 then
        let (gone, b) := retractAct i e.vseq b
        (if gone then 1 else 3, 0, b)
      else (3, 0, b)
  let rec_ : List Byte :=
    [0x22, BitVec.ofNat 8 h, BitVec.ofNat 8 result, BitVec.ofNat 8 code] ++ leBytes 4 e.ln.frame.toNat
      ++ leBytes 2 e.ln.line.toNat ++ [BitVec.ofNat 8 e.zone, BitVec.ofNat 8 e.rule] ++ leBytes 4 e.vseq.toNat
      ++ leBytes 2 (e.act.getD 0xFFFF) ++ [0, 0] ++ leBytes 4 (BitVec.ofInt 32 e.margin).toNat
      ++ leBytes 4 (e.error delta) ++ leBytes 4 (f.eps.getD 0xFFFFFFFF) ++ leBytes 4 f.beta ++ leBytes 8 when_
      ++ List.replicate 20 0
  let b := pushRecord 0 rec_ (b.incPl (b.regPipe h) Reg.PL_SEAL_CNT_C 31 16 1)
  match (b.hd h).frames.find? fun g => g.id == f.id with
  | some g => setFrame h { g with retracts := g.retracts + 1 } b
  | none => b

/-- Revised comparisons with those that were decided early put back (R129). -/
def standing (stand cs : List Cmp) : List Cmp :=
  cs.map fun c => (stand.find? fun d => d.col == c.col).getD c

/-- The revised line `ln` of a restruck frame passes the verdict engine (R127 to R129): pending entries resolve; on a
bound breach the listed early verdicts are re-checked and the quiet rules evaluated again. Zone and rule order. -/
def resolveLine (h : Nat) (f : Frame) (ln : VLine) (x0 : Nat) (pix : List Pix) (delta : Nat) (b : Block) : Block :=
  let mine (l : VLine) : Bool := l.of h f.id && l.line == ln.line
  let ps := b.vrd.pend.filter fun p => mine p.ln
  let es := b.vrd.early.filter fun e => mine e.ln
  forEach (List.range 1024) (fun k b =>
    let b := match ps.find? fun p => p.zone * 4 + p.rule == k with
      | some p =>
        let cs := p.rs.compare x0 pix
        if p.pending then
          match p.rs.final (if f.breach then cs else standing p.stand cs) with
          | some d => (issueVerdict ln p.zone p.rule p.rs 1 (some d) b).2.2
          | none => b
        else if f.breach then
          match p.rs.final cs with
          | some d => (issueVerdict ln p.zone p.rule p.rs 1 (some d) b).2.2
          | none => b
        else b
      | none => b
    match es.find? fun e => e.zone * 4 + e.rule == k with
    | some e =>
      if f.breach && e.listed delta then
        retract h f ((b.vrd.early.find? fun x => x.vseq == e.vseq).getD e)
          (if (e.rs.final (e.rs.compare x0 pix)).isSome then 0 else 1) delta b
      else b
    | none => b) b

/-- A frame has lapsed (R127, R128): its pending entries resolve as lapsed and, after a breach, its listed early
verdicts are unresolved; in line order, then zone and rule order. `delta` gives the error of a line. -/
def resolveLapsed (h : Nat) (f : Frame) (delta : Nat → Nat) (b : Block) : Block :=
  let ps := b.vrd.pend.filter fun p => p.pending && p.ln.of h f.id
  let es := b.vrd.early.filter fun e => f.breach && e.ln.of h f.id && e.listed (delta e.ln.line.toNat)
  let b := forEach f.lines (fun l b =>
    let y := BitVec.ofNat 16 l.y
    forEach (List.range 1024) (fun k b =>
      let b := match ps.find? fun p => p.ln.line == y && p.zone * 4 + p.rule == k with
        | some p => (issueVerdict p.ln p.zone p.rule p.rs 2 none b).2.2
        | none => b
      match es.find? fun e => e.ln.line == y && e.zone * 4 + e.rule == k with
      | some e => retract h f e 2 (delta l.y) b
      | none => b) b) b
  forgetFrame h f.id b

end Sys2Proof.Machine
end

