-- ==== Sys2Proof/Machine/Seam.lean ====
section
/-! DEFINITION. Strip lines and relay calibration (09_bands_and_seams.md, R185 to R192). -/

namespace Sys2Proof.Machine

/-! ### Strip lines (R187, R188) -/

/-- SEAM_PITCH as it acts. -/
def Block.seamPitch (b : Block) : Nat := max 1 (b.fld Reg.SEAM_PITCH 23 0)

/-- The first strip line that begins at or after strip position `p`. -/
def Block.stripIndex (b : Block) (p : Pos48) : Int :=
  -((-(posDiff p (b.rdPos Reg.SEAM_ORG_LO))) / (b.seamPitch : Int))

/-- The position of strip line `i`. -/
def Block.stripPos (b : Block) (i : Int) : Pos48 := b.rdPos Reg.SEAM_ORG_LO + toPos (i * b.seamPitch)

/-- The first strip line that begins behind a head line's interval. -/
def Block.stripEnd (b : Block) (l : SeamLine) : Int := b.stripIndex (l.pos + toPos l.pitch)

/-- A head line's interval contains the beginning of strip line `i` (R187). -/
def Block.supplies (b : Block) (i : Int) (l : SeamLine) : Bool := decide (b.stripIndex l.pos ≤ i) && decide (i < b.stripEnd l)

/-- A head line has been passed by the strip lines already formed. -/
def Block.stale (b : Block) (l : SeamLine) : Bool :=
  match b.seam.next with
  | some n => decide (b.stripEnd l ≤ n)
  | none => false

/-- Every included head has gone back behind the strip lines already formed: forming begins anew there. -/
def Block.seamRestart (b : Block) : Bool :=
  !b.seam.lines.isEmpty && b.seam.lines.all b.stale && b.included.all fun c => b.seam.lines.any fun l => l.chain == c

/-- Lines of included heads that may still enter a strip line (R186). -/
def Block.seamLive (b : Block) : List SeamLine :=
  let on := b.included
  b.seam.lines.filter fun l => (b.seamRestart || !b.stale l) && on.contains l.chain

/-- The lowest strip line that a head has supplied and that has not been formed. -/
def Block.stripLowest (b : Block) : Option Int :=
  b.seamLive.foldl (fun (m : Option Int) l =>
    let i := match b.seam.next with
      | some n => if b.seamRestart then b.stripIndex l.pos else max n (b.stripIndex l.pos)
      | none => b.stripIndex l.pos
    match m with
    | some j => some (min i j)
    | none => some i) none

/-- The strip line to form next in ascending order (R187): the one after the last, or the lowest supplied where forming
begins. -/
def Block.stripNext (b : Block) : Option Int :=
  match b.seam.next with
  | some n => if b.seamRestart then b.stripLowest else if b.seamLive.isEmpty then none else some n
  | none => b.stripLowest

/-- Every included head has supplied its line for `i` or emitted one mapped beyond it. -/
def Block.stripReady (b : Block) (i : Int) : Bool :=
  b.included.all fun c => b.seamLive.any fun l => l.chain == c && decide (i < b.stripEnd l)

/-- SEAM_WAIT_US has passed since the first head supplied its line for `i`. -/
def Block.stripLate (b : Block) (i : Int) : Bool :=
  b.seamLive.any fun l => b.supplies i l && decide (l.at_ + max 1 (b.fld Reg.SEAM_WAIT_US 15 0) * tuUs ≤ b.now)

/-- cut_k in 1/256 strip column (R187). -/
def Block.cut (b : Block) (k : Nat) : Nat :=
  let v := b.fld (Reg.SEAM_S_CUT k) 11 0
  let col := if v = 0 then b.colOff k + (b.chainCols k - b.colOff k) / 2 else v
  b.stripOff k + col * 256

/-- The primary chain position of strip column `x`. -/
def primaryOf (cuts : List Nat) (x : Nat) : Nat :=
  (cuts.findIdx? fun c => decide (x * 256 < c)).getD cuts.length

/-- What a chain position can supply to a strip line: its line, pixels, offset; none where it is shuttered. -/
structure Supply where
  line : SeamLine
  pix : Array Pix
  off : Nat

/-- The pixel of strip column `x`: the primary's, else from the position before it, then after it; whether it was a
fallback, and the position used. -/
def seamPixel (sup : Nat → Option Supply) (c x : Nat) : Pix × Bool × Option Nat :=
  let get (d : Nat) : Option Pix :=
    match sup d with
    | some s => match stripPixel s.pix s.off x with
      | some p => if p.inv then none else some p
      | none => none
    | none => none
  match get c with
  | some p => (p, false, some c)
  | none =>
    match if c = 0 then none else get (c - 1) with
    | some p => (p, true, some (c - 1))
    | none => match get (c + 1) with
      | some p => (p, true, some (c + 1))
      | none => (Pix.dark, false, none)

/-- SEAM_S_STAT.NA: the overlap of seam `k` is below 32 columns (R189). -/
def Block.overlapNA (b : Block) (k : Nat) : Bool := decide (b.chainCols k < b.colOff k + 32)

/-- STATUS bits that keep a head line's pixels out of the pairs (R189): PROVISIONAL, DEGRADED, SUPPLY, SHUTTERED. -/
def relayBad (status : Nat) : Bool :=
  !(status.testBit 4) || status.testBit 3 || status.testBit 6 || status.testBit 7 || status.testBit 8

/-- A valid value of a head at a strip column. -/
def Supply.at_ (s : Supply) (x : Nat) : Option Nat :=
  match stripPixel s.pix s.off x with
  | some p => if p.inv then none else some p.v
  | none => none

/-- A head's value at strip column `x` where it may enter a pair (R189). -/
def Block.pairValue (b : Block) (s : Supply) (x : Nat) : Option Nat :=
  let n := s.pix.size
  if x * 256 < s.off + 4 * 256 || s.off + (n - 5) * 256 < x * 256 || n < 9 then none
  else match s.at_ x, s.at_ (x - 1), s.at_ (x + 1) with
    | some v, some p, some q =>
      if b.fld Reg.SEAM_LO 23 0 ≤ v && v ≤ b.fld Reg.SEAM_HI 23 0 && ((q : Int) - p).natAbs ≤ b.fld Reg.SEAM_GRAD 23 0
      then some v else none
    | _, _, _ => none

/-- Add a pair to a seam's sums (R190); m is kept doubled. -/
def SeamSum.addPair (s : SeamSum) (vref va vb : Nat) : SeamSum :=
  let m : Int := (va : Int) + vb - 2 * vref
  let d : Int := (va : Int) - vb
  { n := s.n + 1, m := s.m + m, d := s.d + d, mm := s.mm + m * m, md := s.md + m * d }

/-- A seam's sums. -/
def Block.seamSum (b : Block) (k : Nat) : SeamSum := b.seam.sums.get (fun _ => {}) k

/-- Replace a seam's sums. -/
def setSum (k : Nat) (s : SeamSum) (b : Block) : Block :=
  { b with seam := { b.seam with sums := b.seam.sums.set (fun _ => {}) k s } }

/-- Collect the pairs of a strip line (R189), at the columns up to the cap of R185. -/
def collectPairs (sup : Nat → Option Supply) (b : Block) : Block :=
  if !b.bit Reg.SEAM_CTL 2 || !b.cGrant then b
  else forEach (List.range (b.chainLen - 1)) (fun k b =>
    match sup k, sup (k + 1) with
    | some s, some t =>
      if b.overlapNA k || relayBad s.line.status || relayBad t.line.status then b
      else
        let lo := t.off / 256
        let hi := min 49152 (s.off / 256 + s.pix.size)
        let vref := b.fld Reg.SEAM_VREF 23 0
        let sum := (List.range (hi - lo)).foldl (fun (a : SeamSum) i =>
          match b.pairValue s (lo + i), b.pairValue t (lo + i) with
          | some va, some vb => a.addPair vref va vb
          | _, _ => a) (b.seamSum k)
        setSum k sum b
    | _, _ => b) b

/-- Form strip line `i` (R187, R188) and send it to T5 and the verdict engine. A saturation of a RAD16 strip stream counts in
the pipeline of the head from which the pixel was taken (R163; DEDUCED, log entry 127). -/
def formStrip (i : Int) (b : Block) : Block :=
  let lines := b.seamLive.filter (b.supplies i)
  let absent := (b.included.filter fun c => !lines.any fun l => l.chain == c).length
  let sups : List (Nat × Supply) := lines.map fun l =>
    (l.chain, { line := l, pix := l.pix.toArray, off := b.stripOff l.chain })
  let sup (c : Nat) : Option Supply := (sups.find? fun s => s.1 == c).map Prod.snd
  let lit (c : Nat) : Option Supply := match sup c with
    | some s => if s.line.status.testBit 8 then none else some s
    | none => none
  let cuts := (List.range (b.chainLen - 1)).map b.cut
  let cols := (List.range b.stripWidth).map fun x => seamPixel lit (primaryOf cuts x) x
  let used := sups.filter fun s => cols.any fun q => q.2.2 == some s.1
  let flags := used.foldl (fun n s => n ||| s.2.line.status % 1024) 0
  let step := used.foldl (fun n s => max n (s.2.line.status / 1024)) b.budStep
  let srcs := (used.map fun s => s.2.line.srcs).flatten
  let pix := cols.map (·.1)
  let n := b.rd Reg.SEAM_SEQ
  let (v0, b) := b.draw
  let (v1, b) := b.draw
  let (v2, b) := b.draw
  let inst : BitVec 68 := v0 ++ v1.extractLsb' 24 4
  let stat : LStat := { prov := flags.testBit 3, sealed := flags.testBit 4, revised := flags.testBit 5, step := step,
                        supply := flags.testBit 7, shuttered := flags.testBit 8 }
  let g : LTag := { head := 0x1F, frame := n >>> 10, line := n.toNat % 1024, cols := pix.length, stat := stat,
                    subst := (pix.filter fun p => p.flags.getLsbD 1).length, bank := v1.getLsbD 63,
                    stamp := v1.setWidth 21, pos := some (b.stripPos i), time := some inst,
                    tfpa := v2.toNat % 2 ^ 32, bound := v2.toNat / 2 ^ 32 }
  let b := b.wr Reg.SEAM_SEQ (n + 1)
  let b := b.inc Reg.SEAM_CNT 31 16 absent
  let b := b.inc Reg.SEAM_CNT 15 0 (cols.filter fun q => q.2.1).length
  let b := collectPairs sup b
  let b := { b with seam := { b.seam with next := some (i + 1), lines := b.seam.lines.filter fun l => decide (i + 1 < b.stripEnd l) } }
  let vals := pix.map fun p => (p.v, p.flags.toNat)
  let b := if b.strEn 197 then
      let (fmt, rad, b) := radPixels 197 31 vals b
      let b := if fmt = 2 then forEach cols (fun q b => match q.2.2 with
          | some c => b.incPl (b.curPipe (b.chainHead c)) Reg.PL_LIN_CNT2 31 16 (b2n (rad16 q.1.v).2)
          | none => b) b
        else b
      pushItem 197 ⟨lineItem g 5 fmt (b.bit (Reg.STR_CTL 197) 1) rad b.ns, g.frame, BitVec.ofNat 16 g.line⟩ b
    else b
  let b := digestStrip g.frame g.line stat.num g.pos (vals.map fun p => p.1 + p.2 * 2 ^ 24) b
  let ln : VLine := { head := 0x1F, srcs := srcs, frame := g.frame, line := BitVec.ofNat 16 g.line, pos := g.pos,
                      time := g.time, src := b.fld Reg.SEAM_CTL 10 8, supply := stat.supply, degraded := decide (0 < step) }
  let j : VJob := { ln := ln, x0 := 0, pix := pix, hold := false, lapsed := stat.prov, sealed := !stat.prov, shuttered := false }
  { b with vrd := { b.vrd with jobs := b.vrd.jobs ++ [j] } }

/-- Form the next strip line where every included head has supplied or passed it (R187). -/
def stripForm (b : Block) : Block :=
  match b.stripNext with
  | some i => if b.stitching && b.stripReady i then formStrip i b else b
  | none => b

/-- Form the lowest strip line that a head has supplied where its wait has expired (R187). -/
def stripExpire (b : Block) : Block :=
  match b.stripLowest with
  | some i => if b.stitching && b.stripLate i then formStrip i b else b
  | none => b

/-- WIDTH_CAP and UNDERCOVER of the chain as it stands (R185). -/
def seamCheck (b : Block) : Block :=
  let b := if 49152 < b.stripCols then b.setBit Reg.SEAM_STAT 1 else b
  if b.underCovered then b.setBit Reg.SEAM_STAT 7 else b

/-! ### Relay calibration (R190 to R192) -/

/-- The estimate of a seam (R190): d0 at VREF, and γ. -/
def SeamSum.estimate (s : SeamSum) (spread : Nat) : Rat × Rat :=
  let n : Rat := (s.n : Rat)
  let mm : Rat := (s.m : Rat) / (2 * n)
  let md : Rat := (s.d : Rat) / n
  let var : Rat := (s.mm : Rat) / (4 * n) - mm * mm
  let gamma : Rat := if ((spread * spread : Nat) : Rat) ≤ var then ((s.md : Rat) / (2 * n) - mm * md) / var else 0
  (md - gamma * mm, gamma)

/-- Estimate seam `k` and clear its sums (R190). -/
def estimateSeam (k : Nat) (b : Block) : Option (Rat × Rat) × Block :=
  let s := b.seamSum k
  let b := (setSum k {} b).wrN (Reg.SEAM_S_PAIRS k) s.n
  if s.n < max 1 (b.fld Reg.SEAM_MINPTS 23 0) then (none, b.setBit (Reg.SEAM_S_STAT k) 1)
  else
    let e := s.estimate (b.fld Reg.SEAM_SPREAD 23 0)
    let b := b.wr (Reg.SEAM_S_D0 k) (BitVec.ofInt 32 (satS 32 (roundRat e.1)))
    let b := b.wr (Reg.SEAM_S_GAMMA k) (BitVec.ofInt 32 (satS 32 (roundRat (e.2 * 2 ^ 24))))
    (some e, b.clrBit (Reg.SEAM_S_STAT k) 1)

/-- The sum of estimates over seams `a` up to, but not including, `c`; none where one has none. -/
def sumEstimates (es : List (Option (Rat × Rat))) (a c : Nat) : Option (Rat × Rat) :=
  ((es.drop a).take (c - a)).foldl (fun acc e => match acc, e with
    | some s, some x => some (s.1 + x.1, s.2 + x.2)
    | _, _ => none) (some (0, 0))

/-- The radiance curve's inverse at `v` (R191): the input in counts and the slope there per count; none where the curve
does not pass `v` with a slope. -/
def Snap.inverse (s : Snap) (v : Nat) : Option (Rat × Rat) :=
  let entry (k : Nat) : Int := (curveNum s.curves (4 * k) 4 % 2 ^ 24 : Nat)
  let step : Rat := ((max 1 (s.p 1 % 2 ^ 18) : Nat) : Rat)
  let x0 : Rat := ((sext 24 (s.p 0) : Int) : Rat)
  match (List.range 4095).find? fun k => decide (entry k ≤ v ∧ (v : Int) ≤ entry (k + 1) ∧ entry k < entry (k + 1)) with
  | some k =>
    let rise : Rat := ((entry (k + 1) - entry k : Int) : Rat)
    let x : Rat := x0 + step * ((k : Rat) + (((v : Int) - entry k : Int) : Rat) / rise)
    some (x / 64, rise / step * 64)
  | none => none

/-- The first frame of a head that trims put now serve (R157, R192): the open one, or where its first line has entered stage 6
or none is open, the next one. -/
def Block.trimFrame (b : Block) (h : Nat) : Option Word :=
  let x := b.hd h
  match x.frames.find? fun f => f.st == .open_ && decide (f.snapLvl < 3) with
  | some f => some f.num
  | none => x.lastNum.map (· + 1)

/-- Mirror a head's fine trims with the frame that they serve first (R192). -/
def mirrorTrims (h : Nat) (b : Block) : Block :=
  if h < 24 then
    mirror (.trim (Fin.ofNat 24 h) ((b.trimFrame h).getD 0) (b.rd (Reg.SEAM_H_RG_FINE h)) (b.rd (Reg.SEAM_H_RO_FINE h))) b
  else b

/-- Store a head's fine trims, and the trims they narrow to (R191). -/
def putTrims (h : Nat) (rg ro : Word) (b : Block) : Block :=
  let b := (b.wr (Reg.SEAM_H_RG_FINE h) rg).wr (Reg.SEAM_H_RO_FINE h) ro
  let b := b.wrN (Reg.SEAM_H_RG h) (satU 24 (roundDiv (rg.toNat : Int) 256))
  b.wrN (Reg.SEAM_H_RO h) ((satS 18 (roundDiv ro.toInt (2 ^ 14)) % 2 ^ 18).toNat)

/-- Mirrored trims whose frame has come, or has passed, are put (R192). -/
def trimsDue (h : Nat) (b : Block) : Block :=
  let x := b.hd h
  let due (t : Word × Word × Word) : Bool := match b.trimFrame h with
    | some n => !frameBefore n t.1
    | none => true
  let b := b.setHd h { x with mirTrims := x.mirTrims.filter fun t => !due t }
  forEach (x.mirTrims.filter due) (fun t => putTrims h t.2.1 t.2.2) b

/-- Mirrored trims of a head wait for their frame (R192). -/
def trimHeard (h : Nat) (frame rg ro : Word) (b : Block) : Block :=
  let x := b.hd h
  trimsDue h (b.setHd h { x with mirTrims := x.mirTrims ++ [(frame, rg, ro)] })

/-- All mirrored trims that wait are put: the head is unbound, or its device no longer a standby. -/
def trimsFlush (h : Nat) (b : Block) : Block :=
  let x := b.hd h
  forEach x.mirTrims (fun t => putTrims h t.2.1 t.2.2) (b.setHd h { x with mirTrims := [] })

/-- Update the trims of a head by its correction (R191, R192). Where the curve has no inverse at VREF the new trims are
free values. -/
def updateTrims (h : Nat) (d g : Rat) (b : Block) : Block :=
  if b.seam.wrote.get (fun _ => none) h == some b.now then b.inc Reg.SEAM_RELAY_CNT 15 0 1
  else
    let lam : Rat := ((max 1 (b.fld Reg.SEAM_UPD_MS 15 0) : Nat) : Rat) / ((max 1 (b.fld Reg.SEAM_TAU_S 15 0) * 1000 : Nat) : Rat)
    let gn := lam * g
    let rg : Rat := (b.num (Reg.SEAM_H_RG_FINE h) : Rat)
    let ro : Rat := ((b.snum (Reg.SEAM_H_RO_FINE h) : Int) : Rat)
    let s := b.takeSnap h { regs := [], emis := [], tone := [], palette := [] }
    let newRg : Word := BitVec.ofNat 32 (satU 32 (roundRat (rg * (1 + gn))))
    let (newRo, b) : Word × Block := match s.inverse (b.fld Reg.SEAM_VREF 23 0) with
      | some (xr, sl) => (BitVec.ofInt 32 (satS 32 (roundRat (ro * (1 + gn) + (lam * d / sl - gn * xr) * 2 ^ 20))), b)
      | none =>
        let (v, b) := b.draw
        (v.setWidth 32, b)
    let before := (b.now, b.rd (Reg.SEAM_H_RG_FINE h), b.rd (Reg.SEAM_H_RO_FINE h))
    let b := putTrims h newRg newRo { b with seam := { b.seam with updated := b.seam.updated.set (fun _ => none) h (some before) } }
    mirrorTrims h b

/-- A relay update is due (R190). -/
def Block.relayDue (b : Block) : Bool :=
  b.bit Reg.SEAM_CTL 2 && b.cGrant && decide (b.seam.updFrom + max 1 (b.fld Reg.SEAM_UPD_MS 15 0) * 1000000 ≤ b.ns)

/-- The relay update (R190, R191): estimates and empty sums; in a pair only the active member updates trims (R192). -/
def relayUpdate (b : Block) : Block :=
  if !b.relayDue then b
  else
    let (es, b) := (List.range (b.chainLen - 1)).foldl (fun (acc : List (Option (Rat × Rat)) × Block) k =>
      let (e, b) := estimateSeam k acc.2
      (acc.1 ++ [e], b)) (([] : List (Option (Rat × Rat))), b)
    let b := { b with seam := { b.seam with updFrom := b.ns, sums := [] } }
    let r := b.chainRef
    let b := forEach (List.range b.chainLen) (fun c b =>
      if c = r || b.standby || b.chainPos (b.chainHead c) != some c || 24 ≤ b.chainHead c then b
      else
        let e := if r < c then sumEstimates es r c else (sumEstimates es c r).map fun x => (-x.1, -x.2)
        match e with
        | some (d, g) => updateTrims (b.chainHead c) d g b
        | none => b) b
    b.inc Reg.SEAM_RELAY_CNT 31 16 1

/-- A write undoes an update of the head's trims in its cycle (R192): it wins, and HOSTWIN counts it. -/
def undoUpdate (h : Nat) (b : Block) : Block :=
  match b.seam.updated.get (fun _ => none) h with
  | some (t, rg, ro) =>
    let b := { b with seam := { b.seam with updated := b.seam.updated.set (fun _ => none) h none } }
    if t = b.now then
      let b := putTrims h rg ro (b.inc Reg.SEAM_RELAY_CNT 15 0 1)
      mirrorTrims h b
    else b
  | none => b

/-- A write of SEAM_H_RG or SEAM_H_RO (R192): the matching fine value takes exactly the written value, and is mirrored. -/
def trimWrite (h : Nat) (gain : Bool) (val : Word) (b : Block) : Block :=
  let b := { b with seam := { b.seam with wrote := b.seam.wrote.set (fun _ => none) h (some b.now) } }
  if gain then
    let v := val.toNat % 2 ^ 24
    mirrorTrims h ((b.wrN (Reg.SEAM_H_RG h) v).wrN (Reg.SEAM_H_RG_FINE h) (v * 256))
  else
    let v := val.toNat % 2 ^ 18
    mirrorTrims h ((b.wrN (Reg.SEAM_H_RO h) v).wr (Reg.SEAM_H_RO_FINE h) (BitVec.ofInt 32 (sext 18 v * 2 ^ 14)))

end Sys2Proof.Machine
end

