-- ==== Sys2Proof/Machine/Merge.lean ====
section
/-! DEFINITION. Curves, tables and merge runs (08_radiometry_and_bands.md, R161, R167 to R170, R173). -/

namespace Sys2Proof.Machine

/-! ### Curves and their switches (R157, R161, R167) -/

/-- The head of a pipeline, where it is bound. -/
def Block.headOf (b : Block) (p : Nat) : Option Nat :=
  if b.bit (Reg.PL_STAT p) 8 then some (b.fld (Reg.PL_STAT p) 4 0) else none

/-- Parameters of a table section: LIN_X0, LIN_XSTEP, RES_X0, RES_XSTEP, RAT_R0, RAT_RSTEP (R167). -/
def curveParams (t : List Byte) : List Word :=
  (List.range 6).map fun i => BitVec.ofNat 32 (ofLe ((t.drop (0x50A8 + 4 * i)).take 4))

/-- Curves of a table section into a head's SRAM, the residual curve at the given copies (R167). -/
def putCurves (t : List Byte) (res : List Nat) (m : SMap Byte) : SMap Byte :=
  let m := m.setList (fun _ => 0) 0 (t.take 0x5000)
  res.foldl (fun m a => m.setList (fun _ => 0) a ((t.drop 0x5000).take 128)) m

/-- The address of residual copy A (false) or B (true). -/
def resAddr (copyB : Bool) : Nat := if copyB then 0x5080 else 0x5000

/-- A characterisation load fills the curves (R167): both residual copies, A active. -/
def loadCurves (h : Nat) (t : List Byte) (b : Block) : Block :=
  let x := b.hd h
  b.setHd h { x with curves := putCurves t [0x5000, 0x5080] x.curves, par := curveParams t, resAct := false,
                     resPend := false, curveNew := none, curveBusy := false }

/-- The address of a head's tables in HBM. -/
def tablesAddr (h : Nat) : Nat := 0xF8000000 + h * 0x100000

/-- The switches of a head's boundary (R157): the emissivity copy of its pipeline, the residual curve, loaded curves. -/
def boundarySwitches (h p : Nat) (b : Block) : Block :=
  let b := if p < 26 && b.bit (Reg.PL_LIN_CTL p) 5 then
      (b.putBit (Reg.PL_LIN_CTL p) 4 (!b.bit (Reg.PL_LIN_CTL p) 4)).clrBit (Reg.PL_LIN_CTL p) 5
    else b
  let x := b.hd h
  let x := if x.resPend then { x with resAct := !x.resAct, resPend := false } else x
  match x.curveNew with
  | some (t, par) => b.setHd h { x with curves := putCurves t [] x.curves, par := par, curveNew := none }
  | none => if x.resAct != (b.hd h).resAct then b.setHd h x else b

/-- Apply the switches at once where the head has no open frame (R22). -/
def switchNow (h : Nat) (b : Block) : Block := if b.frameOpen h then b else boundarySwitches h (b.curPipe h) b

/-- PL_LIN_CMD.EMIS_SWITCH (R161). -/
def emisSwitch (p : Nat) (b : Block) : Block :=
  let b := b.setBit (Reg.PL_LIN_CTL p) 5
  match b.headOf p with
  | some h => switchNow h b
  | none => (b.putBit (Reg.PL_LIN_CTL p) 4 (!b.bit (Reg.PL_LIN_CTL p) 4)).clrBit (Reg.PL_LIN_CTL p) 5

/-- PL_LIN_CMD.CURVE_LOAD (R167). -/
def curveLoad (p : Nat) (b : Block) : Block :=
  match b.headOf p with
  | some h =>
    let x := b.hd h
    if x.curveBusy then b else b.setHd h { x with curveBusy := true }
  | none => b

/-- The copy of CURVE_LOAD completes (R167): the residual curve goes to the inactive copy, to become active at the boundary
at which the other curves are taken. -/
def curveLoadDone (h : Nat) (b : Block) : Block :=
  let x := b.hd h
  if x.curveBusy then
    let t := b.hbmBytes (tablesAddr h) 0x50C0
    let res := (t.drop 0x5000).take 128
    switchNow h (b.setHd h { x with
      curveBusy := false, curveNew := some (t, curveParams t), resPend := true
      curves := x.curves.setList (fun _ => 0) (resAddr (!x.resAct)) res })
  else b

/-! ### The table window (R173) -/

/-- The entry of the table window at an index. -/
def tblRead (p i : Nat) (b : Block) : Word :=
  let q := b.pl p
  let act := if b.bit (Reg.PL_LIN_CTL p) 4 then 256 else 0
  let emis (a : Nat) : Word := q.emis.get (fun _ => 0x8000) a
  let curve (a n : Nat) : Word := match b.headOf p with
    | some h => BitVec.ofNat 32 (curveNum (b.hd h).curves a n)
    | none => 0
  let res (active : Bool) (k : Nat) : Word := match b.headOf p with
    | some h => BitVec.ofNat 32 (curveNum (b.hd h).curves (resAddr ((b.hd h).resAct == active) + 2 * k) 2)
    | none => 0
  if i < 0x1000 then curve (4 * i) 4 &&& 0xFFFFFF
  else if i < 0x1400 then curve (0x4000 + 4 * (i - 0x1000)) 4 &&& 0xFFFFFF
  else if i < 0x1500 then emis (256 - act + (i - 0x1400))
  else if i < 0x1600 then emis (act + (i - 0x1500))
  else if i < 0x1640 then res true (i - 0x1600)
  else if i < 0x1680 then res false (i - 0x1640)
  else if 0x1800 ≤ i ∧ i < 0x1C00 then q.tone.get (fun k => BitVec.ofNat 32 (k * 64)) (i - 0x1800)
  else if 0x1C00 ≤ i ∧ i < 0x1D00 then q.palette.get (fun k => BitVec.ofNat 32 (k * 0x010101)) (i - 0x1C00)
  else 0

/-- Write the entry of the table window at an index. -/
def tblWrite (p i : Nat) (v : Word) (b : Block) : Block :=
  let q := b.pl p
  let act := if b.bit (Reg.PL_LIN_CTL p) 4 then 256 else 0
  if 0x1400 ≤ i ∧ i < 0x1500 then
    b.setPl p { q with emis := q.emis.set (fun _ => 0x8000) (256 - act + (i - 0x1400)) v }
  else if 0x1500 ≤ i ∧ i < 0x1600 then b.inc (Reg.PL_LIN_CNT2 p) 15 0 1
  else if 0x1800 ≤ i ∧ i < 0x1C00 then
    b.setPl p { q with tone := q.tone.set (fun k => BitVec.ofNat 32 (k * 64)) (i - 0x1800) (v &&& 0xFFFF) }
  else if 0x1C00 ≤ i ∧ i < 0x1D00 then
    b.setPl p { q with palette := q.palette.set (fun k => BitVec.ofNat 32 (k * 0x010101)) (i - 0x1C00) (v &&& 0xFFFFFF) }
  else b

/-- TBL_IDX advances after an access. -/
def tblStep (p : Nat) (b : Block) : Block := b.setFld (Reg.PL_TBL_IDX p) 12 0 ((b.fld (Reg.PL_TBL_IDX p) 12 0 + 1) % 0x2000)

/-! ### Merge runs (R168 to R170) -/

/-- Replace a head's merge run. -/
def setMg (h : Nat) (r : Option MergeRun) (b : Block) : Block := b.setHd h { b.hd h with mg := r }

/-- The device time of a reference time at or after the last tick, in units of 62.5 ps. -/
def Block.devAt (b : Block) (t : Nat) : Nat := (b.instAt (t - b.now)).t16

/-- The K29.7 of a run's SET_LADDER ends at reference time `t`: F0 follows it (R168). -/
def ladderSent (h t : Nat) (b : Block) : Block :=
  match (b.hd h).mg with
  | some r => if r.f0.isNone then setMg h (some { r with after := some (b.devAt t) }) b else b
  | none => b

/-- Queue SET_LADDER (R168). A standby sends none: for its own run it is taken to be sent at once (DESIGN CHOICE, log
entry 126). -/
def sendLadder (h : Nat) (run : Bool) (times : List Nat) (b : Block) : Block :=
  let payload := BitVec.ofNat 8 times.length :: (times.map (leBytes 4)).flatten
  if b.standby then (if run then ladderSent h (b.now + cmdTime payload.length) b else b)
  else queueCmd h { opc := 0x05, org := .ladder run, payload := payload } b

/-- SET_LADDER with count 1 and TNORM (R168). -/
def sendTnorm (h p : Nat) (b : Block) : Block := sendLadder h false [b.num (Reg.PL_MG_TNORM p)] b

/-- Set PL_MG_STAT.CAUSE. -/
def mgCause (p n : Nat) (b : Block) : Block := if p < 26 then b.setFld (Reg.PL_MG_STAT p) 7 4 n else b

/-- PL_MG_CMD.START, or a bind with AUTO (R168). -/
def mgStart (p : Nat) (b : Block) : Block :=
  match b.headOf p with
  | none => mgCause p 6 b
  | some h =>
    if (b.hd h).mg.isSome then b
    else if b.tfBad h then mgCause p 3 b
    else if 2 ≤ b.calState h ∧ b.calState h ≤ 8 then mgCause p 7 b
    else
      let c := Reg.PL_MG_CTL p
      let n := b.fld c 1 0 + 1
      let r : MergeRun :=
        { since := (b.hd h).nextId, begun := false, n := n, total := n * max 1 (b.fld c 15 8), times := (List.range n).map fun k => max 1 (b.num (Reg.PL_MG_T p k)),
          minPts := 64 * max 1 (b.fld c 31 20), after := none, f0 := none, closing := false, pairs := [],
          sums := List.replicate 64 0, counts := List.replicate 64 0 }
      setMg h (some r) ((mgCause p 0 b).setFld (Reg.PL_MG_STAT p) 31 16 0)

/-- The SET_LADDER of a run that has ended starts and ends no later one. -/
def disownLadder (h : Nat) (b : Block) : Block :=
  let p := b.port h
  let own (c : HdCmd) : HdCmd := if c.org == .ladder true then { c with org := .ladder false } else c
  b.setPort h { p with queue := p.queue.map own, outs := p.outs.map fun o => { o with cmd := own o.cmd } }

/-- The run of a head ends with a cause (R168); an ABORT and an unbind send TNORM, also of a run that still waits. -/
def mgEnd (h cause : Nat) (tnorm : Bool) (b : Block) : Block :=
  match (b.hd h).mg with
  | none => b
  | some _ =>
    let p := b.curPipe h
    let b := disownLadder h (setMg h none (mgCause p cause b))
    if tnorm && p < 26 then sendTnorm h p b else b

/-- PL_MG_CMD.ABORT (R168). -/
def mgAbort (p : Nat) (b : Block) : Block :=
  match b.headOf p with
  | some h => mgEnd h 2 true b
  | none => b

/-- A run of the head waits for the grant (R168). -/
def Block.mgReady (b : Block) (h : Nat) : Bool :=
  match (b.hd h).mg with
  | some r => !r.begun
  | none => false

/-- A waiting merge run may start (R293): granted, the first in this period, of the lowest head, and after a calibration
run and a BIST that may start too. -/
def Block.mayMerge (b : Block) (h : Nat) : Bool :=
  b.cGrant && !b.bud.mergeDone && (List.range h).all (fun g => !b.mgReady g)
    && (b.bud.calDone || (List.range 24).all fun g => !b.calReady g)
    && (b.bud.bistDone || (List.range 26).all fun p => !b.bistReady p)

/-- Class C is granted to a waiting run (R168, R293). -/
def mgBegin (h : Nat) (b : Block) : Block :=
  match (b.hd h).mg with
  | some r =>
    if !r.begun && b.mayMerge h then
      let b := setMg h (some { r with begun := true }) { b with bud := { b.bud with mergeDone := true } }
      let b := b.setHd h { b.hd h with plane := none }
      sendLadder h true r.times b
    else b
  | none => b

/-- The K29.7 of a head command will end at reference time `t`: a run's SET_LADDER starts F0, a run's SHUTTER close
starts the shuttered strikes (R168, R222). -/
def noteSent (h : Nat) (c : HdCmd) (t : Nat) (b : Block) : Block :=
  match c.org with
  | .ladder true => ladderSent h t b
  | .shutter true =>
    let c := (b.hd h).cal
    if c.closed then mirrorShut h (setCal h { c with shutFrom := some (b.devAt t) } b) else b
  | _ => b

/-- A frame's place in the head's run as it opens, with the strike instant of its first line (R168): the position, q_k,
and the run after it. -/
def mgOpen (h : Nat) (num : Word) (strike : Option (BitVec 68)) (b : Block) : Option (Nat × Nat) × Block :=
  match (b.hd h).mg with
  | some r =>
    if !r.begun then (none, b)
    else
      let started := match r.after, strike with
        | some t, some s => decide (t < s.toNat)
        | _, _ => false
      let f0 : Option Word := match r.f0 with
        | some f => some f
        | none => if started then some num else none
      match f0 with
      | none => (none, b)
      | some f =>
        let k := (num - f).toNat
        let p := b.curPipe h
        let b := if r.f0.isNone && p < 26 then b.wr (Reg.PL_MG_F0 p) f else b
        let last := !r.closing && decide (r.total ≤ k + 1)
        let b := setMg h (some { r with f0 := some f, closing := r.closing || last }) b
        let b := if last then sendTnorm h p b else b
        let t (i : Nat) : Nat := r.times.getD i 1
        let q := satU 24 (roundDiv (t 0 * 2 ^ 20 : Nat) (t (k % r.n)))
        (if k < r.total then some (k, q) else none, b)
  | none => (none, b)

/-- The new residual curve, as the run's last frame has been decided and its pairs accumulated (R170). -/
def mgForm (h : Nat) (r : MergeRun) (b : Block) : Block :=
  let p := b.curPipe h
  let x := b.hd h
  let made (i : Nat) : Bool := decide (r.minPts ≤ r.counts.getD i 0)
  let n := ((List.range 64).filter made).length
  let b := if p < 26 then b.inc (Reg.PL_MG_CNT p) 15 0 (64 - n) else b
  if n < 32 then setMg h none (mgCause p 4 b)
  else
    let point (i : Nat) : List Byte :=
      if made i then
        leBytes 2 (BitVec.ofInt 16 (satS 16 (roundRat (-(r.sums.getD i 0) / ((r.counts.getD i 1 : Nat) : Rat))))).toNat
      else x.curves.getList (fun _ => 0) (resAddr x.resAct + 2 * i) 2
    let new := ((List.range 64).map point).flatten
    let b := b.setHd h { x with mg := none, resPend := true, curves := x.curves.setList (fun _ => 0) (resAddr (!x.resAct)) new }
    switchNow h (mgCause p 1 b)

/-- A frame's place in a run: none of a frame of an earlier one. -/
def MergeRun.placeOf (r : MergeRun) (f : Frame) : Option Nat := if r.since ≤ f.id then f.merge else none

/-- Form the curve where the run is complete. -/
def mgCheck (h : Nat) (b : Block) : Block :=
  let x := b.hd h
  match x.mg with
  | some r =>
    if r.closing && r.pairs.isEmpty && !x.frames.any (fun f => (r.placeOf f).isSome && !f.decided) then mgForm h r b else b
  | none => b

/-- The distance of a FRAME number from a run's first frame. -/
def MergeRun.place (r : MergeRun) (num : Word) : Option Nat := r.f0.map fun f => (num - f).toNat

/-- Drop the pairs of a run that meet a test; those whose slot a later frame takes count in LOSTPAIR (R170). -/
def dropPairs (h : Nat) (lost : Nat × Nat → Bool) (counted : Bool) (b : Block) : Block :=
  match (b.hd h).mg with
  | some r =>
    let n := (r.pairs.filter lost).length
    if n = 0 then b
    else
      let b := if counted && b.curPipe h < 26 then b.inc (Reg.PL_MG_CNT (b.curPipe h)) 31 16 n else b
      mgCheck h (setMg h (some { r with pairs := r.pairs.filter fun q => !lost q }) b)
  | none => b

/-- A frame of the run has been decided or has lapsed (R170). A decided frame is counted, and its pair with the frame
before it waits to be accumulated, or is lost where a later frame has taken the slot already; a lapsed frame's pairs are
none. -/
def mgDecided (h : Nat) (f : Frame) (b : Block) : Block :=
  let x := b.hd h
  match x.mg, x.mg.bind (·.placeOf f) with
  | some r, some k =>
    if f.st == .lapsed then mgCheck h (dropPairs h (fun q => q.1 == k || q.2 == k) false b)
    else
      let b := if b.curPipe h < 26 then b.inc (Reg.PL_MG_STAT (b.curPipe h)) 31 16 1 else b
      let before := x.frames.any fun g => r.placeOf g == some (k - 1) && g.st != .lapsed
      let late := x.frames.any fun g => decide (f.id < g.id) && decide (0 < g.rx) && (match r.place g.num with
        | some n => decide (k + 2 ≤ n)
        | none => false)
      if decide (0 < k) && before then
        let b := setMg h (some { r with pairs := r.pairs ++ [(k - 1, k)] }) b
        mgCheck h (if late then dropPairs h (fun q => q.2 == k) true b else b)
      else mgCheck h b
  | _, _ => b

/-- The first line of a frame enters stage 3: pairs whose slot it takes are dropped (R170). -/
def mgDrop (h : Nat) (f : Frame) (b : Block) : Block :=
  match (b.hd h).mg with
  | some r => match r.place f.num with
    | some k => dropPairs h (fun q => decide (q.2 + 2 ≤ k)) true b
    | none => b
  | none => b

/-- A line of a merge frame may be used (R170). -/
def mgLine (f : Frame) (y : Nat) : Bool :=
  match f.lines.find? fun l => l.y == y with
  | some l => !l.crcBad && !l.supply && !l.shuttered
  | none => false

/-- The value c of pixel (x, y) that the merge step kept for a frame (R169), Q18.6. -/
def Block.mgValue (b : Block) (h : Nat) (f : Frame) (x y : Nat) : Int :=
  let k := f.num.toNat % 3
  (BitVec.ofNat 32 (b.hbmNum (b.calAddr h (2 * k) x y) 2 + 2 ^ 16 * b.hbmNum (b.calAddr h (2 * k + 1) x y) 2)).toInt

/-- A pixel of a frame is INVALID in the frame store, or uncorrectable there (R349). -/
def Block.storeInv (b : Block) (h : Nat) (f : Frame) (x y : Nat) : Bool :=
  (b.hbmNum (storeAddr h f.num f.cols x y) 4).testBit 24 || b.hbmBad (storeAddr h f.num f.cols x y) 4

/-- Accumulate one pixel of a pair (R170). -/
def mgPixel (h : Nat) (fa fb : Frame) (ta tb : Nat) (b : Block) (x y : Nat) (r : MergeRun) : MergeRun :=
  let cc := match (b.port h).hdr with | some c => c.cols | none => 0
  let at_ := bankAddr h fb.bank + ((fb.oy + y) * cc + fb.ox + x) * 16
  let rec_ := b.hbmNum at_ 16
  if b.hbmBad at_ 16 || b.storeInv h fa x y || b.storeInv h fb x y || cField rec_ 105 104 != 0 then r
  else
    let ca := b.mgValue h fa x y
    let cb := b.mgValue h fb x y
    let e : Rat := (cb : Rat) - (ca : Rat) * (tb : Rat) / (ta : Rat)
    let par := (b.hd h).par
    let x0 := sext 24 (par.getD 2 0).toNat
    let step : Nat := max 1 ((par.getD 3 0).toNat % 2 ^ 18)
    let i : Int := (((cb - x0 : Int) : Rat) / (step : Rat) + 1 / 2).floor
    if 0 ≤ i ∧ i ≤ 63 then
      let k := i.toNat
      { r with sums := r.sums.set k (r.sums.getD k 0 + e), counts := r.counts.set k (r.counts.getD k 0 + 1) }
    else r

/-- Accumulate the oldest waiting pair, once both its frames are sealed (R170), as Class C bulk work (R293). -/
def mgAccumulate (h : Nat) (b : Block) : Block :=
  let x := b.hd h
  match x.mg with
  | some r =>
    match r.pairs with
    | (a, c) :: rest =>
      let find (k : Nat) : Option Frame := x.frames.find? fun f => r.placeOf f == some k
      let sealed (k : Nat) : Bool := match find k with
        | some f => f.st == .sealed
        | none => true
      if !b.cBulk || !sealed a || !sealed c then b
      else
        let r := { r with pairs := rest }
        let found (f : Option Frame) : Nat := match f with
          | some f => (List.range f.rows).foldl (fun n y => n + (b.spoiltStore h f y).length) 0
          | none => 0
        let b := hbmUe (found (find a) + found (find c)) b
        let r := match find a, find c with
          | some fa, some fb =>
            let ta := r.times.getD (a % r.n) 1
            let tb := r.times.getD (c % r.n) 1
            (List.range fb.rows).foldl (fun r y =>
              if mgLine fa y && mgLine fb y then (List.range fb.cols).foldl (fun r x => mgPixel h fa fb ta tb b x y r) r else r) r
          | _, _ => r
        mgCheck h (setMg h (some r) b)
    | [] => b
  | none => b

end Sys2Proof.Machine
end

