-- ==== Sys2Proof/Machine/Seal.lean ====
section
/-! DEFINITION. The seal test, restrikes and lapses as whole steps (06_forecast_and_seal.md, R117 to R122, R130 to
R132). -/

namespace Sys2Proof.Machine

/-- The temperature a restrike uses for a line: M(a) (R118). -/
def Frame.temp (f : Frame) (l : RawLine) : Nat :=
  match f.meas with
  | some g => measured f.before g l.a
  | none => l.f

/-- δ of a line (R119); 0 without a measurement. -/
def Frame.delta (f : Frame) (l : RawLine) : Nat := ((f.temp l : Int) - l.f).natAbs

/-- δ of a line by its number. -/
def Frame.deltaAt (f : Frame) (y : Nat) : Nat :=
  match f.lines.find? fun l => l.y == y with
  | some l => f.delta l
  | none => 0

/-- Commit a frame's output plane (R122, R144); a commit older than the committed frame is dropped. -/
def commitPlane (h : Nat) (f : Frame) (b : Block) : Block :=
  let x := b.hd h
  match f.planeOut with
  | some p => if x.plane.isSome && decide (f.id < x.planeId) then b else b.setHd h { x with plane := some p, planeId := f.id }
  | none => b

/-- A pipeline register of a head: its pipeline's, or the copy kept for a departed head's frame (R90). -/
def Block.frameReg (b : Block) (h : Nat) (f : Frame) (off : Nat) : Word :=
  if b.curPipe h < 26 then b.rd (0x1A0000 + b.curPipe h * 0x1000 + off)
  else match f.regsCopy with
    | some c => c.reg off
    | none => resetOf (0x1A0000 + off)

/-- What follows once a frame is sealed or has lapsed (R130, R175, R223, R341): its record, its digest, calibration
and merge runs, band integration. -/
def frameDecided (h : Nat) (f : Frame) (outcome : Nat) (abandoned : Bool) (b : Block) : Block :=
  let f := match (b.hd h).frames.find? fun g => g.id == f.id with
    | some g => { f with retracts := g.retracts }
    | none => f
  let b := setFrame h f b
  let b := issueSeal h f outcome abandoned b
  let b := digestFrame h f b
  let b := bandReady h f (mgDecided h f (calCollect h b))
  refreshRetain h (refreshForecast h (b.regPipe h) b)

/-- A frame has been sealed: PL_SEAL_FRAME (R133) and its copy for the journal (R356). -/
def noteSealed (h : Nat) (f : Frame) (b : Block) : Block :=
  let b := if b.regPipe h < 26 then b.wr (Reg.PL_SEAL_FRAME (b.regPipe h)) f.num else b
  b.setHd h { b.hd h with sealFrame := f.num }

/-- PROVISIONAL clears in the frame store (R119 step 3), where the frame's slot still holds it. -/
def clearProvisional (h : Nat) (f : Frame) (b : Block) : Block :=
  if f.slotLost then b
  else forEach f.lines (fun l b => forEach (List.range f.cols) (fun x b =>
    let a := storeAddr h f.num f.cols x l.y + 3
    hbmPut a [b.hbmByte a &&& 0xFB] b) b) b

/-- The frame of a head whose decision is due (R119): the first one not yet decided, all of its lines emitted and
through the verdict engine. -/
def Block.decisionDue (b : Block) (h : Nat) : Option Frame :=
  match (b.hd h).frames.find? fun f => f.st == .open_ || f.st == .waiting || f.st == .closed with
  | some f =>
    match f.decideAt with
    | some t =>
      if f.st == .closed && decide (t ≤ b.now) && f.emitted == f.lines.length
          && !(b.vrd.jobs.any fun j => j.ln.of h f.id) then some f else none
    | none => none
  | none => none

/-- The decision of a frame (R119). -/
def sealDecide (h : Nat) (b : Block) : Block :=
  match b.decisionDue h with
  | none => b
  | some f =>
    match f.meas with
    | none => b
    | some g =>
      let p := b.regPipe h
      let eps := sealError f g
      let direct := decide (eps.getD 0 ≤ fieldOf (b.frameReg h f 0x8C) 15 0)
      let breach := !direct && decide (f.beta < eps.getD 0)
      let b := if p < 26 then b.wrN (Reg.PL_EPS_LAST p) (eps.getD 0xFFFFFFFF) else b
      let b := if direct then b.incPl p Reg.PL_SEAL_CNT_A 31 16 1 else b.incPl p Reg.PL_SEAL_CNT_A 15 0 1
      let b := if breach && p < 26 then (b.incPl p Reg.PL_SEAL_CNT_B 31 16 1).setBit (Reg.PL_FC_STAT p) 11 else b
      let b := if f.own.isNone then b.incPl p Reg.PL_SEAL_CNT_C 15 0 1 else b
      let x := b.hd h
      let b := mirrorForecast h (recomputeBetaBy h (b.frameReg h f) (b.setHd h { x with eps := (eps.toList ++ x.eps).take 255 }))
      let f := { f with eps := eps, breach := breach, decAt := BitVec.ofNat 64 b.ns, betaAfter := (b.hd h).beta.getD f.beta }
      if direct then
        let f := { f with st := .sealed }
        let b := noteSealed h f (setFrame h f (clearProvisional h f b))
        let b := commitPlane h f (resolveSealed h f.id b)
        frameDecided h f 0 false b
      else refreshForecast h p (setFrame h { f with st := .queued } b)

/-- A queued restrike starts (R120): the stage state in force is taken. -/
def restrikeStart (h : Nat) (b : Block) : Block :=
  let x := b.hd h
  if x.restriking.isSome then b
  else match x.frames.find? fun f => f.st == .queued with
    | none => b
    | some f =>
      let stage := match f.regsCopy with
        | some c => c
        | none => b.stageNow (b.curPipe h)
      refreshForecast h (b.regPipe h) (setFrame h { f with st := .restriking, snap := some (b.takeSnap h stage) } b)

/-- Reissue every line of a restruck frame at the taps where it was emitted (R120), through the tone curve and the palette as
they stand (R171); each line with the pixels it gives the
verdict engine. What the stages count is counted in the pipeline that the head has now. -/
def reissue (h : Nat) (f : Frame) (sn : Snap) (e : Env) (b : Block) : List VJob × Block :=
  f.lines.foldl (fun (a : List VJob × Block) l =>
    match e.run sn l.y with
    | none => a
    | some row =>
      let p := a.2.regPipe h
      let live := match f.regsCopy with
        | some c => c
        | none => a.2.stageNow (a.2.curPipe h)
      let at_ : Frame := { f with regsCopy := some { sn.stage with tone := live.tone, palette := live.palette }, pipe := p, tapStep := 0,
                                  taps := (f.taps &&& 0xFFFFFF00) ||| l.out.setWidth 32 }
      let (pix, g, b) := emitRow h at_ e row true (f.temp l) (countRow p row (putState e f l.y row a.2))
      (a.1 ++ [b.lineJob h [(h, f.id)] g pix false false], b)) ([], b)

/-- The restrike of a head ends (R120, R122, R127 to R132), with the residue mismatches of its own operations (R98). -/
def restrikeEnd (h : Nat) (mismatch : List Mismatch) (b : Block) : Block :=
  match (b.hd h).restriking with
  | none => b
  | some f =>
    match f.snap with
    | none => b
    | some sn =>
      let found := b.reread h f true
      let f := found.frame
      let mm := mismatch.filter fun m => f.live m.line m.col
      let f := f.mark mm
      let b := (sramUe found.entries (hbmUe found.reads b)).incPl (b.regPipe h) Reg.PL_CNT_A 31 16 found.records
      let b := b.incPl (b.regPipe h) Reg.PL_RES_CNT 15 0 (mismatched mm)
      let e := b.envOf h f sn true f.temp
      let (jobs, b) := reissue h f sn e b
      let b := if f.band then b
        else forEach jobs (fun j b => resolveLine h f j.ln j.x0 j.pix (f.deltaAt j.ln.line.toNat) b) b
      let b := forgetFrame h f.id b
      let f := { f with st := .sealed, restruck := true }
      let b := if e.tf then commitPlane h f b else b
      frameDecided h f 1 false (noteSealed h f b)

/-- The verdict engine takes every line before and including the last that draws on a frame. -/
def drainJobs (h id : Nat) : Nat → Block → Block
  | 0, b => b
  | fuel + 1, b => if b.vrd.jobs.any fun j => j.ln.of h id then drainJobs h id fuel (verdictEval b) else b

/-- A frame whose lines have left the pipeline lapses (R121): a restrike in progress is abandoned. -/
def lapseNow (h id : Nat) (b : Block) : Block :=
  let b := drainJobs h id b.vrd.jobs.length b
  match (b.hd h).frames.find? fun f => f.id == id with
  | none => b
  | some f =>
    let p := b.regPipe h
    let b := b.incPl p Reg.PL_SEAL_CNT_B 15 0 1
    let b := if p < 26 then b.setBit (Reg.PL_FC_STAT p) 10 else b
    let abandoned := f.st == .restriking
    let f := { f with st := .lapsed, decAt := BitVec.ofNat 64 b.ns, betaAfter := (b.hd h).beta.getD ((b.hd h).betaBy (b.frameReg h f)) }
    let b := setFrame h f (resolveLapsed h f f.deltaAt b)
    frameDecided h f 2 abandoned b

/-- Earlier frames of a head that still need the frame store slot that its next line is written to lapse (R121, R396). -/
def frameSlotFreed (h : Nat) (b : Block) : Block :=
  match (b.hd h).nextLine with
  | none => b
  | some (f, _) =>
    let hit (g : Frame) : Bool := decide (g.id < f.id) && g.num.toNat % 4 == f.num.toNat % 4 && !g.decided
    forEach ((b.hd h).frames.filter hit) (fun g b => lapseNow h g.id b) b

/-- The next line of a head leaves the pipeline, into a frame store slot that no earlier frame needs. -/
def lineLeaves (h : Nat) (mismatch : List Mismatch) (ue : List LostRecord) (buffers : List PixelAt) (b : Block) : Block :=
  correctLine h mismatch ue buffers (frameSlotFreed h b)

/-- Lines of a frame still in the pipeline come out. `fuel` bounds the lines of the head. -/
def drainFrame (h id : Nat) : Nat → Block → Block
  | 0, b => b
  | fuel + 1, b =>
    if ((b.hd h).frames.any fun f => f.id == id && decide (f.emitted < f.lines.length)) then
      drainFrame h id fuel (lineLeaves h [] [] [] b)
    else b

/-- A frame lapses (R121). -/
def lapse (h id : Nat) (b : Block) : Block :=
  let lines := (b.hd h).frames.foldl (fun n f => n + f.lines.length) 0
  lapseNow h id (drainFrame h id lines b)

end Sys2Proof.Machine
end

