-- ==== Sys2Proof/Machine/Ingress.lean ====
section
/-! DEFINITION. Lines and frames at ingress: the tests of R82, opening and closing frames (R83, R396), the frame
boundary (R22), the raw replay ring (R105). -/

namespace Sys2Proof.Machine

/-! ### Opening a frame -/

/-- A frame as it opens (R83, R396), before its first line. -/
def Block.freshFrame (b : Block) (h : Nat) (num : Word) : Frame :=
  let x := b.hd h
  let w := b.fld (Reg.HD_BIND h)
  { num := num, id := x.nextId, band := b.bandMode h, lines := [], emitted := 0, st := .open_, long := false,
    short := false, noTrailer := false, fault := false, trailer := none, before := x.readings.getLast?, own := none,
    meas := none, decideAt := none, beta := 0, cold := false, bank := b.activeBank h, taps := 0, mism := 0, eps := none,
    breach := false, retracts := 0, closedAt := 0, planeIn := none, planeOut := none, step := 0, regsCopy := none,
    snap := none, merge := none, mergeQ := 0, t0 := false, tapStep := 0, slotLost := false, rawLost := false,
    restruck := false, calCand := false, calTaken := false, cols := b.colsOf h, rows := b.rowsOf h, ox := w 11 6 * 32, oy := w 21 12 * 2,
    bindNo := x.bindNo, pipe := b.curPipe h, tf := false, snapLvl := 0, items := false, lastY := none, rx := 0,
    cut := false, decAt := 0, betaAfter := 0 }

/-- Open a frame (R83). -/
def openFrame (h : Nat) (num : Word) (b : Block) : Block :=
  let x := b.hd h
  let f := b.freshFrame h num
  let b := if b.standby && b.pair.bulkDone then
      { b with pair := { b.pair with joinSeen := (h :: b.pair.joinSeen).eraseDups } }
    else b
  calSwitchTry h (trimsDue h (b.setHd h { x with frames := x.frames ++ [f], nextId := x.nextId + 1, lastNum := some num }))

/-- What a frame takes as its first line enters stages 1 to 4 (R115, R135, R144, R168, R265, R292). -/
def enterFrame (h : Nat) (f : Frame) (time : Option (BitVec 68)) (b : Block) : Frame × Block :=
  let p := f.pipe
  let (place, b) := mgOpen h f.num time b
  let step := if place.isSome then 4 else b.frameStep h f.num
  let b := if h < 24 then mirror (.frameStep (Fin.ofNat 24 h) f.num (Fin.ofNat 5 (b.frameStep h f.num))) b else b
  let b := if p < 26 then b.setFld (Reg.PL_NR_STEP p) 2 0 (b.frameStep h f.num) else b
  let x := b.hd h
  let beta := x.beta.getD (b.computeBeta h p)
  let sn := b.takeSnap h (b.stageNow p)
  let tf := !f.band && !b.calBlind h && decide (step < 2) && place.isNone && fieldOf (sn.stage.reg 0x108) 0 0 == 1
    && !badBase sn.stage f.cols f.rows
  let b := if p < 26 then b.putBit (Reg.PL_TF_STAT p) 1 tf else b
  let b := if tf && x.plane.isNone then b.incPl p Reg.PL_TF_CNT 31 16 1 else b
  let f := { f with
    before := x.readings.getLast?, beta := beta, cold := x.betaCold && decide (65536 < beta), bank := b.activeBank h
    taps := b.rd (Reg.PL_TAP_SEL p), tapStep := b.frameStep h f.num, t0 := b.cBulk, step := step
    planeIn := if tf then x.plane else none, planeOut := if tf then some x.freePlane else none, tf := tf
    merge := place.map Prod.fst, mergeQ := match place with | some q => q.2 | none => 0
    snap := some sn, snapLvl := 1, calCand := b.calState h == 5 }
  let b := if x.actFrame = 0xFFFFFFFF then syncDescriptor h (b.setHd h { x with actFrame := f.num }) else b
  (f, mgDrop h f b)

/-! ### The raw replay ring (R105) -/

/-- Base of the replay tags of a FRAME number. -/
def rawTags (h : Nat) (num : Word) : Nat := 0x90000000 + h * 0x01400000 + 0x01200000 + num.toNat % 3 * 0x00080000

/-- The 64-byte frame record of the replay tags, whose layout the manual does not give: free values. -/
def freeRecord : Nat → Block → List Byte × Block
  | 0, b => ([], b)
  | n + 1, b =>
    let (v, b) := b.draw
    let (xs, b) := freeRecord n b
    (leBytes 8 v.toNat ++ xs, b)

/-- An earlier undecided frame whose raw slot a line of frame `f` is about to take lapses (R121); the slot of every
earlier frame in it is lost. -/
def takeSlot (h : Nat) (f : Frame) (b : Block) : Block :=
  let hits (g : Frame) : Bool := decide (g.id < f.id) && g.num.toNat % 3 == f.num.toNat % 3
  let b := forEach ((b.hd h).frames.filter fun g => hits g && !g.decided) (fun g b => lapse h g.id b) b
  if (b.hd h).frames.any fun g => hits g && !g.rawLost then
    let x := b.hd h
    b.setHd h { x with frames := x.frames.map fun g => if hits g then { g with rawLost := true } else g }
  else b

/-- Write a line and its tag to the raw replay ring; the tag's TAP, FMT and following length, which have no meaning
there, are free values. -/
def putRaw (h : Nat) (f : Frame) (l : RawLine) (g : LTag) (b : Block) : Block :=
  let b := hbmPut (rawAddr h f.num + l.y * f.cols * 2) ((l.pixels.map fun p => leBytes 2 p.toNat).flatten) b
  let (v, b) := b.draw
  let w := v.toNat
  hbmPut (rawTags h f.num + 0x40 + l.y * 0x40) (g.bytes (w % 256) (w / 256 % 256) (w / 65536 % 2 ^ 32) b.ns) b

/-! ### A line -/

/-- Bring the snapshot of an open frame up to what its first line has entered (R100: stage 5 follows two rows,
stage 6 three, or the last row). -/
def advanceOpen (h : Nat) (f : Frame) (b : Block) : Frame :=
  match f.lines.head?, f.lines.getLast? with
  | some a, some z =>
    let last := f.rows - 1
    let lvl := if min (a.y + 3) last ≤ z.y || f.st != .open_ then 3 else if min (a.y + 2) last ≤ z.y then 2 else 1
    if f.snapLvl < lvl && f.snapLvl != 0 then f.advanceSnap (b.takeSnap h (b.stageNow f.pipe)) lvl else f
  | _, _ => f

/-- Duration of a line packet's data blocks, so many on each lane, at ingress with the 24 cycles of its check (R68, R74,
R100), in reference units. -/
def lineTime (periods : Nat) : Nat := (periods * 1056 * 16 + 99) / 100 + 24 * tuNs

/-- A rail is or has been below its warning level since reference time `t` (R352). -/
def Block.dipSince (b : Block) (t : Nat) : Bool :=
  b.fld Reg.SUP_STAT 7 0 != 0 || (match b.lowTo with | some u => decide (t < u) | none => false)

/-- The line is one of a run's shuttered strikes (R222): its strike's first bit followed the close command, and it was
issued before step 6 ended. -/
def Block.shutteredAt (b : Block) (h : Nat) (stamp : BitVec 21) (time : Option (BitVec 68)) : Bool :=
  let c := (b.hd h).cal
  match time, c.shutFrom with
  | some t, some s =>
    let lead := b.strikePath (b.portGroup h) (stamp.toNat / 2 ^ 19) + b.fld (Reg.STK_PORT h) 15 8
    decide (s ≤ t.toNat + lead) && (match c.shutTo with | some e => decide (t.toNat < e) | none => true)
  | none, _ => b.calBlind h
  | _, none => false

/-- Put a line of the open frame `f` into the pipeline (R82, R105, R115); an uncorrectable strike record entry makes it
LATE (R349). -/
def takeLine (h : Nat) (f : Frame) (y : Nat) (p : LinePacket) (stamp : BitVec 21) (crcBad short long : Bool) (b : Block) :
    Block :=
  let entry := (b.grp (b.portGroup h)).recs.find? fun r => r.stamp == stamp
  let spoilt := entry.isSome && b.isBad (.strike (Fin.ofNat 8 (b.portGroup h)) stamp)
  let rec_ := if spoilt then none else entry
  let b := if spoilt then activeFault 4 (sramUe 1 b) else b
  let time := rec_.map StrikeRec.time
  let b := takeSlot h f b
  let (f, b) := if f.rx = 0 then
      let (f, b) := enterFrame h f time b
      let (bytes, b) := freeRecord 8 b
      (f, hbmPut (rawTags h f.num) bytes b)
    else (f, b)
  let at_ := (b.instAt p.sub.val).t1
  let fv := b.forecastAt h f.pipe at_
  let b := if f.pipe < 26 && !f.cut then b.wrN (Reg.PL_FC_NEXT f.pipe) fv else b
  let raw := (p.pixels.take f.cols) ++ List.replicate (f.cols - p.pixels.length) 0
  let start := b.now + p.sub.val - lineTime p.periods
  let l : RawLine :=
    { y := y, pixels := raw, got := min f.cols p.pixels.length, short := short, long := long, crcBad := crcBad,
      late := rec_.isNone, supply := b.dipSince start, shuttered := b.shutteredAt h stamp time, stamp := stamp,
      pos := rec_.map StrikeRec.pos, time := time, a := BitVec.ofNat 64 at_, f := fv, bad := [], out := 0 }
  let g : LTag :=
    { head := h, frame := f.num, line := y, cols := f.cols, bank := f.bank, stamp := stamp, pos := l.pos, time := l.time,
      tfpa := fv, bound := f.beta
      stat := { short := short, long := long, crcBad := crcBad, supply := l.supply, shuttered := l.shuttered,
                late := l.late, step := f.step } }
  let fl (x : Nat) : Nat := b2n (decide (l.got ≤ x)) + extraFlags false f.step
  let b := copyTap h f 0 0 g (raw.mapIdx fun x v => (v.toNat, fl x)) b
  let b := putRaw h f l g b
  let f := { f with lastY := some y, rx := f.rx + 1 }
  if f.cut then setFrame h f (b.incPl f.pipe Reg.PL_CNT_C 15 0 1)
  else
    let f := { f with lines := f.lines ++ [l] }
    setFrame h (advanceOpen h f b) b

/-! ### Closing a frame and the boundary (R22, R83) -/

/-- The pending changes of a head's frame boundary, in the order of R22: bank and table switches, move, unbind, then the
defect edits (R154). -/
def boundary (h : Nat) (b : Block) : Block :=
  let p := b.curPipe h
  let b := if b.bit (Reg.HD_BANK h) 1 then doSwitch h b else b
  let b := boundarySwitches h p b
  let b := if p < 26 && b.bit (Reg.PL_STAT p) 12 then applyMove h p b else b
  let b := if b.bit (Reg.HD_BIND h) 30 then
      seamCheck (applyUnbind h (mgEnd h 6 true (calAbandon h (trimsFlush h b))))
    else b
  releaseEdits h b

/-- The pending changes of a head with no open frame apply at once (R22). -/
def boundaryNow (h : Nat) (b : Block) : Block := if b.frameOpen h then b else boundary h b

/-- The open frame of a head ends, with its trailer or without (R83; step 1 of R22). -/
def endFrame (h : Nat) (tr : Option TrailerPacket) (b : Block) : Block :=
  match (b.hd h).openFrame with
  | none => b
  | some f =>
    let sub := match tr with | some t => t.sub.val | none => 0
    let at_ := BitVec.ofNat 64 (b.instAt sub).t1
    let own : Option Reading := match tr with
      | some t => if t.hstat.getLsbD 0 then none else some { e := at_, t := t.tfpa, b := t.bias }
      | none => none
    let short := tr.isSome && decide (f.rx < f.rows)
    let f := { f with
      st := if own.isSome then .closed else .waiting, short := short, noTrailer := tr.isNone
      fault := match tr with | some t => t.hstat.getLsbD 0 | none => false
      trailer := tr.map fun t => (t.lines.toNat, t.tfpa.toNat, t.tshut.toNat, t.shutter.toNat % 4, t.bias.toNat, t.hstat)
      own := own, meas := own, closedAt := at_
      decideAt := if own.isSome then some (b.now + sub + (64 + f.lines.length) * tuNs) else none }
    let b := if short then b.inc (Reg.HD_CNT_C h) 31 16 1 else b
    let b := if f.long then b.inc (Reg.HD_CNT_C h) 15 0 1 else b
    let b := if tr.isNone then b.inc (Reg.HD_CNT_E h) 15 0 1 else b
    let f := advanceOpen h f b
    let b := issueFrameItems h f [0] b
    let done := f.emitted == f.lines.length
    let b := if done then issueFrameItems h f [1, 2, 3, 4, 6] b else b
    let b := setFrame h { f with items := done } b
    let b := match own with
      | some r =>
        let b := addReading h r (completeWaiting h sub r b)
        calDrift h r.t.toNat b
      | none => refreshForecast h (b.curPipe h) b
    if done then residueCheck f.pipe f.mism b else b

/-- Close the open frame of a head (R83), and pass its frame boundary (R22). -/
def closeFrame (h : Nat) (tr : Option TrailerPacket) (b : Block) : Block :=
  if b.frameOpen h then boundary h (endFrame h tr b) else b

/-! ### Packets -/

/-- Tests 1 and 2 of R82: whether the packet goes on. -/
def ingressTests (h : Nat) (head : Byte) (b : Block) : Bool × Block :=
  if head.toNat != h then (false, b.inc (Reg.HD_CNT_E h) 31 16 1)
  else if !b.bound h || !b.ready h then (false, b.inc (Reg.HD_UNBOUND h) 31 0 1)
  else (true, b)

/-- The open frame, if there is one, is LONG (R82, R83). -/
def markLong (h : Nat) (b : Block) : Block :=
  match (b.hd h).openFrame with
  | some f => setFrame h { f with long := true } b
  | none => b

/-- A line that may not be placed below the declared rows (R82, test 5a): counted, and the open frame is LONG. -/
def extraLine (h : Nat) (b : Block) : Block := markLong h (b.inc (Reg.HD_CNT_B h) 15 0 1)

/-- A line whose header cannot be trusted (R82, tests 3 and 4). One of test 4 whose assigned number is not below the declared
rows counts in FMT and EXTRA_LINE, not in CRC_LINE (DESIGN CHOICE, log entry 143). -/
def badLine (h : Nat) (p : LinePacket) (b : Block) : Block :=
  let b := match (b.hd h).openFrame with
    | some _ => b
    | none => match (b.hd h).lastNum with
      | some n => openFrame h (n + 1) b
      | none =>
        let (v, b) := b.draw
        openFrame h (v.setWidth 32) b
  match (b.hd h).openFrame with
  | none => b
  | some f =>
    let y := match f.lastY with | some y => y + 1 | none => 0
    if f.rows ≤ y then extraLine h b
    else
      let (stamp, b) := match f.lines.find? fun l => !l.crcBad with
        | some l => (l.stamp, b)
        | none => match (b.grp (b.portGroup h)).recs with
          | r :: _ => (r.stamp, b)
          | [] =>
            let (v, b) := b.draw
            (v.setWidth 21, b)
      takeLine h f y p stamp true false false b

/-- Tests 5 to 7 of R82 on a line that follows line `last` of its frame: whether it is accepted; their counters. -/
def placeTests (h : Nat) (p : LinePacket) (last : Option Nat) (b : Block) : Bool × Block :=
  let y := p.line.toNat
  if b.rowsOf h ≤ y then (false, b.inc (Reg.HD_CNT_B h) 15 0 1)
  else if (match last with | some z => decide (y ≤ z) | none => false) then (false, b.inc (Reg.HD_CNT_D h) 15 0 1)
  else
    let b := if p.cols.toNat < b.colsOf h then b.inc (Reg.HD_CNT_A h) 31 16 1 else b
    let b := if b.colsOf h < p.cols.toNat then b.inc (Reg.HD_CNT_A h) 15 0 1 else b
    let known := (b.grp (b.portGroup h)).recs.any fun r => r.stamp == p.stamp
    (true, if known then b else b.inc (Reg.HD_CNT_F h) 15 0 1)

/-- A tested line goes to the open frame: taken where it was accepted; beyond the declared rows it marks the frame LONG. -/
def placeLine (h : Nat) (p : LinePacket) (accepted : Bool) (b : Block) : Block :=
  if !accepted then (if b.rowsOf h ≤ p.line.toNat then markLong h b else b)
  else match (b.hd h).openFrame with
    | none => b
    | some f => takeLine h f p.line.toNat p p.stamp false (decide (p.cols.toNat < f.cols)) (decide (f.cols < p.cols.toNat)) b

/-- A line packet that has passed tests 1 to 4 (R82). A line of another FRAME closes the open frame and opens a new one; the
frame boundary is passed once the line has been tested (R84), and where it unbinds the head the line goes no further (DESIGN
CHOICE, log entry 40). -/
def goodLine (h : Nat) (p : LinePacket) (b : Block) : Block :=
  match (b.hd h).openFrame with
  | some f =>
    if f.num = p.frame then
      let (ok, b) := placeTests h p f.lastY b
      placeLine h p ok b
    else
      let (ok, b) := placeTests h p none (endFrame h none b)
      let b := boundary h b
      if b.bound h then placeLine h p ok (openFrame h p.frame b) else b
  | none =>
    let (ok, b) := placeTests h p none b
    if ok then placeLine h p true (openFrame h p.frame b) else b

/-- A packet has come from the head (R83, TR_TMO). -/
def notePacket (h : Nat) (b : Block) : Block := b.setPort h { b.port h with lastPkt := b.now }

/-- The format a port declares (R85). -/
def Block.lineFmt (b : Block) (h : Nat) : LineFmt :=
  { cols := b.colsOf h, depth := b.fld (Reg.HD_FMT h) 20 16, pack := b.bit (Reg.HD_FMT h) 21, band := b.bandMode h }

/-- A line packet (R82). -/
def lineIn (h : Nat) (p : LinePacket) (b : Block) : Block :=
  let (on, b) := ingressTests h p.head b
  if !on then b
  else if !p.crcOk then badLine h p (b.inc (Reg.HD_CNT_B h) 31 16 1)
  else if !p.fits (b.lineFmt h) then badLine h p (b.inc (Reg.HD_CNT_D h) 31 16 1)
  else goodLine h p b

/-- A trailer packet (R83). HD_TR takes the last good trailer that closes its frame, not one that is discarded (DESIGN CHOICE,
log entry 144). -/
def trailerIn (h : Nat) (p : TrailerPacket) (b : Block) : Block :=
  let (on, b) := ingressTests h p.head b
  if !on then b
  else if !p.crcOk then b.inc (Reg.HD_CNT_F h) 31 16 1
  else match (b.hd h).openFrame with
    | none => b.inc (Reg.HD_CNT_D h) 15 0 1
    | some f =>
      if f.num != p.frame then closeFrame h none (b.inc (Reg.HD_CNT_D h) 15 0 1)
      else
        let b := (b.wr (Reg.HD_TR_FRAME h) p.frame).wr (Reg.HD_TR_TFPA h) p.tfpa
        let b := (b.wr (Reg.HD_TR_TSHUT h) p.tshut).wrN (Reg.HD_TR_INFO h) (p.bias.toNat * 65536 + p.shutter.toNat % 4)
        closeFrame h (some p) (b.wr (Reg.HD_TR_HSTAT h) p.hstat)

/-- TR_TMO with no packet from the head closes its open frame (R83); 0 acts as 1. -/
def trailerTimeout (h : Nat) (b : Block) : Block :=
  if b.frameOpen h && decide ((b.port h).lastPkt + max 1 (b.fld (Reg.HD_LINK_CTL h) 31 24) * tuMs ≤ b.now) then closeFrame h none b
  else b

/-- PL_CMD.PRESET (R112): lines in flight in the pipeline are discarded; it resumes with the head's next frame; a calibration
run of its head is abandoned (R229). -/
def preset (p : Nat) (b : Block) : Block :=
  let b := match b.headOf p with
    | some h => calAbandon h b
    | none => b
  forEach (List.range 24) (fun h b =>
    let x := b.hd h
    let mine (f : Frame) : Bool := f.pipe == p && (f.st == .open_ || decide (f.emitted < f.lines.length))
    let hit := x.frames.filter mine
    if hit.isEmpty then b
    else
      let n := hit.foldl (fun n f => n + (f.lines.length - f.emitted)) 0
      let stop (f : Frame) : Frame := { f with lines := f.lines.take f.emitted, cut := f.st == .open_, items := f.st != .open_ }
      let b := b.setHd h { x with frames := x.frames.map fun f => if mine f then stop f else f }
      let b := forEach (hit.filter fun f => f.st != .open_ && !f.items) (fun f b => issueFrameItems h (stop f) [1, 2, 3, 4, 6] b) b
      let b := forEach (hit.filter fun f => f.st != .open_ && !f.items) (fun f b => residueCheck f.pipe f.mism b) b
      boundaryNow h (refreshDrain p (b.incPl p Reg.PL_CNT_C 15 0 n))) b

/-- The next line of a head leaves the pipeline; a BIST request of its frame's residue comparison moves a head without an open
frame at once (R22, R99, R107). -/
def leavePipe (h : Nat) (mismatch : List Mismatch) (ue : List LostRecord) (buffers : List PixelAt) (b : Block) : Block :=
  boundaryNow h (lineLeaves h mismatch ue buffers b)

end Sys2Proof.Machine
end

