-- ==== Sys2Proof/Machine/Seq.lean ====
section
/-! DEFINITION. The sequencer's threads: states, registers, waits and faults (12_troek_sequencer.md). -/

namespace Sys2Proof.Machine

/-- A thread's hidden state. -/
def Block.thr (b : Block) (t : Nat) : SeqThr := b.seq.thr.get (fun _ => {}) t

/-- Replace a thread's hidden state. -/
def Block.setThr (b : Block) (t : Nat) (x : SeqThr) : Block :=
  { b with seq := { b.seq with thr := b.seq.thr.set (fun _ => {}) t x } }

/-- A register of a thread; g0 reads 0 (R237). -/
def Block.greg (b : Block) (t r : Nat) : BitVec 64 := if r = 0 then 0 else (b.thr t).g.get (fun _ => 0) r

/-- Write a register of a thread; a write to g0 is discarded (R237). -/
def setG (t r : Nat) (v : BitVec 64) (b : Block) : Block :=
  if r = 0 then b else b.setThr t { b.thr t with g := (b.thr t).g.set (fun _ => 0) r v }

/-- SEQ_T_STAT.STATE: 0 halted, 1 running, 2 waiting, 3 faulted (R238). -/
def Block.tState (b : Block) (t : Nat) : Nat := b.fld (Reg.SEQ_T_STAT t) 3 0

/-- The program counter (R237). -/
def Block.tPc (b : Block) (t : Nat) : Nat := b.fld (Reg.SEQ_T_STAT t) 29 16

/-- Set the program counter, modulo its 14 bits (R239). -/
def setPc (t pc : Nat) (b : Block) : Block := b.setFld (Reg.SEQ_T_STAT t) 29 16 (pc % 2 ^ 14)

/-- Set STATE and WAITKIND; SEQ_STAT.RUN follows (R258). -/
def setTState (t st kind : Nat) (b : Block) : Block :=
  let on := st == 1 || st == 2
  let b := if on == (b.tState t == 1 || b.tState t == 2) then b else mirror (.thread (Fin.ofNat 4 t) on) b
  let b := (b.setFld (Reg.SEQ_T_STAT t) 3 0 st).setFld (Reg.SEQ_T_STAT t) 6 4 kind
  b.putBit Reg.SEQ_STAT (4 + t) on

/-- The sequencer may run: EN is 1, its clock runs, the device is not in shutdown, and it is no standby of a pair
(R238, R296, R339). -/
def Block.seqOn (b : Block) : Bool :=
  b.bit Reg.SEQ_CTL 0 && decide (5 ≤ b.stage_) && !b.bud.down && !b.standby

/-- The instruction word at a thread's PC: as it stood before a write in this cycle (R239). -/
def Block.fetch (b : Block) (t : Nat) : Word :=
  (b.seq.imemOld.get (fun _ => none) (b.tPc t)).getD (b.seq.imem.get (fun _ => 0) (b.tPc t))

/-- The word at a thread's PC is uncorrectable (R349). -/
def Block.fetchBad (b : Block) (t : Nat) : Bool := b.isBad (.imem (BitVec.ofNat 14 (b.tPc t)))

/-- The instruction at a thread's PC: none where its word is no instruction, or uncorrectable. -/
def Block.instrAt (b : Block) (t : Thr) : Option Instr := if b.fetchBad t then none else decodeTroek t (b.fetch t)

/-- SEQ_CTL.LTMO in reference units (R258). -/
def Block.ltmo (b : Block) : Nat := max 1 (b.fld Reg.SEQ_CTL 15 8) * tuMs

/-- A thread halts: STATE 0, nothing in progress. -/
def haltThread (t : Nat) (b : Block) : Block :=
  setTState t 0 0 (b.setThr t { b.thr t with wait := none, stall := none, late := none, halting := false, stepping := false })

/-- An instruction that acts in its last cycle: STC, ARM, CANA (R244, R248). -/
def actsLate : Instr → Bool
  | .stc .. | .arm .. | .cana .. => true
  | _ => false

/-- An instruction of the thread is to issue now (R237): it runs, no earlier instruction is in progress, it is not
about to halt. -/
def Block.canIssue (b : Block) (t : Thr) : Bool :=
  b.seqOn && b.tState t == 1 && (b.thr t).stall.isNone && (b.thr t).late.isNone && !(b.thr t).halting
    && decide ((b.thr t).ready ≤ b.now)

/-- `i` is the instruction the thread issues now. -/
def Block.issues (b : Block) (t : Thr) (i : Instr) : Bool := b.canIssue t && b.instrAt t == some i

/-- `i` is the instruction the thread has issued and that acts now, in its last of 4 cycles (R243, R244): also where EN
has been cleared since (R238). -/
def Block.issuesLate (b : Block) (t : Thr) (i : Instr) : Bool :=
  decide (5 ≤ b.stage_) && !b.bud.down && b.tState t == 1 && (b.thr t).stall.isNone && (b.thr t).late == some i
    && decide ((b.thr t).ready + 96 ≤ b.now)

/-- The cycle ends in which the thread has issued an instruction that acts late: it goes on as it was fetched (R239). -/
def issueEnds (t : Thr) (b : Block) : Block :=
  if b.canIssue t then
    match b.instrAt t with
    | some i => if actsLate i then b.setThr t { b.thr t with late := some i } else b
    | none => b
  else b

/-- The next instruction is at `pc` and issues `cycles` from now (R251); a thread under STEP halts then. -/
def nextAt (t pc cycles : Nat) (b : Block) : Block :=
  let x := b.thr t
  setPc t pc (b.setThr t
    { x with ready := b.now + cycles * 32, late := none, halting := x.halting || x.stepping, stepping := false })

/-- The instruction ends `cycles` from now, and the next one follows it. -/
def advance (t cycles : Nat) (b : Block) : Block := nextAt t (b.tPc t + 1) cycles b

/-- An LWR of the thread still waits in the queue: its request is withdrawn. -/
def dropUser (t : Nat) (b : Block) : Block :=
  { b with ldg := { b.ldg with
      queue := b.ldg.queue.filter fun q => match q with
        | .user u _ _ => u.val != t
        | _ => true
      held := b.ldg.held.filter fun h => match h with
        | .thread u => u.val != t
        | _ => true } }

/-- The thread faults (R254, R255): the instruction has no effect, PC stays on it, and the fault is reported. -/
def faultThread (t : Nat) (cause : Nat) (faddr : Word) (b : Block) : Block :=
  let pc := b.tPc t
  let b := setTState t 3 0 (haltThread t (dropUser t b))
  let b := (b.setFld (Reg.SEQ_T_STAT t) 11 8 cause).wrN (Reg.SEQ_T_FPC t) pc
  raiseBit 7 ((b.wr (Reg.SEQ_T_FADDR t) faddr).setBit Reg.SEQ_STAT t)

/-- STOP (R238): a waiting thread halts at once, a running one after the instruction in progress. -/
def stopThread (t : Thr) (b : Block) : Block :=
  let x := b.thr t
  if b.tState t = 2 then haltThread t b
  else if b.tState t != 1 then b
  else if x.stall.isSome then b.setThr t { x with stepping := true }
  else if b.now < x.ready then b.setThr t { x with halting := true }
  else if x.late.isSome then b.setThr t { x with stepping := true }
  else haltThread t b

/-- A thread that STOP or STEP halts does so once its instruction has ended. -/
def settleHalt (t : Nat) (b : Block) : Block :=
  let x := b.thr t
  if b.tState t == 1 && x.halting && x.stall.isNone && decide (x.ready ≤ b.now) then haltThread t b else b

/-- A halted or faulted thread runs from its PC at the next tick. -/
def runThread (t : Nat) (step : Bool) (b : Block) : Block :=
  setTState t 1 0 (b.setThr t
    { b.thr t with ready := b.now + 32, wait := none, stall := none, late := none, halting := false, stepping := step })

/-- START (R238). -/
def startThread (t : Thr) (b : Block) : Block :=
  if b.seqOn && (b.tState t == 0 || b.tState t == 3) then
    runThread t false (setPc t (b.fld (Reg.SEQ_T_ENTRY t) 13 0) b)
  else b

/-- RESUME (R238). -/
def resumeThread (t : Thr) (b : Block) : Block :=
  if b.seqOn && b.tState t == 0 then runThread t false b else b

/-- STEP (R238): one instruction, with the thread then halted again. -/
def stepThread (t : Thr) (b : Block) : Block :=
  if b.seqOn && b.tState t == 0 then runThread t true b else b

/-- TRESET (R238). -/
def tresetThread (t : Thr) (b : Block) : Block :=
  let b := haltThread t (dropUser t b)
  let b := (b.setThr t {}).setFld (Reg.SEQ_T_WAKE t) 7 0 0
  setPc t (b.fld (Reg.SEQ_T_ENTRY t) 13 0) b

/-- SEQ_T_CTL (R238): its pulsed bits, TRESET last. -/
def threadCtl (t : Thr) (val : Word) (b : Block) : Block :=
  let b := if bitOf val 0 then startThread t b else b
  let b := if bitOf val 1 then stopThread t b else b
  let b := if bitOf val 2 then stepThread t b else b
  let b := if bitOf val 3 then resumeThread t b else b
  if bitOf val 4 then tresetThread t b else b

/-- Every thread stops (R238: EN cleared). -/
def stopAll (b : Block) : Block :=
  forEach (List.range 4) (fun t b => stopThread (Fin.ofNat 4 t) b) b

/-! ### Data memory (R240) -/

/-- `n` bytes of data memory as they stand. -/
def Block.dmemBytes (b : Block) (a n : Nat) : List Byte := b.seq.dmem.getList (fun _ => 0) a n

/-- A byte of data memory as a read gives it: as it stood before a write in this cycle. -/
def Block.dmemRead (b : Block) (a : Nat) : Byte :=
  match b.seq.dmemOld.get (fun _ => none) a with
  | some x => x.1
  | none => b.seq.dmem.get (fun _ => 0) a

/-- `n` bytes of data memory as a read gives them. -/
def Block.dmemReads (b : Block) (a n : Nat) : List Byte := (List.range n).map fun i => b.dmemRead (a + i)

/-- `n` bytes of data memory as a number, as a read gives it. -/
def Block.dmemNum (b : Block) (a n : Nat) : Nat := ofLe (b.dmemReads a n)

/-- Write a byte of data memory for the access of place `k`; a later one in the order has prevailed already. -/
def dmemPutByte (k a : Nat) (x : Byte) (m : Seq) : Seq :=
  match m.dmemOld.get (fun _ => none) a with
  | some (old, j) =>
    if k < j then m
    else { m with dmem := m.dmem.set (fun _ => 0) a x, dmemOld := m.dmemOld.set (fun _ => none) a (some (old, k)) }
  | none =>
    { m with dmem := m.dmem.set (fun _ => 0) a x,
             dmemOld := m.dmemOld.set (fun _ => none) a (some (m.dmem.get (fun _ => 0) a, k)) }

/-- Write bytes of data memory for a requester. -/
def dmemPut (r : Requester) (a : Nat) (bytes : List Byte) (b : Block) : Block :=
  let m := (List.range bytes.length).foldl (fun m i => dmemPutByte (orderOf r) (a + i) (bytes.getD i 0) m) b.seq
  mendDmem a bytes.length { b with seq := m }

/-! ### Waits (R245 to R247) -/

/-- A wait's deadline register names a time that has come. -/
def Block.waitOver (b : Block) (t : Thr) (rb : GReg) : Bool :=
  rb.val != 0 && decide ((b.greg t rb).toNat ≤ b.ns)

/-- What a wait answers where its condition or its deadline holds, and the wake bits it consumes. -/
def Block.waitMet (b : Block) : Instr → Option (BitVec 64 × Nat)
  | .waitt t _ ra =>
    if (b.greg t ra).toNat ≤ b.ns then some (b.tim.ns - b.greg t ra, 0) else none
  | .waitp t _ ra rb s =>
    if 0 ≤ posDiff (b.hwmNow s) ((b.greg t ra).setWidth 48) then some (0, 0)
    else if b.waitOver t rb then some (1, 0) else none
  | .waite t _ rb s m =>
    let level := b.fld Reg.ACT_EI_STAT 7 0
    let hit := if s = 1 then m &&& BitVec.ofNat 8 level else if s = 2 then m &&& ~~~ BitVec.ofNat 8 level
      else m &&& BitVec.ofNat 8 (b.fld (Reg.SEQ_T_WAKE t) 7 0)
    if hit != 0 then some (hit.setWidth 64, if s = 1 || s = 2 then 0 else hit.toNat)
    else if b.waitOver t rb then some (0x100, 0) else none
  | _ => none

/-- The result register and WAITKIND of a wait. -/
def waitDest : Instr → GReg × Nat
  | .waitt _ rd _ => (rd, 1)
  | .waitp _ rd _ _ _ => (rd, 2)
  | .waite _ rd _ _ _ => (rd, 3)
  | _ => (0, 0)

/-- A wait ends with its answer (R245): the next instruction issues in the second cycle. -/
def endWait (t : Thr) (i : Instr) (r : BitVec 64 × Nat) (b : Block) : Block :=
  let b := b.wr (Reg.SEQ_T_WAKE t) (b.rd (Reg.SEQ_T_WAKE t) &&& ~~~ BitVec.ofNat 32 r.2)
  advance t 2 (setG t (waitDest i).1 r.1 b)

/-- A wait on a position: it is tested once in each tick, as the tick ends (R35, R245). -/
def onPosition : Instr → Bool
  | .waitp .. => true
  | _ => false

/-- The thread enters a wait (R238). -/
def enterWait (t : Thr) (i : Instr) (b : Block) : Block :=
  setTState t 2 (waitDest i).2 (b.setThr t { b.thr t with wait := some i })

/-- A wait issues (R245, R238): it ends at once, or the thread waits; under STEP the thread halts on it. A wait on a position
waits for the test of its tick (R35). -/
def issueWait (t : Thr) (i : Instr) (b : Block) : Block :=
  if onPosition i then enterWait t i b
  else match b.waitMet i with
    | some r => endWait t i r b
    | none => if (b.thr t).stepping then haltThread t b else enterWait t i b

/-- A waiting thread resumes where its wait has ended (R245). -/
def resumeFrom (t : Thr) (i : Instr) (r : BitVec 64 × Nat) (b : Block) : Block :=
  endWait t i r (setTState t 1 0 (b.setThr t { b.thr t with wait := none }))

/-- WAIT_RESUME (R245): a waiting thread resumes where its condition or deadline holds. Waits on a position resume with the
test that ends the tick (R35). -/
def resumeWait (t : Thr) (b : Block) : Block :=
  match (b.thr t).wait with
  | some i =>
    if b.seqOn && b.tState t == 2 && !onPosition i then
      match b.waitMet i with
      | some r => resumeFrom t i r b
      | none => b
    else b
  | none => b

/-- The test of a thread that waits on a position, as a tick ends (R35, R245, R246): it resumes, or waits on; under STEP it
halts on the wait (R238). -/
def waitClose (t : Thr) (b : Block) : Block :=
  match (b.thr t).wait with
  | some i =>
    if b.seqOn && b.tState t == 2 && onPosition i then
      match b.waitMet i with
      | some r => resumeFrom t i r b
      | none => if (b.thr t).stepping then haltThread t b else b
    else b
  | none => b

/-! ### Stalls (R244, R250, R253) -/

/-- The thread stalls inside its instruction; WAITKIND 4 for a ledger hold or the start of an LWR. -/
def stallThread (t : Thr) (s : Stall) (b : Block) : Block :=
  setTState t 1 (match s with | .temp _ => 0 | _ => 4)
    (b.setThr t { b.thr t with stall := some s, late := none, ready := b.now + 32 })

/-- The stall of an instruction ends, its result written; the next one issues `cycles` from now (R251), and not in the cycle
of the stalled one. -/
def endStall (t : Thr) (rd : GReg) (v : BitVec 64) (cycles : Nat) (b : Block) : Block :=
  let b := setTState t 1 0 (b.setThr t { b.thr t with stall := none })
  let issued := (b.thr t).ready
  let b := advance t cycles (setG t rd v b)
  b.setThr t { b.thr t with ready := max issued (b.thr t).ready }

/-- A stall has passed LTMO (R254): cause 4. -/
def stallExpired (t : Thr) (addr : Word) (b : Block) : Block :=
  match (b.thr t).stall with
  | some (.hold _ d) => if d < b.now then faultThread t 4 addr b else b
  | some (.lwr _ (some d)) => if d < b.now then faultThread t 4 0 b else b
  | _ => b

end Sys2Proof.Machine
end

