-- ==== Sys2Proof/Machine/Time.lean ====
section
/-! DEFINITION. The time unit (02_position_and_time.md, R41 to R48). -/

namespace Sys2Proof.Machine

/-- Replace the time unit. -/
def setTim (t : Tim) (b : Block) : Block := { b with tim := t }

/-- An increment as it takes effect, and whether it was clamped (R42). -/
def clampInc (v : Nat) : Nat × Bool :=
  if v < 0x01F0000000 then (0x01F0000000, true)
  else if 0x0210000000 < v then (0x0210000000, true)
  else (v, false)

/-- A write to TIM_INC_NS takes effect at the next tick (R42). -/
def incWrite (val : Word) (b : Block) : Block :=
  let b := b.genWrite Reg.TIM_INC_NS val
  setTim { b.tim with incWritten := true } b

/-- The increment written since the last tick comes into force (R42). -/
def takeInc (b : Block) : Block :=
  if !b.tim.incWritten then b
  else
    let (v, clamped) := clampInc (b.fld Reg.TIM_INC_NS 7 0 * 2 ^ 32 + b.num Reg.TIM_INC_FR)
    let b := (b.wrN Reg.TIM_INC_NS (v / 2 ^ 32)).wrN Reg.TIM_INC_FR (v % 2 ^ 32)
    let b := if clamped then b.setBit Reg.TIM_STAT 4 else b
    setTim { b.tim with inc := BitVec.ofNat 40 v, incWritten := false } b

/-- The counter after a tick with increment `inc`, and every SET or STEP pulsed since the last (R41, R43). -/
def Tim.advance (t : Tim) : Tim :=
  match t.set with
  | some v => { t with ns := v, fr := 0, set := none, steps := [] }
  | none =>
    let c : Int := (t.count + t.inc.toNat : Nat) + (t.steps.foldl (fun (s : Int) w => s + w.toInt) 0) * (2 ^ 32 : Nat)
    let c := (c % (2 ^ 96 : Nat)).toNat
    { t with ns := BitVec.ofNat 64 (c / 2 ^ 32), fr := BitVec.ofNat 32 c, set := none, steps := [] }

/-- TIM_CMD.STEP (R43). -/
def timStep (b : Block) : Block := setTim { b.tim with steps := b.tim.steps ++ [b.rd Reg.TIM_STEP] } b

/-- TIM_CMD.SET (R43). -/
def timSet (b : Block) : Block := setTim { b.tim with set := some (b.rd64 Reg.TIM_SET_LO) } b

/-! ### PPS (R44) -/

/-- An edge of PPS_IN (R44). -/
def ppsEdge (rising : Bool) (sub : Nat) (b : Block) : Block :=
  if b.bit Reg.TIM_CTL 0 && (rising != b.bit Reg.TIM_CTL 1) then
    let i := b.instAt sub
    let t := i.t16
    let b := (b.wr64 Reg.TIM_PPS_LO (BitVec.ofNat 64 (t / 16))).wrN Reg.TIM_PPS_FR (t % 16 * 2 ^ 28)
    setTim { b.tim with ppsLast := some i.ref } (b.setBit Reg.TIM_STAT 0)
  else b

/-- A gap of more than 1.1 s after an edge is counted once (R44). It is measured on the reference clock, not on device time
(DESIGN CHOICE, log entry 134). -/
def ppsMiss (b : Block) : Block :=
  match b.tim.ppsLast with
  | some t =>
    if b.bit Reg.TIM_CTL 0 && decide (t + 1100 * tuMs < b.now) then
      setTim { b.tim with ppsLast := none } (b.inc Reg.TIM_CNT 31 24 1)
    else b
  | none => b

/-! ### TIME_OUT (R45) -/

/-- TOUT_MODE lets the train through: 1 or 2 (R45). -/
def Block.toutOn (b : Block) : Bool := b.fld Reg.TIM_CTL 3 2 == 1 || b.fld Reg.TIM_CTL 3 2 == 2

/-- The TIME_OUT ball (R45): high while a pulse is in progress, held low with TOUT_MODE 0 or 3, inverted by TOUT_INV; in high
impedance until POWER_OK (R363). -/
def Block.toutBall (b : Block) : Option Bool :=
  if b.stage_ = 0 then none else some ((b.tim.pulseEnd.isSome && b.toutOn) != b.bit Reg.TIM_CTL 4)

/-- Emit a change of the TIME_OUT ball since `old`, at device time `t` in ns. -/
def toutSince (old : Block) (t : Nat) (b : Block) : Block :=
  if b.toutBall = old.toutBall then b else b.emit (.timeOut b.toutBall t)

/-- The first edge of a train that does not lie before device time `ns`, with that edge as its next; none where it has
no such edge. -/
def Train.skipTo (x : Train) (ns : Nat) : Option Train :=
  let k := if ns ≤ x.start then 0 else (ns - x.start + x.period - 1) / x.period
  let x := { x with k := max x.k k }
  match x.count with
  | some n => if x.k < n then some x else none
  | none => some x

/-- TIM_CMD.TOUT_ARM (R45). -/
def toutArm (b : Block) : Block :=
  let mode := b.fld Reg.TIM_CTL 3 2
  if mode = 0 ∨ mode = 3 then b
  else
    let period := max 4 (b.num Reg.TIM_TOUT_PERIOD)
    let w := b.num Reg.TIM_TOUT_WIDTH
    let width := if w = 0 then 2 else if period ≤ w then period - 2 else w
    let n := b.num Reg.TIM_TOUT_COUNT
    let x : Train := { start := (b.rd64 Reg.TIM_TOUT_START_LO).toNat, period := period, width := width,
                       count := if mode = 1 then some 1 else if n = 0 then none else some n, k := 0 }
    let x' := x.skipTo b.ns
    let b := if mode = 1 && x'.isNone then b.setBit Reg.TIM_STAT 7 else b
    setTim { b.tim with train := x' } b

/-- TIM_CMD.TOUT_STOP (R45): the pulse in progress ends by itself. -/
def toutStop (b : Block) : Block := setTim { b.tim with train := none } b

/-- A scheduled rising edge (R45): a pulse begins; the ball shows it in TOUT_MODE 1 and 2. -/
def toutEdge (b : Block) : Block :=
  match b.tim.train with
  | some x =>
    let t := x.start + x.k * x.period
    if t ≤ b.ns then
      let y := { x with k := x.k + 1 }
      let left := match x.count with
        | some n => if y.k < n then some y else none
        | none => some y
      toutSince b t (setTim { b.tim with train := left, pulseEnd := some (t + x.width) } b)
    else b
  | none => b

/-- A TIME_OUT pulse ends (R45). Its end is kept as a device time, so that a STEP or SET in the pulse shortens or lengthens
it (DESIGN CHOICE, log entry 106). -/
def toutPulseEnd (b : Block) : Block :=
  match b.tim.pulseEnd with
  | some t => if t ≤ b.ns then toutSince b t (setTim { b.tim with pulseEnd := none } b) else b
  | none => b

/-! ### The route filter (R48) -/

/-- A measurement enters the route filter with its threshold and hold; whether it is a route change. Only the measurement that
begins a hold, or that is adopted at once, is one: those taken during a hold set no flag and count nothing, whether they
restart it or not (DESIGN CHOICE, log entry 136). -/
def Route.take (r : Route) (d step : Int) (hold now : Nat) : Route × Bool :=
  let far (a : Int) : Bool := decide (step < ((d - a).natAbs : Int))
  match r.dest with
  | none => ({ dest := some d, latest := d, holdEnd := none }, false)
  | some dest =>
    match r.holdEnd with
    | some t => ({ r with latest := d, holdEnd := some (if far r.latest then now + hold else t) }, false)
    | none =>
      if !far dest then ({ r with dest := some (dest + roundDiv (d - dest) 8), latest := d }, false)
      else if hold = 0 then ({ r with dest := some d, latest := d }, true)
      else ({ r with latest := d, holdEnd := some (now + hold) }, true)

/-- The end of a hold (R48). -/
def Route.release (r : Route) (now : Nat) : Option Route :=
  match r.holdEnd with
  | some t => if t ≤ now then some { dest := some r.latest, latest := r.latest, holdEnd := none } else none
  | none => none

/-- ROUTE_STEP and ROUTE_HOLD as they act (R48). -/
def Block.routeStep (b : Block) : Int := max 1 (b.num Reg.TIM_ROUTE_STEP)
def Block.routeHold (b : Block) : Nat := b.num Reg.TIM_ROUTE_HOLD * tuMs

/-! ### PTM (R46, R47) -/

/-- Start an exchange (R46): a PTM Request leaves while PTM Enable is 1 and none is outstanding. -/
def ptmStart (b : Block) : Block :=
  if b.host.ptmEn && b.host.dlUp && b.tim.ptmOut.isNone then
    setTim { b.tim with ptmOut := some (b.now, b.tim.ns) } (b.emit .ptmRequest)
  else b

/-- The automatic interval (R46). -/
def ptmAuto (b : Block) : Block :=
  if b.bit Reg.TIM_CTL 5 && decide (b.tim.ptmAuto + max 1 (b.fld Reg.TIM_CTL 15 8) * tuMs ≤ b.now) then
    ptmStart (setTim { b.tim with ptmAuto := b.now } b)
  else b

/-- The result of an exchange (R47), from its t1 and t4 and the responder's t2 and turnaround. -/
def ptmResult (t1 t4 : BitVec 64) (p : PtmData) (b : Block) : Block :=
  let d : Int := (t4 - t1).toInt - p.turn.toNat
  let (r, changed) := b.tim.route.take d b.routeStep b.routeHold b.now
  let b := setTim { b.tim with route := r } b
  let b := if changed then (b.setBit Reg.TIM_STAT 2).inc Reg.TIM_CNT 23 16 1 else b
  let dest := r.dest.getD d
  let loc := t1 + BitVec.ofInt 64 (roundDiv dest 2 + b.snum Reg.TIM_ASYM)
  let b := (b.wrS Reg.TIM_PTM_RTT d).wrS Reg.TIM_PTM_DEST dest
  ((b.wr64 Reg.TIM_PTM_LOC_LO loc).wr64 Reg.TIM_PTM_MST_LO p.t2).setBit Reg.TIM_STAT 1

/-- A PTM response (R46, R47): with data it is paired with the exchange before it; without, a second request is sent at
once. -/
def ptmResponse (data : Option PtmData) (sub : Nat) (b : Block) : Block :=
  match b.tim.ptmOut with
  | none => b
  | some (_, t1) =>
    let t4 := BitVec.ofNat 64 (b.instAt sub).t1
    let prev := b.tim.ptmPrev
    let b := setTim { b.tim with ptmOut := none, ptmPrev := some (t1, t4) } b
    match data with
    | none => ptmStart (b.inc Reg.TIM_CNT 15 8 1)
    | some p =>
      match prev with
      | some (p1, p4) => ptmResult p1 p4 p b
      | none => b

/-- An exchange without a response within 100 µs (R46): it is abandoned, and t1 and t4 of the exchange before it are kept for
the next response (DESIGN CHOICE, log entry 107). -/
def ptmTimeout (b : Block) : Block :=
  match b.tim.ptmOut with
  | some (r, _) =>
    if r + 100 * tuUs ≤ b.now then setTim { b.tim with ptmOut := none } (b.inc Reg.TIM_CNT 7 0 1) else b
  | none => b

/-- The end of a route hold of the time unit, or of the pair link (R48). -/
def routeHoldEnd (b : Block) : Block :=
  let b := match b.tim.route.release b.now with
    | some r => setTim { b.tim with route := r } (b.wrS Reg.TIM_PTM_DEST r.latest)
    | none => b
  match b.pair.route.release b.now with
  | some r => { b.wrS Reg.PAIR_DEST r.latest with pair := { b.pair with route := r } }
  | none => b

/-- A write of TIM_CTL: the automatic interval begins as PTM_AUTO is set; PPS gaps are measured from a new first edge as
PPS_EN is cleared; TIME_OUT follows TOUT_MODE and TOUT_INV at once (R45). -/
def writeTimCtl (val : Word) (b : Block) : Block :=
  let auto := b.bit Reg.TIM_CTL 5
  let b := toutSince b b.ns (b.genWrite Reg.TIM_CTL val)
  let b := if !auto && b.bit Reg.TIM_CTL 5 then setTim { b.tim with ptmAuto := b.now } b else b
  if b.bit Reg.TIM_CTL 0 then b else setTim { b.tim with ppsLast := none } b

/-- TIM_CMD (R43, R45, R46): its pulses; a SET pulsed with a STEP wins (R43). TOUT_ARM acts before TOUT_STOP of the same write,
so that both together leave nothing armed (DESIGN CHOICE, log entry 135). -/
def timCmd (val : Word) (b : Block) : Block :=
  let b := if bitOf val 0 then timStep b else b
  let b := if bitOf val 1 then timSet b else b
  let b := if bitOf val 2 then toutArm b else b
  let b := if bitOf val 3 then toutStop b else b
  if bitOf val 4 then ptmStart b else b

end Sys2Proof.Machine
end

