-- ==== Sys2Proof/Machine/Pair.lean ====
section
/-! DEFINITION. The pair unit (17_pair_operation.md, R332 to R346): roles, heartbeats, time agreement, handover,
takeover, join and leave. Mirrored writes are applied in Mirror.lean. -/

namespace Sys2Proof.Machine

/-! ### Roles -/

/-- Set PAIR_STAT.ROLE; the event output balls follow (R332, R340). -/
def setRole (r : Nat) (b : Block) : Block := ballsSince b b.inst.t16 (b.setFld Reg.PAIR_STAT 1 0 r)

/-- Set PAIR_STAT.JOIN. -/
def setJoin (j : Nat) (b : Block) : Block := b.setFld Reg.PAIR_STAT 3 2 j

/-- The fence does not forbid an active role (R334, R344): it is off, or its input reads low. -/
def Block.fenceLow (b : Block) : Bool :=
  !b.bit Reg.PAIR_CTL 3 || !b.bit Reg.ACT_EI_STAT (b.fld Reg.PAIR_CTL 6 4)

/-- No role or takeover, blocked by the fence (R334, R344). -/
def splitSeen (b : Block) : Block := raiseBit 15 (b.setBit Reg.PAIR_STAT 9)

/-- The partner's identity is the pair's (R334). -/
def Block.validPartner (b : Block) (f : PartnerId) : Bool :=
  f.id == b.rd64 Reg.PAIR_ID_LO && f.member != b.bit Reg.PAIR_MEMBER 0

/-- This member becomes active where neither has a role (R334). -/
def Block.preferred (b : Block) (f : PartnerId) : Bool :=
  let mine := b.bit Reg.PAIR_CTL 1
  if mine != f.pref then mine else !b.bit Reg.PAIR_MEMBER 0

/-- This member becomes standby, not yet joined (R345). -/
def becomeStandby (join : Nat) (b : Block) : Block :=
  let b := setPair { b.pair with enAt := none, bulkDone := false, joinSeen := [], running := [] } b
  stopAll (setJoin join (setRole 2 b))

/-- A join starts at the active member (R345): its bulk transfer is owed. -/
def startJoin (b : Block) : Block := setPair { b.pair with bulkOwed := true, bulkAt := 0 } (setJoin 1 b)

/-- The join is over (R345, R353). -/
def endJoin (b : Block) : Block := setPair { b.pair with bulkOwed := false, joinOver := true } (setJoin 0 b)

/-- The link comes up (R334, R345). -/
def linkUpPair (f : PartnerId) (b : Block) : Block :=
  if !b.member then b
  else
    let b := b.setBit Reg.PAIR_STAT 4
    if !b.validPartner f then setPair { b.pair with partner := none } (b.setBit Reg.PAIR_STAT 13)
    else
      let b := setPair { b.pair with partner := some f, lastRx := b.now, peerSent := none, peerJoin := 0, joinOver := false } b
      if b.role = 0 then
        if f.role.val = 1 || (f.role.val = 0 && !b.preferred f) then becomeStandby 0 b
        else
          let b := setRole 1 (setPair { b.pair with enAt := none } b)
          if f.role.val = 0 then startJoin b else b
      else if b.role = 1 && f.role.val = 0 then startJoin b
      else b

/-- The link goes down (R333): it starts anew with empty buffers (DESIGN CHOICE, log entry 132). -/
def linkDownPair (b : Block) : Block :=
  if b.member then setLink { count := b.trail.link.count } (setPair { b.pair with peerStep := 0 } (b.clrBit Reg.PAIR_STAT 4)) else b

/-- A frame is discarded (R333): NAK goes out with the next one. -/
def badFrame (b : Block) : Block :=
  if b.member && b.bit Reg.PAIR_STAT 4 then
    setLink { b.trail.link with nak := true } (b.inc Reg.PAIR_CNT_B 31 16 1)
  else b

/-- Frames up to the newest with SEQ `a` are acknowledged (R333). -/
def PairLink.acked (a : BitVec 16) (l : PairLink) : PairLink :=
  { l with waiting := l.waiting.takeWhile fun x => x.seq != a }

/-- A frame has been replayed 4 times and is not acknowledged (R333). -/
def PairLink.spent (l : PairLink) : Bool := l.waiting.any fun x => decide (4 ≤ x.times)

/-- A NAK (R333): every frame after the acknowledged one is sent again, which is one replay; a frame replayed 4 times
before takes the link down instead. That this is found at the next NAK, and that a NAK counts one replay, is the model's
(DESIGN CHOICE, log entry 132). -/
def replayFrames (b : Block) : Block :=
  let l := b.trail.link
  if l.spent then linkDownPair b
  else
    let b := forEach l.waiting.reverse (fun x b =>
      let h : PairHdr := { type := x.frame.type, replayed := true, nak := l.nak, len := BitVec.ofNat 16 x.body.length, seq := x.seq,
                           ack := l.heard, sent := b.tim.ns }
      b.emit (.pairFrame h x.frame (h.groups x.body))) b
    let l := { l with nak := l.nak && l.waiting.isEmpty, waiting := l.waiting.map fun x => { x with times := x.times + 1 } }
    setLink l (b.inc Reg.PAIR_CNT_B 15 0 1)

/-- Frames of the partner are heard: the link is up and its identity is the pair's. -/
def Block.hears (b : Block) : Bool := b.member && b.bit Reg.PAIR_STAT 4 && b.pair.partner.isSome

/-- Any valid frame counts as a heartbeat (R336), and is the next in SEQ order (R333). -/
def frameHeard (b : Block) : Block :=
  let l := b.trail.link
  setLink { l with heard := l.heard + 1 } (setPair { b.pair with lastRx := b.now } (b.setBit Reg.PAIR_STAT 5))

/-! ### Takeover (R344) -/

/-- Strikes recorded by a group after a device time in ns. -/
def Block.strikesAfter (b : Block) (g t : Nat) : Nat :=
  ((b.grp g).recs.filter fun r => decide (t < r.time.toNat / 16)).length

/-- Reached actions of KIND 1 to 5 not confirmed are late now, in ascending index (R344). -/
def releaseHeld (b : Block) : Block :=
  forEach b.act.entries (fun x b =>
    let e := b.actE x.1
    if e.st = 1 && e.held then
      lateAct x.1 (lateNow e b) (b.setAct x.1 { e with held := false, reached := none, conf := true })
    else b) b

/-- A run whose step 6 the partner would have ended opens its shutter from here (R221, R231). -/
def openShutters (b : Block) : Block :=
  forEach (List.range 24) (fun h b => if b.calState h == 8 then calShutter h false b else b) b

/-- Threads that ran at the active member start from their ENTRY with registers 0 (R344). -/
def startMirrored (b : Block) : Block :=
  forEach b.pair.running (fun t b => startThread (Fin.ofNat 4 t) (b.setThr t {})) b

/-- What every change to the active role records (R344, R346). -/
def noteTakeover (cause : Nat) (b : Block) : Block :=
  raiseBit 16 (((b.wrN Reg.PAIR_TO_CAUSE cause).inc Reg.PAIR_CNT_A 31 16 1).setBit Reg.PAIR_STAT 12)

/-- The device time in ns from which no member is known to have emitted strikes (R344): that of the last valid frame, or
where a FAULT frame has come, half the round trip of the link ago, when the partner released its lanes (DEDUCED, log entry
154). -/
def Block.darkFrom (b : Block) (cause : Nat) : Nat :=
  if cause = 3 then b.ns - (b.snum Reg.PAIR_DEST / 2).toNat else b.ns - (b.now - b.pair.lastRx) / tuNs

/-- A standby in step takes over (R344): the strikes since the partner failed count as DARK. -/
def takeover (cause : Nat) (b : Block) : Block :=
  let since := b.darkFrom cause
  let dark := (List.range 8).foldl (fun n g => n + b.strikesAfter g since) 0
  let b := forEach (List.range 24) trimsFlush b
  let b := setPair { b.pair with handAt := none } { b with bounds := none, released := false }
  let b := setRole 1 (b.inc Reg.PAIR_CNT_A 15 0 dark)
  let b := startMirrored (releaseHeld (setJoin 0 b))
  noteTakeover cause (openShutters b)

/-- A standby in step may take over by itself. -/
def Block.mayTakeOver (b : Block) : Bool := b.standby && b.joinSt == 2 && b.bit Reg.PAIR_CTL 2

/-- The heartbeat has been lost, and the fence reads low (R344): tested in every tick. -/
def takeoverTick (b : Block) : Block :=
  if b.mayTakeOver && !b.bit Reg.PAIR_STAT 5 && b.fenceLow then takeover 1 b else b

/-- The heartbeat is lost (R336): a standby in step takes over or reports a split; a join is broken off (R345). -/
def heartbeatLost (b : Block) : Block :=
  if b.member && b.bit Reg.PAIR_STAT 5
      && decide (b.pair.lastRx + (b.fld Reg.PAIR_CTL 13 12 + 1) * 10 * tuUs ≤ b.now) then
    let b := b.clrBit Reg.PAIR_STAT 5
    if b.mayTakeOver then (if b.fenceLow then takeover 1 b else splitSeen b)
    else if b.standby && b.joinSt == 1 then endJoin (setRole 0 b)
    else b
  else b

/-- A FAULT frame of the active member (R344). -/
def faultHeard (b : Block) : Block :=
  if b.hears then
    let b := frameHeard b
    if b.mayTakeOver then takeover 3 b else b
  else b

/-- No valid partner within 1 s (R334): active alone, unless the fence forbids it; a member that was active before its
warm reset keeps its role (R353). -/
def roleTimeout (b : Block) : Block :=
  let p := b.pair
  match p.enAt, p.recover with
  | some t, _ =>
    if b.member && b.role == 0 && p.partner.isNone && decide (t + 1000 * tuMs ≤ b.now) then
      let b := setPair { p with enAt := none } b
      if b.fenceLow then setRole 1 b else splitSeen b
    else b
  | none, some t =>
    if b.member && b.role == 1 && decide (t + 1000 * tuMs ≤ b.now) then
      setRole 1 (setPair { p with recover := none } { b with released := false })
    else b
  | none, none => b

/-! ### Heartbeats and time agreement (R336, R337) -/

/-- The SEQ of a group's last issued strike. -/
def Block.lastSeq (b : Block) (g : Nat) : BitVec 16 := (b.grp g).seq - 1

/-- A heartbeat leaves every 10 µs (R333, R336). -/
def heartbeatSend (b : Block) : Block :=
  if b.member && b.bit Reg.PAIR_STAT 4 && 5 ≤ b.stage_ && decide (b.pair.lastHb + 10 * tuUs ≤ b.now) then
    let echo : Nat := match b.pair.peerSent with
      | some (sent, arrived) => sent + (b.ns - arrived)
      | none => 0
    let f : HbFrame :=
      { nak := b.trail.link.nak, ack := b.trail.link.heard, role := Fin.ofNat 4 b.role, join := Fin.ofNat 4 b.joinSt, step := Fin.ofNat 5 b.budStep,
        eoLevel := BitVec.ofNat 16 (b.fld Reg.ACT_EO_LEVEL 15 0), seqs := (List.range 8).map b.lastSeq,
        echo := BitVec.ofNat 64 echo, sent := b.tim.ns, sub := 0 }
    setPair { b.pair with lastHb := b.now } (sendFrame (.heartbeat f) b)
  else b

/-- Step the own time by `x` ns at the next tick (R43). -/
def phaseStep (x : Int) (b : Block) : Block :=
  if -(2 ^ 31) ≤ x ∧ x < 2 ^ 31 then setTim { b.tim with steps := b.tim.steps ++ [BitVec.ofInt 32 x] } b
  else setTim { b.tim with set := some (BitVec.ofInt 64 ((b.ns : Int) + x)) } b

/-- The round trip and the offset of a heartbeat exchange (R337); an offset beyond 1 µs is removed at once. -/
def measureOffset (f : HbFrame) (b : Block) : Block :=
  if f.echo = 0 then b
  else
    let a := (b.instAt f.sub.val).t1
    let d : Int := (a : Int) - f.echo.toNat
    let (r, changed) := b.pair.route.take d b.routeStep b.routeHold b.now
    let dest := r.dest.getD d
    let ahead : Int := (f.echo.toNat : Int) + roundDiv dest 2 + b.snum Reg.PAIR_ASYM - f.sent.toNat
    let theta := if b.role = 1 then -ahead else ahead
    let b := setPair { b.pair with route := r, theta := theta } b
    let b := if changed then (b.setBit Reg.PAIR_STAT 10).inc Reg.PAIR_CNT_C 31 16 1 else b
    let b := ((b.wrS Reg.PAIR_RTT d).wrS Reg.PAIR_DEST dest).wrS Reg.PAIR_OFFSET theta
    if b.standby && 1000 < theta.natAbs then phaseStep (-theta) b else b

/-- The SEQ of a group's last issued strike at a device time in ns: that of its newest recorded strike not after it; where
every recorded strike is later, the SEQ before the oldest. -/
def Block.seqAt (b : Block) (g t : Nat) : BitVec 16 :=
  let rs := (b.grp g).recs
  match rs.find? fun r => decide (r.time.toNat / 16 ≤ t), rs.getLast? with
  | some r, _ => r.stamp.setWidth 16
  | none, some r => r.stamp.setWidth 16 - 1
  | none, none => b.lastSeq g

/-- A standby in step (JOIN = 2: DESIGN CHOICE, log entry 78) compares the partner's strikes with its own (R336); DIV_FRAME
has no value the manual states. -/
def compareStrikes (f : HbFrame) (b : Block) : Block :=
  if !b.standby || b.joinSt != 2 || b.bit Reg.PAIR_STAT 8 then b
  else
    let t := ((f.sent.toNat : Int) + b.pair.theta).toNat
    let bad := (List.range 8).any fun g => b.seqAt g t != f.seqs.getD g 0
    if bad then
      let (v, b) := b.draw
      diverge 3 0x1F (v.setWidth 32) 0xFFFF b
    else b

/-- What the partner's role and join say of the own ones (R345, R353). -/
def followPartner (f : HbFrame) (b : Block) : Block :=
  let b := match b.pair.recover with
    | none => b
    | some _ =>
      let b := setPair { b.pair with recover := none } { b with released := false }
      if f.role.val = 1 then becomeStandby 0 b else setRole b.role b
  if b.role = 1 && b.released && f.role.val = 1 then becomeStandby 0 { b with released := false }
  else if b.role = 1 then
    if b.joinSt = 1 && f.join.val = 2 then setJoin 2 b
    else if b.joinSt ≠ 0 && f.join.val = 0 && (b.pair.peerJoin ≠ 0 || b.joinSt = 2) then endJoin b
    else b
  else if b.role = 0 && f.role.val = 1 && f.join.val = 1 && !b.pair.joinOver then becomeStandby 1 b
  else if b.role = 2 && f.role.val = 1 then
    if f.join.val = 0 then setJoin 0 b
    else if b.joinSt = 0 && f.join.val = 1 && !b.pair.joinOver then becomeStandby 1 b
    else b
  else b

/-- What a heartbeat tells of the partner is kept; a new join may begin once it has reported JOIN 0. -/
def notePartner (f : HbFrame) (b : Block) : Block :=
  setPair { b.pair with peerJoin := f.join.val, joinOver := b.pair.joinOver && f.join.val != 0 } b

/-- A heartbeat arrives (R336). -/
def heartbeat (f : HbFrame) (b : Block) : Block :=
  if !b.hears then b
  else
    let b := frameHeard b
    let b := setLink (b.trail.link.acked f.ack) b
    let b := if f.nak then replayFrames b else b
    let a := (b.instAt f.sub.val).t1
    let b := setPair { b.pair with peerRole := f.role.val, peerStep := f.step.val, peerSent := some (f.sent.toNat, a) } b
    notePartner f (compareStrikes f (followPartner f (measureOffset f b)))

/-- The standby's phase step, every 1 ms (R337). -/
def pairPhaseStep (b : Block) : Block :=
  if b.standby && b.bit Reg.PAIR_STAT 5 && decide (b.pair.phaseAt + tuMs ≤ b.now) then
    phaseStep (clampI (-8) 8 (-b.pair.theta)) (setPair { b.pair with phaseAt := b.now } b)
  else b

/-! ### Handover (R343) -/

/-- PAIR_CTL.LEAD_US as it acts, in ns. -/
def Block.leadNs (b : Block) : Nat := max 1 (b.fld Reg.PAIR_CTL 23 16) * 1000

/-- The boundary of a group (R343). -/
def Block.handBound (b : Block) (g : Nat) : BitVec 16 :=
  b.lastSeq g + BitVec.ofNat 16 ((2000 + b.minint g - 1) / b.minint g + 1)

/-- PAIR_CMD.HANDOVER at the active member (R343). -/
def handover (b : Block) : Block :=
  if b.member && b.role == 1 && b.joinSt == 2 then
    let bs := (List.range 8).map b.handBound
    let th := b.ns + b.leadNs
    let b := sendFrame (.handover bs (BitVec.ofNat 64 th)) b
    setPair { b.pair with handAt := some th } { b with bounds := some (bs.map some), giver := true }
  else b

/-- A HANDOVER frame at the partner (R343). -/
def handoverHeard (bs : List (BitVec 16)) (th : BitVec 64) (b : Block) : Block :=
  if b.hears then
    let b := frameHeard b
    if !b.standby then b else
    setPair { b.pair with handAt := some th.toNat } { b with bounds := some (bs.map some), giver := false }
  else b

/-- The active role changes hands (R343): at the old active member, and at its partner, which also does what a takeover does
with held actions and mirrored threads (R344; DEDUCED, log entry 77). -/
def handRole (b : Block) : Block :=
  if b.giver && b.role == 1 then stopAll (setRole 2 b)
  else if !b.giver && b.role == 2 then noteTakeover 2 (openShutters (startMirrored (releaseHeld (setRole 1 b))))
  else b

/-- The first strike of a handover that the partner emits has been issued (R343): with it the role changes, so that active
idle sets precede the strike on the lane (R81; DESIGN CHOICE, log entry 122). Tested at the end of every tick. -/
def handStrike (b : Block) : Block :=
  match b.pair.handAt, b.bounds with
  | some _, some bs => if bs.any Option.isNone then handRole b else b
  | _, _ => b

/-- Drop the handover's time: the balls follow. -/
def endHandover (b : Block) : Block := ballsSince b b.inst.t16 (setPair { b.pair with handAt := none } b)

/-- The balls change hands around T_h (R343): the partner drives from 100 ns before it, the old active member releases 100 ns
after it; the role changes with them where no strike has changed it. -/
def handoverBalls (b : Block) : Block :=
  match b.pair.handAt with
  | none => b
  | some th =>
    if (b.giver && decide (th + 100 ≤ b.ns)) || (!b.giver && decide (th ≤ b.ns + 100)) then endHandover (handRole b) else b

/-! ### Joining, leaving, identity (R335, R345) -/

/-- PAIR_CMD.JOIN at the active member (R345). -/
def joinCommand (b : Block) : Block :=
  if b.hears && b.role == 1 && (b.pair.peerRole == 0 || (b.pair.peerRole == 2 && b.joinSt == 0)) then startJoin b else b

/-- The standby is in step (R345): the bulk transfer is complete and every bound head has begun a frame. -/
def joinComplete (b : Block) : Block :=
  if b.standby && b.joinSt == 1 && b.pair.bulkDone
      && ((List.range 24).all fun h => !b.bound h || b.pair.joinSeen.contains h) then setJoin 2 b
  else b

/-- PAIR_CMD.LEAVE (R345): a member that has left joins again in a new join only. -/
def leavePair (b : Block) : Block :=
  if !b.member then b
  else
    let b := endJoin (setPair { b.pair with bulkDone := false, joinSeen := [] } b)
    if b.role = 2 then setRole 0 b else b

/-- PAIR_CMD.ID_SAVE (R335). -/
def idSave (b : Block) : Block :=
  let body := leBytes 8 (b.rd64 Reg.PAIR_ID_LO).toNat
    ++ [BitVec.ofNat 8 (b.fld Reg.PAIR_MEMBER 0 0), BitVec.ofNat 8 (b.fld Reg.PAIR_CTL 1 1),
        BitVec.ofNat 8 (b.fld Reg.PAIR_CTL 0 0 + 2 * b.fld Reg.PAIR_CTL 7 7 + 4 * b.fld Reg.PAIR_CTL 3 3),
        BitVec.ofNat 8 (b.fld Reg.PAIR_CTL 11 8 + 16 * b.fld Reg.PAIR_CTL 6 4)]
    ++ leBytes 4 0 ++ leBytes 4 (b.fld Reg.PAIR_CNT_A 31 16) ++ List.replicate 28 0
  queueWrite (.twin 0x03 0 body) b

/-- A write of PAIR_CTL (R334): EN set starts the wait for a partner, EN cleared gives up any role. -/
def writePairCtl (val : Word) (b : Block) : Block :=
  let old := b
  let en := b.member
  let b := b.genWrite Reg.PAIR_CTL val
  let b := if !en && b.member then setPair { b.pair with enAt := some b.now, partner := none, recover := none } b
    else if en && !b.member then
      let b := setPair { b.pair with enAt := none, partner := none, recover := none, handAt := none } b
      { ((b.setFld Reg.PAIR_STAT 5 0 0)) with released := false, bounds := none, giver := false }
    else b
  ballsSince old b.inst.t16 b

/-- PAIR_CMD: its pulses. -/
def pairCmd (val : Word) (b : Block) : Block :=
  let b := if bitOf val 0 then handover b else b
  let b := if bitOf val 1 then joinCommand b else b
  let b := if bitOf val 2 then leavePair b else b
  if bitOf val 3 then idSave b else b

/-! ### Mirrored actions and calibrations (R231, R340) -/

/-- An ARM frame (R340). -/
def armMirrored (f : ArmFrame) (b : Block) : Block :=
  if (b.actE f.i.val).st = 0 then armEntry f.i.val f.writer.val f.key f.ctrl f.arg none (some f.start) b else b

/-- An EXEC frame confirms an execution (R340). -/
def execConfirmed (i : Nat) (b : Block) : Block :=
  let e := b.actE i
  if e.st != 1 then b
  else
    let b := b.setAct i { e with conf := true, held := false }
    if e.held then execAct i b else b

/-- A frame that acts at the standby. -/
def atStandby (f : Block → Block) (b : Block) : Block :=
  if b.hears then (if b.standby then f (frameHeard b) else frameHeard b) else b

/-- A frame that acts at either member. -/
def atMember (f : Block → Block) (b : Block) : Block := if b.hears then f (frameHeard b) else b

end Sys2Proof.Machine
end

