-- ==== Sys2Proof/Machine/Bar2.lean ====
section
/-! DEFINITION. BAR2 (01_architecture.md, R19, R20; 13_host_interface.md, R263, R264). -/

namespace Sys2Proof.Machine

/-- The HBM address of a BAR2 offset (R263). -/
def Block.b2Addr (b : Block) (o : Nat) : Nat :=
  let win := 2 ^ (28 + b.host.bar2.val)
  ((b.rd64 Reg.HOST_B2_BASE_LO).toNat / win * win + o) % 2 ^ 34

/-- A host write to this byte of HBM is discarded (R20): the active bank of a bound head, the replay region, the frame
stores. -/
def Block.b2Denied (b : Block) (a : Nat) : Bool :=
  match bankOf a with
  | some (h, bank) => b.bound h && b.activeBank h == bank
  | none => decide (0x90000000 ≤ a) && decide (a < 0xF8000000)

/-- The bytes of a request from an address, with those its byte enables leave out left out. -/
def enabledBytes (a : Nat) (data : List (Option Byte)) : List (Nat × Byte) :=
  (List.range data.length).filterMap fun i => ((data.getD i none).map fun x => ((a + i) % 2 ^ 34, x))

/-- Write bytes of HBM where R20 allows, and note the banks written (R103). -/
def hbmWrite (xs : List (Nat × Byte)) (b : Block) : Block :=
  let ok := xs.filter fun x => !b.b2Denied x.1
  let b' := forEach ok (fun x b => mendHbm x.1 1 b) { b with hbm := ok.foldl (fun m x => m.set (fun _ => 0) x.1 x.2) b.hbm }
  forEach (List.range 24) (fun h b =>
    let hits (bank : Bool) : Bool := ok.any fun x => bankOf x.1 == some (h, bank)
    let b := if hits false then noteBankWrite h false b else b
    if hits true then noteBankWrite h true b else b) b'

/-- Perform a BAR2 write (R20, R264): counted once where any byte is discarded; mirrored, and denied at a standby (R338,
R339). -/
def bar2Perform (a : Nat) (data : List (Option Byte)) (b : Block) : Block :=
  let xs := enabledBytes a data
  if xs.isEmpty || b.bud.down then b
  else if b.standby then b.inc Reg.PAIR_CNT_C 15 0 1
  else
    let b := if xs.any fun x => b.b2Denied x.1 then b.inc Reg.HOST_B2DENY 31 0 1 else b
    mirror (.hbm a data) (hbmWrite xs b)

/-- A byte that a BAR2 read of `len` bytes from `a` reads is uncorrectable; the address wraps (R263). -/
def Block.spoiltRead (b : Block) (a len : Nat) : Bool := b.hbmBad a len || b.hbmBad 0 (a + len - 2 ^ 34)

/-- Answer a BAR2 read (R264, R296): in shutdown zeros; poisoned on an uncorrectable error, which is counted and
reported (R349). -/
def bar2Answer (a len : Nat) (ue : Bool) (b : Block) : Block :=
  if b.bud.down then b.emit (.bar2 a (List.replicate len 0) false)
  else if ue || b.spoiltRead a len then hbmUe 1 ((b.emit (.bar2 a [] true)).inc Reg.HOST_CNT 31 16 1)
  else b.emit (.bar2 a ((List.range len).map fun i => b.hbmByte ((a + i) % 2 ^ 34)) false)

/-- BAR2 requests wait for HBM to be zeroed after a cold reset (R366). -/
def Block.b2Waits (b : Block) : Bool := decide (b.stage_ < 6) && decide (b.fld Reg.SUP_CAUSE 3 0 < 5)

/-- A BAR2 read arrives. -/
def bar2Read (o len : Nat) (ue : Bool) (b : Block) : Block :=
  if (b.perst && !b.bud.down) || b.stage_ = 0 then b
  else if b.b2Waits then { b with held := b.held ++ [(b.b2Addr o, none, len)] }
  else bar2Answer (b.b2Addr o) len ue b

/-- A poisoned write is discarded, counted and reported (R261, R280). -/
def poisonedWrite (b : Block) : Block := reportAer .poisonedTlp (b.inc Reg.HOST_CNT 15 0 1)

/-- A poisoned write to either window; the shutdown state sees none (R296). -/
def poisonedAccess (b : Block) : Block := if b.bud.down then b else poisonedWrite b

/-- A BAR2 write arrives. -/
def bar2Write (o : Nat) (data : Bar2Data) (b : Block) : Block :=
  if (b.perst && !b.bud.down) || b.stage_ = 0 then b
  else match data with
    | .poisoned => poisonedAccess b
    | .bytes xs =>
      if b.b2Waits then { b with held := b.held ++ [(b.b2Addr o, some xs, 0)] }
      else bar2Perform (b.b2Addr o) xs b

/-- Requests held complete in order (R366). -/
def serveBar2 (b : Block) : Block :=
  let xs := b.held
  forEach xs (fun x b =>
    match x.2.1 with
    | some data => bar2Perform x.1 data b
    | none => bar2Answer x.1 x.2.2 false b) { b with held := [] }

end Sys2Proof.Machine
end

