-- ==== Sys2Proof/Machine/Link.lean ====
section
/-! DEFINITION. The head link (04_head_link.md): binds and unbinds, link up and down (R75, R79), characterisation
loads (R77, R78), commands and their answers (R73), lane delay (R80). -/

namespace Sys2Proof.Machine

/-! ### Binding (R23, R87) -/

/-- A bind request, with what an accepted bind starts: calibration (R215), a merge run (R168), a new band integration
(R178) and no committed plane (R144). -/
def bindHead (r : Requester) (h p wx wy : Nat) (b : Block) : Nat × Block :=
  let (code, b) := requestBind r h p wx wy b
  if code ≠ 0 then (code, b)
  else
    let x := b.hd h
    let b := b.setHd h { x with bindNo := x.bindNo + 1, plane := none, tdi := { x.tdi with last := none } }
    let b := notePacket h (refreshForecast h p b)
    let b := calBind h b
    let b := if b.bit (Reg.PL_MG_CTL p) 16 then mgStart p b else b
    (0, seamCheck b)

/-- An unbind request (R22, R87). -/
def unbindHead (h : Nat) (b : Block) : Block :=
  if !b.bound h || b.bit (Reg.HD_BIND h) 30 then b else boundaryNow h (b.setBit (Reg.HD_BIND h) 30)

/-- PL_CMD.BIST (R107): a move out of a pipeline whose head has no open frame is made at once (R22). -/
def bistRequest (p : Nat) (b : Block) : Block :=
  let b := requestBist p b
  if b.bit (Reg.PL_STAT p) 12 then match b.headOf p with
    | some h => boundaryNow h b
    | none => b
  else b

/-- A BIST that waits may start (R293): granted, the first in this period, of the lowest pipeline, and after a calibration run
that may start too. -/
def Block.mayBist (b : Block) (p : Nat) : Bool :=
  b.cGrant && !b.bud.bistDone && b.bistReady p && (List.range p).all (fun q => !b.bistReady q)
    && (b.bud.calDone || (List.range 24).all fun g => !b.calReady g)

/-- BIST begins on a drained pipeline under the Class C grant (R109, R293). -/
def bistBegin (p : Nat) (b : Block) : Block :=
  if b.mayBist p then
    let b := { b with bud := { b.bud with bistDone := true } }
    refreshSpare p ((b.setPl p { b.pl p with bistWait := false }).setBit (Reg.PL_STAT p) 10)
  else b

/-! ### Characterisation loads (R77, R78) -/

/-- Places of the queue have come free: the actions whose commands have entered it (R73, R207). -/
def noteEntry (h : Nat) (b : Block) : Block :=
  let p := b.port h
  forEach (p.queue.take p.places) (fun c b => match c.org with
    | .action i => if (b.actE i).st == 2 then actEntered i b else b
    | _ => b) b

/-- Drop the commands of an earlier load, queued or outstanding. -/
def dropLoad (h : Nat) (b : Block) : Block :=
  let p := b.port h
  let mine (c : HdCmd) : Bool := match c.org with
    | .header => true
    | .section_ _ _ => true
    | .relink => true
    | _ => false
  noteEntry h (b.setPort h { p.drop b.now (fun o => mine o.cmd) with queue := p.queue.filter fun c => !mine c })

/-- Start a load (R78 step 1): READY reads 0. -/
def startLoad (h : Nat) (b : Block) : Block :=
  let b := dropLoad h (b.clrBit (Reg.HD_LINK_STAT h) 4)
  let tmo := max 1 (b.fld (Reg.HD_LINK_CTL h) 15 8) * 100 * tuMs
  let l : Load := { hdr := none, carat := [], table := [], asked := 0, got := 0, deadline := b.now + tmo }
  let b := b.setPort h { b.port h with load := some l, heldReload := false, relink := false }
  readFlash h 0 256 .header (setPortCmd h .bringup b)

/-- A load fails, or a re-linked head is found changed (R78, R79); after a failed load no digest is valid (R103). -/
def failLoad (h cause : Nat) (b : Block) : Block :=
  let b := if (b.port h).load.isSome then
      syncDescriptor h (((b.setPort h { b.port h with loaded := false }).clrBit (Reg.HD_BANK h) 5).clrBit (Reg.HD_BANK h) 6)
    else b
  let b := dropLoad h (b.setPort h { b.port h with load := none, relink := false })
  let b := (b.clrBit (Reg.HD_LINK_STAT h) 4).setFld (Reg.HD_LINK_STAT h) 19 16 cause
  raiseBit 5 (b.setBit (Reg.HD_LINK_STAT h) 6)

/-- A number of a header or section. -/
def numAt (bs : List Byte) (off n : Nat) : Nat := ofLe ((bs.drop off).take n)

/-- The header fields (R77). A MOSAIC byte above 1, whose meaning the manual does not give, is a free value `odd`. -/
def parseHdr (bs : List Byte) (odd : Bool) : CharHdr :=
  let n := numAt bs
  { cols := n 2 2, rows := n 4 2, depthMax := n 6 1, mosaic := if n 7 1 < 2 then n 7 1 == 1 else odd, anchor := n 8 4,
    strikeLat := n 12 2, turn := n 14 2, serial := (bs.drop 16).take 16, caratOff := n 32 4, caratLen := n 36 4,
    tblOff := n 40 4, tblLen := n 44 4, crc := BitVec.ofNat 32 (n 48 4) }

/-- The checks of step 2 (R78): the CAUSE, 0 for a pass. -/
def hdrCause (bs : List Byte) : Nat :=
  let c := parseHdr bs false
  if numAt bs 0 2 != 1 || (bs.drop 52).any (· != 0) then 2
  else if c.cols < 32 || 2048 < c.cols || c.rows < 2 || 1536 < c.rows || c.depthMax < 12 || 16 < c.depthMax then 3
  else if c.caratLen != c.cols * c.rows * 16 || 0x100000 < c.tblLen then 2
  else 0

/-- Ask for the next 4,096 bytes of the sections (R78 step 3). -/
def askChunk (h : Nat) (b : Block) : Block :=
  match (b.port h).load with
  | some l =>
    match l.hdr with
    | some bs =>
      let c := parseHdr bs false
      let (base, off, len) := if l.asked < c.caratLen then (c.caratOff, l.asked, c.caratLen)
        else (c.tblOff, l.asked - c.caratLen, c.tblLen)
      let n := min 4096 (len - off)
      if n = 0 then b
      else
        let b := b.setPort h { b.port h with load := some { l with asked := l.asked + n } }
        readFlash h (base + off) n (.section_ l.asked n) b
    | none => b
  | none => b

/-- Pad a short payload with free values, where the manual does not say what its missing bytes are. -/
def padFree : Nat → List Byte → Block → List Byte × Block
  | 0, xs, b => (xs, b)
  | n + 1, xs, b =>
    let (v, b) := b.draw
    padFree n (xs ++ [v.setWidth 8]) b

/-- A payload as `n` bytes. -/
def exactly (n : Nat) (xs : List Byte) (b : Block) : List Byte × Block := padFree (n - xs.length) (xs.take n) b

/-- The header has been read for a load (R78 step 2). -/
def headerRead (h : Nat) (payload : List Byte) (b : Block) : Block :=
  match (b.port h).load with
  | some l =>
    let (bs, b) := exactly 256 payload b
    let cause := hdrCause bs
    if cause ≠ 0 then failLoad h cause b
    else
      let b := b.setPort h { b.port h with load := some { l with hdr := some bs } }
      forEach (List.range 16) (fun _ b => askChunk h b) b
  | none => b

/-- A section chunk has been read (R78 step 3); `at_` counts over the carat section, then the table section. -/
def chunkRead (h at_ len : Nat) (payload : List Byte) (b : Block) : Block :=
  match (b.port h).load with
  | some l =>
    match l.hdr with
    | some bs =>
      let (xs, b) := exactly len payload b
      let c := parseHdr bs false
      let l := if at_ < c.caratLen then { l with carat := l.carat.setList (fun _ => 0) at_ xs }
        else { l with table := l.table.setList (fun _ => 0) (at_ - c.caratLen) xs }
      askChunk h (b.setPort h { b.port h with load := some { l with got := l.got + len } })
    | none => b
  | none => b

/-- IMAGE_CRC as computed (R77): the header with the field zero, then both sections in address order. -/
def imageCrc (bs carat table : List Byte) : Word :=
  let c := parseHdr bs false
  let head := bs.take 48 ++ [0, 0, 0, 0] ++ bs.drop 52
  crc32c (head ++ (if c.tblOff < c.caratOff then table ++ carat else carat ++ table))

/-- Every section has been read (R78 steps 4 to 8): the banks, the tables, IMAGE_CRC, the defect list, READY; both
digests (R103), the curves (R167), no readings (R113). -/
def loadComplete (h : Nat) (b : Block) : Block :=
  match (b.port h).load with
  | none => b
  | some l =>
    match l.hdr with
    | none => b
    | some bs =>
      let (v, b) := b.draw
      let c := parseHdr bs (v.getLsbD 0)
      if l.got != c.caratLen + c.tblLen then b
      else
        let carat := l.carat.getList (fun _ => 0) 0 c.caratLen
        let table := l.table.getList (fun _ => 0) 0 c.tblLen
        let b := hbmPut (bankAddr h true) carat (hbmPut (bankAddr h false) carat b)
        let b := noteBankWrite h true (noteBankWrite h false b)
        let b := hbmPut (tablesAddr h) table b
        if imageCrc bs carat table != c.crc then failLoad h 4 b
        else
          let (ok, b) := defMerge h c.cols c.rows (defList table) b
          if !ok then failLoad h 7 b
          else
            let b := b.setPort h { b.port h with load := none, hdr := some c, loaded := true }
            let b := loadCurves h (b.hbmBytes (tablesAddr h) 0x50C0) b
            let x := b.hd h
            let b := b.setHd h { x with readings := [], beta := none, betaCold := true, actFrame := 0xFFFFFFFF, switches := 0,
                                        cal := { x.cal with accepted := false, ageFrom := none } }
            let b := (b.clrBit (Reg.HD_BANK h) 0).clrBit (Reg.HD_BANK h) 1
            let d := b.bankDigest h false
            setDigest h true d (setDigest h false d (b.setBit (Reg.HD_LINK_STAT h) 4))

/-- The load has not finished in CHAR_TMO (R78). -/
def loadTimeout (h : Nat) (b : Block) : Block :=
  match (b.port h).load with
  | some l => if l.deadline ≤ b.now then failLoad h 1 b else b
  | none => b

/-- HD_LINK_CMD.RELOAD (R78). -/
def reload (h : Nat) (b : Block) : Block :=
  if b.bound h then b
  else if b.linkUp h then startLoad h b
  else b.setPort h { b.port h with heldReload := true }

/-! ### Link up and down (R75, R79) -/

/-- The link comes up: SET_PORT, the SHUTTER open that an abandoned run owes (R229), then a load or the check of
R79. An unbound head that is READY takes the check and no load, whatever AUTO_LOAD is, though R78 names a load for it
(DESIGN CHOICE, log entry 116). -/
def linkComesUp (h : Nat) (b : Block) : Block :=
  let b := b.setBit (Reg.HD_LINK_STAT h) 3
  let p := b.port h
  let open_ (b : Block) : Block :=
    let x := b.hd h
    if x.cal.openOwed then calShutter h false (b.setHd h { x with cal := { x.cal with openOwed := false } }) else b
  if p.heldReload && !b.bound h then open_ (startLoad h b)
  else if b.ready h || b.bound h then
    let b := open_ (setPortCmd h .bringup (dropLoad h b))
    readFlash h 0 256 .relink (b.setPort h { b.port h with relink := true, load := none })
  else if b.bit (Reg.HD_LINK_CTL h) 1 then open_ (startLoad h b)
  else open_ (setPortCmd h .bringup b)

/-- The header of a re-linked head has been read (R79). -/
def relinkRead (h : Nat) (payload : List Byte) (b : Block) : Block :=
  let (bs, b) := exactly 256 payload b
  let same := match (b.port h).hdr with
    | some c => BitVec.ofNat 32 (numAt bs 48 4) == c.crc
    | none => false
  if same then (b.setPort h { b.port h with relink := false }).setBit (Reg.HD_LINK_STAT h) 4 else failLoad h 6 b

/-- The link goes down (R75): a run is abandoned, and makes no switch (R229); the open frame closes without a trailer; a bound
head's is a fault. -/
def linkGoesDown (h : Nat) (b : Block) : Block :=
  let bound := b.bound h
  let b := (b.clrBit (Reg.HD_LINK_STAT h) 3).inc (Reg.HD_CNT_G h) 31 16 1
  let b := closeFrame h none (calAbandon h b)
  if bound then raiseBit 6 b else b

/-- The link is up while EN is 1 and the lanes are aligned (R75). -/
def refreshLink (h : Nat) (b : Block) : Block :=
  let want := b.bit (Reg.HD_LINK_CTL h) 0 && b.bit (Reg.HD_LINK_STAT h) 2
  if want && !b.linkUp h then linkComesUp h b
  else if !want && b.linkUp h then linkGoesDown h b
  else b

/-- An upstream lane loses lock, and the lanes their alignment (R75). -/
def laneLoses (h lane : Nat) (b : Block) : Block :=
  refreshLink h ((b.clrBit (Reg.HD_LINK_STAT h) (8 + lane)).clrBit (Reg.HD_LINK_STAT h) 2)

/-- The validity of a lane's last sync headers, at most 64, newest first. -/
def HdPort.lastSync (p : HdPort) (lane : Nat) : List Bool := p.sync.get (fun _ => []) lane

/-- A sync header arrives on an upstream lane (R75): an invalid one counts, while the link is down too (DESIGN CHOICE, log
entry 140); 64 valid ones in a row lock the lane, 16 invalid ones within 64 lose its lock. -/
def syncHeader (h lane : Nat) (s : BitVec 2) (b : Block) : Block :=
  let ok := validSync s
  let p := b.port h
  let last := (ok :: p.lastSync lane).take 64
  let b := if ok then b else b.inc (Reg.HD_CNT_G h) 15 0 1
  let keep (xs : List Bool) (b : Block) : Block := b.setPort h { b.port h with sync := (b.port h).sync.set (fun _ => []) lane xs }
  let locked := b.bit (Reg.HD_LINK_STAT h) (8 + lane)
  if !locked && last.length == 64 && last.all id then keep last (b.setBit (Reg.HD_LINK_STAT h) (8 + lane))
  else if locked && decide (16 ≤ (last.filter (!·)).length) then laneLoses h lane (keep [] b)
  else keep last b

/-- The port's upstream lanes receive (R85): HD_LINK_CTL.EN. -/
def Block.receives (b : Block) (h : Nat) : Bool := b.bit (Reg.HD_LINK_CTL h) 0

/-- Sync headers that a lane has received outside packets (R75). -/
def laneHeaders (h : Nat) (x : LaneHeaders) (b : Block) : Block :=
  if b.receives h then forEach x.headers (syncHeader h x.lane.val) b else b

/-- Markers have arrived on all lanes, `spread` block periods apart (R74, R75). -/
def markersArrive (h spread : Nat) (b : Block) : Block :=
  if b.receives h && b.fld (Reg.HD_LINK_STAT h) 11 8 = 15 && spread ≤ 4 then refreshLink h (b.setBit (Reg.HD_LINK_STAT h) 2) else b

/-- A lane has missed its marker (R75). -/
def alignmentLost (h : Nat) (b : Block) : Block :=
  if b.receives h then refreshLink h (b.clrBit (Reg.HD_LINK_STAT h) 2) else b

/-- HD_LINK_CMD.RETRAIN (R75): HEAD_RESET first. -/
def retrainLink (h : Nat) (b : Block) : Block :=
  queueCmd h { opc := 0x08, payload := [], org := .retrain } (b.setPort h { b.port h with retraining := true })

/-- HEAD_RESET of a RETRAIN has been answered or has failed: the link goes down and trains from block lock (R75). -/
def retrainNow (h : Nat) (b : Block) : Block :=
  let b := b.setPort h { b.port h with retraining := false, sync := [] }
  refreshLink h (b.setFld (Reg.HD_LINK_STAT h) 11 8 0 |>.clrBit (Reg.HD_LINK_STAT h) 2)

/-! ### Commands and answers (R70 to R73) -/

/-- An outstanding command is sent again with its TAG (R73). -/
def resend (h : Nat) (o : OutCmd) (b : Block) : Block :=
  let (o, b) := transmit h o b.now b
  let p := b.port h
  noteSent h o.cmd o.ends (b.setPort h { p with outs := p.outs.map fun q => if q.tag == o.tag then o else q })

/-- The next command is sent (R70): one that waits to be sent again, else the first of the queue. -/
def commandSend (h : Nat) (b : Block) : Block :=
  if !b.laneOn h || !b.laneFree h then b
  else match (b.port h).outs.find? (·.waits) with
    | some o => resend h o b
    | none =>
      if (b.port h).places = 0 then b
      else match (b.port h).queue with
        | c :: _ =>
          let b := sendNext h b
          match (b.port h).outs.getLast? with
          | some o => noteSent h c o.ends b
          | none => b
        | [] => b

/-- A strike symbol leaves the command lane; a command in progress is cut and sent again in full (R62, R71). -/
def emitStrike (h : Nat) (b : Block) : Block :=
  match b.sched.get (fun _ => []) h with
  | s :: rest =>
    if b.now < s.at_ then b
    else
      let b := { b with sched := b.sched.set (fun _ => []) h rest }
      if !b.laneStrikes h || 24 ≤ h then b
      else
        let cut := (b.port h).outs.filter (·.onLane s.at_)
        let b := b.setPort h { b.port h with strikeAt := some s.at_ }
        let b := cutCommands h s.at_ (b.emit (.strike (Fin.ofNat 24 h) s.stamp (strikeChars s.stamp) s.at_))
        forEach cut (fun o b => match (b.port h).outs.find? fun q => q.tag == o.tag with
          | some q => noteSent h q.cmd q.ends b
          | none => b) b
  | [] => b

/-- An outstanding command is answered or given up. -/
def dropOut (h : Nat) (tag : Byte) (b : Block) : Block :=
  noteEntry h (b.setPort h ((b.port h).drop b.now fun o => o.tag == tag))

/-- The fourth attempt of a command has failed (R73). -/
def commandFails (h : Nat) (o : OutCmd) (b : Block) : Block :=
  let b := raiseBit 4 ((dropOut h o.tag b).setBit (Reg.HD_LINK_STAT h) 7)
  match o.cmd.org with
  | .header => failLoad h 5 b
  | .section_ _ _ => failLoad h 5 b
  | .relink => failLoad h 5 b
  | .retrain => retrainNow h b
  | .mailbox => (b.setFld (Reg.HD_RSP h) 7 0 0xFF).clrBit (Reg.HD_CMD h) 31
  | .shutter close => calFailed h close b
  | .ladder run => if run then mgEnd h 5 false b else b
  | _ => b

/-- An attempt has failed: the command is sent again with its TAG, up to three times (R73), at once or when the lane is
free. -/
def attemptFails (h : Nat) (o : OutCmd) (b : Block) : Block :=
  if 4 ≤ o.attempt then commandFails h o b
  else
    let o := { o with attempt := o.attempt + 1, waits := true }
    let p := b.port h
    let b := b.setPort h { p with outs := p.outs.map fun q => if q.tag == o.tag then o else q }
    if b.laneOn h && b.laneFree h then resend h o b else b

/-- A response to an outstanding command (R73): what its issuer does with it. -/
def answered (h : Nat) (o : OutCmd) (p : RspPacket) (b : Block) : Block :=
  let b := dropOut h o.tag b
  match o.cmd.org with
  | .header => headerRead h p.payload b
  | .section_ at_ len => chunkRead h at_ len p.payload b
  | .relink => relinkRead h p.payload b
  | .retrain => retrainNow h b
  | .mailbox => mailboxAnswer h p.tag p.rstat p.payload b
  | .shutter close => calAnswered h close b
  | _ => b

/-- A response packet (R73, R83). One with a nonzero RSTAT to a command whose attempt has already failed, and that waits for its
next, is no further attempt. -/
def responseIn (h : Nat) (p : RspPacket) (b : Block) : Block :=
  if !p.crcOk then b
  else match (b.port h).outs.find? fun o => o.tag == p.tag with
    | none => b.inc (Reg.HD_CNT_H h) 15 0 1
    | some o =>
      if p.rstat != 0 && o.cmd.org != .mailbox then (if o.waits then b else attemptFails h o b) else answered h o p b

/-! ### Packets (R74 to R76) -/

/-- The sync headers of a packet's blocks, which are those of any blocks (R74, R75). -/
def headersIn (h : Nat) (u : Upstream) (b : Block) : Block :=
  forEach (List.range 4) (fun lane b => forEach (u.headers lane) (syncHeader h lane) b) b

/-- The lanes have brought a packet, of which nothing has been taken yet (R74, R83). -/
def arrival (h : Nat) (u : Upstream) (b : Block) : Block := notePacket h (headersIn h u b)

/-- What the lanes of a port deliver as a packet (R74, R75): it is discarded while the link is down or without start blocks
on all four lanes; else `f` takes it. -/
def packetIn (h : Nat) (u : Upstream) (f : Block → Block) (b : Block) : Block :=
  if !b.receives h then b
  else if (headersIn h u b).linkUp h && u.starts then f (arrival h u b) else headersIn h u b

/-- A line packet arrives (R82). One of another TYPE is none: it is dropped uncounted, though it has come from the head and
TR_TMO begins again with it (DESIGN CHOICE, log entry 141; the same for trailers and responses). -/
def linePacketIn (h : Nat) (u : Upstream) (b : Block) : Block :=
  packetIn h u (fun b => match u.line (b.lineFmt h) with
    | some p => lineIn h p b
    | none => b) b

/-- A trailer arrives (R83). -/
def trailerPacketIn (h : Nat) (u : Upstream) (b : Block) : Block :=
  packetIn h u (fun b => match u.trailer with
    | some p => trailerIn h p b
    | none => b) b

/-- A response arrives (R73). -/
def responsePacketIn (h : Nat) (u : Upstream) (b : Block) : Block :=
  packetIn h u (fun b => match u.response with
    | some p => responseIn h p b
    | none => b) b

/-- The response timeout of the oldest overdue command has passed (R73). -/
def commandTimeout (h : Nat) (b : Block) : Block :=
  match (b.port h).outs.find? fun o => !o.waits && decide (o.deadline ≤ b.now) with
  | some o => attemptFails h o b
  | none => b

/-- HD_LINK_CMD.CMD_GO (R73): the mailbox command is sent, or refused. A LEN above 64, for which the manual gives no
meaning, takes a free length. A CMD_GO while BUSY is 1 is ignored (DESIGN CHOICE, log entry 118). A refused command sets
RSTAT 0xFE and leaves LEN and TAG of HD_RSP (DESIGN CHOICE, log entry 139). -/
def mailboxGo (h : Nat) (b : Block) : Block :=
  let c := Reg.HD_CMD h
  if b.bit c 31 then b
  else
    let opc := b.fld c 7 0
    if opc = 7 || (0x40 ≤ opc && opc ≤ 0x7F) then
      let (n, b) := if b.fld c 14 8 ≤ 64 then (b.fld c 14 8, b)
        else
          let (v, b) := b.draw
          (v.toNat % 65, b)
      queueCmd h { opc := BitVec.ofNat 8 opc, payload := b.getBytes (Reg.HD_CMD_DATA h 0) n, org := .mailbox } (b.setBit c 31)
    else b.setFld (Reg.HD_RSP h) 7 0 0xFE

/-! ### Lane delay (R80) -/

/-- A MEASURE that waits sends its K28.3 once the lane carries nothing else, and timing starts (R70, R80). -/
def echoSend (h : Nat) (b : Block) : Block :=
  if (b.port h).echoWaits && b.laneOn h && b.laneFree h then
    (b.setPort h { b.port h with measure := some b.now, echoAt := some b.now, echoWaits := false }).emit (.echo h (.k 28 3) b.now)
  else b

/-- HD_LINK_CMD.MEASURE (R80): K28.3 leaves the lane, after any command in progress. While the lane does not transmit it is
ignored, and one measurement that is outstanding is begun again (DESIGN CHOICE, log entry 142). -/
def measureStart (h : Nat) (b : Block) : Block :=
  if b.laneOn h then echoSend h (b.setPort h { b.port h with echoWaits := true, measure := none }) else b

/-- The head's answer starts `sub` after the last tick; what the lanes deliver while the link is down is discarded (R75).
Without a loaded header TURN is not known, and LDELAY is a free value. -/
def measureEnd (h sub : Nat) (b : Block) : Block :=
  match (b.port h).measure with
  | none => b
  | some t =>
    if !b.linkUp h then b else
    let b := b.setPort h { b.port h with measure := none }
    let rtt := b.now + sub - t
    if 0xFFFF ≤ rtt then b.wrN (Reg.HD_RTT h) 0xFFFF
    else
      let b := b.wrN (Reg.HD_RTT h) rtt
      match (b.port h).hdr with
      | some c => b.wrN (Reg.HD_LDELAY h) (satU 16 (roundDiv ((rtt : Int) - c.turn - 96) 2))
      | none =>
        let (v, b) := b.draw
        b.wrN (Reg.HD_LDELAY h) (v.toNat % 65536)

/-- No answer within 10 µs. -/
def measureTimeout (h : Nat) (b : Block) : Block :=
  match (b.port h).measure with
  | some t => if t + 10 * tuUs ≤ b.now then (b.setPort h { b.port h with measure := none }).wrN (Reg.HD_RTT h) 0xFFFF else b
  | none => b

end Sys2Proof.Machine
end

