-- ==== Sys2Proof/Machine/LedgerRun.lean ====
section
/-! DEFINITION. The ledger at work (15_ledger.md): window accesses, writes as they start and complete, LWR. -/

namespace Sys2Proof.Machine

/-- The ledger window (R300). -/
def inLedger (off : Nat) : Bool := decide (0x080000 ≤ off) && decide (off < 0x0C0000)

/-- A word of the window. -/
def Block.windowWord (b : Block) (off : Nat) : Word := b.ldgWord (off - 0x080000)

/-- The bytes a write of the window programs, by its byte enables (R302). -/
def windowBytes (a : Nat) (val : Word) (be : BitVec 4) : List (Nat × Byte) :=
  ((List.range 4).filter fun i => be.getLsbD i).map fun i => (a + i, BitVec.ofNat 8 (val.toNat >>> (8 * i)))

/-- Hold an access (R305). -/
def holdAccess (h : Held) (b : Block) : Block := { b with ldg := { b.ldg with held := b.ldg.held ++ [h] } }

/-- A write of the window at an offset is held: a page is being programmed, or the queue it would enter is full (R304,
R305). -/
def Block.writeHeld (b : Block) (off : Nat) : Bool :=
  b.ldg.prog.isSome || (inUserArea (off - 0x080000) && decide (32 ≤ b.ldg.queue.length))

/-- A write of the window as it is performed (R302): the bytes it programs; outside the user area it is discarded and
counted. -/
def windowPerform (off : Nat) (val : Word) (be : BitVec 4) (b : Block) : List (Nat × Byte) × Block :=
  let a := off - 0x080000
  if inUserArea a then (windowBytes a val be, b) else ([], b.inc Reg.LDG_CNT_A 15 0 1)

/-- A write to the window by the host or the service port (R302, R305). -/
def windowWrite (r : Requester) (off : Nat) (val : Word) (be : BitVec 4) (b : Block) : Block :=
  if be = 0 then b
  else if b.writeHeld off then holdAccess (.write r off val be) b
  else
    match windowPerform off val be b with
    | ([], b) => b
    | (xs, b) => queueWrite (.raw xs) b

/-- LDG_CMD.UFREE (R314). -/
def ufree (b : Block) : Block :=
  let k := b.fld Reg.LDG_UKIND 7 0
  if 0x80 ≤ k ∧ k ≤ 0xBF then
    if (udirEntry (udirOf b).1 k).2.2 then queueWrite (.ufree (BitVec.ofNat 8 k)) b else b
  else b

/-- The COUNTERS record is due (R310). -/
def Block.countersDue (b : Block) : Bool :=
  decide (b.ldg.lastCounters + max 1 (b.fld Reg.LDG_CTL 15 0) * 1000 * tuMs ≤ b.now)

/-- Queue the COUNTERS record. -/
def queueCounters (b : Block) : Block :=
  let b := queueWrite (.twin 0x02 0 (countersBody b)) b
  { b with ldg := { b.ldg with lastCounters := b.now } }

/-- The start of a write by LWR: its stall has no deadline any more (R253); where no room is left it answers 2. -/
def userStarts (t : Thr) (room : Bool) (b : Block) : Block :=
  match (b.thr t).stall with
  | some (.lwr rd (some _)) =>
    if room then setTState t 1 0 (b.setThr t { b.thr t with stall := some (.lwr rd none) }) else endStall t rd 2 8 b
  | _ => b

/-- The end of a write by LWR: the thread goes on with 0 (R253). -/
def userEnds (t : Thr) (b : Block) : Block :=
  match (b.thr t).stall with
  | some (.lwr rd none) => endStall t rd 0 8 b
  | _ => b

/-- A request is a shutdown record. -/
def LdgReq.isShutdown : LdgReq → Bool
  | .shutdown _ => true
  | _ => false

/-- The write that starts next: a shutdown record, or the oldest request (R304). -/
def Block.nextWrite (b : Block) : Option LdgReq :=
  match b.ldg.queue.find? LdgReq.isShutdown with
  | some q => some q
  | none => b.ldg.queue.head?

/-- A write of CAL_SUM or a user kind is mirrored with the SEQ it takes (R338). -/
def mirrorRecord (q : LdgReq) (b : Block) : Block :=
  match q with
  | .twin 0x20 head body => mirror (.ledger 0x20 (Fin.ofNat 24 head) body (twinTarget 0x20 head b).2.1) b
  | .user _ kind body => mirror (.ledger kind 0 body (userSeq kind b)) b
  | _ => b

/-- The next queued write begins where none is in progress and the supply allows (R304, R317); once SHUT is entered, the
shutdown record alone (R316). -/
def writeStart (b : Block) : Block :=
  if b.ldg.prog.isSome || b.coreLow || b.bud.down then b
  else
    match b.nextWrite with
    | none => b
    | some q =>
      if b.bud.shutting && !q.isShutdown then b else
      let b := startWrite q (mirrorRecord q { b with ldg := { b.ldg with queue := b.ldg.queue.erase q, delayed := b.ldg.delayed.erase q } })
      match q with
      | .user t _ _ => userStarts t b.ldg.prog.isSome b
      | _ => b

/-- The order in which held accesses are served: the host, threads 0 to 3, the service port (R25, R305,
R322). -/
def Held.rank : Held → Nat
  | .read r _ | .write r _ _ _ => orderOf r
  | .thread t => 1 + t.val

/-- The word a held thread access reads: the window, or the register beside it. -/
def Block.besideWord (b : Block) (off : Nat) : Word := if inLedger off then b.windowWord off else b.rd off

/-- The offset after a data word of a target transaction (R321). -/
def nextOff (inc : Bool) (off : Nat) : Nat := if inc then (off + 4) % 0x200000 else off

/-- The held read of a target transaction completes (R322): its word goes out next; where it was due before, the word
after it is fetched. -/
def targetServed (off : Nat) (b : Block) : Block :=
  match b.svc.tgt with
  | some g =>
    match g.hdr with
    | some (rd, inc, next) =>
      let g := if g.late then
          { g with late := false, next := some (b.besideWord next), hdr := some (rd, inc, nextOff inc next) }
        else { g with next := some (b.windowWord off) }
      { b with svc := { b.svc with tgt := some g } }
    | none => b
  | none => b

/-- Serve a held access (R305): a read is answered, a thread goes on with the cycles left of its instruction (R251); a
write gives the bytes it programs. -/
def serveHeld (h : Held) (b : Block) : List (Nat × Byte) × Block :=
  match h with
  | .read .svc off => ([], targetServed off b)
  | .read r off => ([], b.emit (.data r off (b.windowWord off)))
  | .write _ off val be => windowPerform off val be b
  | .thread t =>
    match (b.thr t).stall with
    | some (.hold (.ldc _ rd ra imm) _) =>
      let off := (b.greg t ra + imm.signExtend 64).toNat
      ([], endStall t rd ((b.besideWord off).setWidth 64) 8 b)
    | some (.hold (.ldcd _ rd ra imm) _) =>
      let off := (b.greg t ra + imm.signExtend 64).toNat
      ([], endStall t rd (u64 (b.besideWord off) (b.besideWord (off + 4))) 10 b)
    | some (.hold (.stc _ rs ra imm) _) =>
      let off := (b.greg t ra + imm.signExtend 64).toNat
      windowPerform off ((b.greg t rs).setWidth 32) 0xF (endStall t 0 0 1 b)
    | _ => ([], b)

/-- A held access is a write of the user area, which programs a page. -/
def Held.programs (b : Block) : Held → Bool
  | .write _ off _ _ => inUserArea (off - 0x080000)
  | .thread t =>
    match (b.thr t).stall with
    | some (.hold (.stc _ _ ra imm) _) => inUserArea ((b.greg t ra + imm.signExtend 64).toNat - 0x080000)
    | _ => false
  | .read .. => false

/-- Serve held accesses in order up to the first write, which programs the next page; those behind it stay held. While the
core supply is low no write starts (R317): it joins the queue, or stays held where that is full (R304; DEDUCED,
log entry 91). -/
def serveAll : List Held → Block → Block
  | [], b => { b with ldg := { b.ldg with held := [] } }
  | h :: hs, b =>
    if b.coreLow && h.programs b && decide (32 ≤ b.ldg.queue.length) then
      let b := serveAll hs b
      { b with ldg := { b.ldg with held := h :: b.ldg.held } }
    else
    match serveHeld h b with
    | ([], b) => serveAll hs b
    | (xs, b) =>
      if b.coreLow then serveAll hs (queueWrite (.raw xs) b) else
      let prog := match b.ldg.prog with
        | some p => { p with pages := xs :: p.pages }
        | none => { req := .raw xs, seq := 0, pages := [xs] }
      { b with ldg := { b.ldg with held := hs, prog := some prog } }

/-- A record abandoned at shutdown (R316): counted, and an entry queued that the emptied queue loses. -/
def abandonRest (b : Block) : Block :=
  let b := b.inc Reg.LDG_CNT_C 15 0 1
  let b := match b.ldg.prog with
    | some p => logT24 0x0005 false (p.req.kind :: leBytes 4 p.seq.toNat) b
    | none => b
  { b with ldg := { b.ldg with prog := none, queue := b.ldg.queue.filter LdgReq.isShutdown } }

/-- Held accesses in the order in which they are served (R25); once SHUT is entered, writes that would go ahead of the
shutdown record are discarded as queued writes are (R295, R304, R316). -/
def Block.toServe (b : Block) : List Held :=
  ((List.range 6).flatMap fun k => b.ldg.held.filter fun h => h.rank == k).filter fun h => !(b.bud.shutting && h.programs b)

/-- A page program completes (R303): accesses held behind it are served, and the write goes on or ends (R316 in a
shutdown). -/
def pageDone (b : Block) : Block :=
  match b.ldg.prog with
  | none => b
  | some p =>
    let b := finishPage b
    let b := match b.ldg.prog with
      | some _ => if b.bud.shutting && !p.req.isShutdown then abandonRest b else b
      | none =>
        match p.req with
        | .user t _ _ => userEnds t b
        | _ => b
    refreshLedgerRegs (serveAll b.toServe b)

/-- JSUM_WRITE (R310): a JSUM wanted within the second after the last is queued at its end. -/
def jsumWrite (b : Block) : Block := if b.ldg.wantJsum && b.jsumDue then queueJsum b else b

/-- LWR issues (R253, R254). -/
def lwr (t : Thr) (rd ra rb : GReg) (b : Block) : Block :=
  let a := (b.greg t ra).toNat
  let len := ((b.greg t rb).toNat) % 65536
  let kind := (b.greg t rb).toNat / 65536 % 256
  if a ≥ 65536 ∨ a % 8 ≠ 0 then faultThread t 3 ((b.greg t ra).setWidth 32) b
  else if len = 0 ∨ 512 < len ∨ kind < 0x80 ∨ 0xBF < kind then advance t 8 (setG t rd 1 b)
  else if 65536 < a + len then faultThread t 3 ((b.greg t ra).setWidth 32) b
  else if b.dmemSpoilt a len then faultThread t 3 ((b.greg t ra).setWidth 32) (sramUe 1 b)
  else
    let body := b.dmemReads a len
    match (userBytes (BitVec.ofNat 8 kind) body 1 b).1 with
    | none => advance t 8 (setG t rd 2 b)
    | some _ =>
      stallThread t (.lwr rd (some (b.now + b.ltmo))) (queueWrite (.user t (BitVec.ofNat 8 kind) body) b)

/-- LOG (R253, R312, R313): the entry is queued, or dropped under the rate rule. -/
def logEntry (t : Thr) (rd ra : GReg) (imm : BitVec 16) (b : Block) : Block :=
  let a := (b.greg t ra).toNat
  if a % 8 ≠ 0 ∨ 65536 < a + 32 then faultThread t 3 ((b.greg t ra).setWidth 32) b
  else if b.dmemSpoilt a 32 then faultThread t 3 ((b.greg t ra).setWidth 32) (sramUe 1 b)
  else
    let bytes := b.dmemReads a 32
    let urgent := imm.getLsbD 0
    if !urgent && b.logTooSoon then advance t 8 (setG t rd 1 (b.inc Reg.SEQ_CNT 15 0 1))
    else
      advance t 8 (setG t rd 0
        (queueLog (BitVec.ofNat 16 (ofLe (bytes.take 2))) (BitVec.ofNat 8 (2 + t.val)) urgent
          ((bytes.drop 16).take 12) b))

/-! ### The standing program (R256, R257) -/

/-- SAVE or ERASE: the record is queued and SAVE_BUSY set. -/
def saveProgram (body : List Byte) (b : Block) : Block :=
  queueWrite (.twin 0x30 0 body) (b.setBit Reg.SEQ_STAT 11)

/-- SEQ_CMD.SAVE (R257). -/
def seqSave (b : Block) : Block :=
  let len := b.fld Reg.SEQ_SP 13 0
  let entry := b.fld Reg.SEQ_SP 29 16
  if b.bit Reg.SEQ_STAT 11 then b
  else if len = 0 ∨ 12288 < len ∨ len ≤ entry then b.setBit Reg.SEQ_STAT 12
  else
    saveProgram (leBytes 2 len ++ leBytes 2 entry ++ leBytes 4 0
      ++ ((b.seq.imem.getList (fun _ => 0) 0 len).map fun w => leBytes 4 w.toNat).flatten) b

/-- SEQ_CMD.ERASE (R257). -/
def seqErase (b : Block) : Block := if b.bit Reg.SEQ_STAT 11 then b else saveProgram [] b

/-- A request is the standing program's. -/
def LdgReq.isProgram : LdgReq → Bool
  | .twin kind _ _ => kind == 0x30
  | _ => false

/-- The standing program's write has completed (R257). -/
def saveDone (b : Block) : Block :=
  let busy := (match b.ldg.prog with | some p => p.req.isProgram | none => false) || b.ldg.queue.any LdgReq.isProgram
  if b.bit Reg.SEQ_STAT 11 && !busy then b.clrBit Reg.SEQ_STAT 11 else b

end Sys2Proof.Machine
end

