-- ==== Sys2Proof/Machine/Budget.lean ====
section
/-! DEFINITION. The power budget and the thermal model (14_budget_and_thermal.md, R282 to R296). -/

namespace Sys2Proof.Machine

/-! ### The budget decision (R289 to R291) -/

/-- A temperature threshold as it acts: at most 115 °C (R286). -/
def Block.thrAt (b : Block) (off : Nat) : Int := min (b.snum off) 0x7300

/-- The last estimate (THM_EST). -/
def Block.est (b : Block) : Int := b.snum Reg.THM_EST

/-- The allowance by temperature, per mille (R289). -/
def Block.allowTh (b : Block) : Int :=
  if b.bit Reg.THM_STAT 1 then clampI 0 1000 (1000 - (5 * (b.est - b.thrAt Reg.THM_THR_THROT)) / 16) else 1000

/-- The allowance by the host's cap (R289). -/
def Block.allowCap (b : Block) : Int :=
  if b.num Reg.BUD_CAP = 0 then 1000
  else clampI 0 1000 (1000 + (1000 * ((b.num Reg.BUD_CAP : Int) - b.num Reg.BUD_PTOT)) / (max 1 (b.num Reg.BUD_BCNOM) : Nat))

/-- The step of an allowance (R290). -/
def stepOf (a : Nat) : Nat :=
  if 800 ≤ a then 0 else if 600 ≤ a then 1 else if 400 ≤ a then 2 else if 1 ≤ a then 3 else 4

/-- The allowance at which a step is left (R291). -/
def stepLeave (s : Nat) : Nat :=
  match s with
  | 0 => 0
  | 1 => 840
  | 2 => 640
  | 3 => 440
  | _ => 41

/-- The step after a decision, from the one before it (R291). -/
def stepNext (old a : Nat) : Nat := if old < stepOf a then stepOf a else if stepLeave old ≤ a then stepOf a else old

/-- BUD_CTL.STEP_MIN as it acts (R291). -/
def Block.stepMin (b : Block) : Nat := min 4 (b.fld Reg.BUD_CTL 10 8)

/-- Class C may be granted: the allowance has been 1000 at every decision of the last 10 ms (R291). -/
def Block.mayGrant (b : Block) (a : Nat) : Bool :=
  a == 1000 && !b.bit Reg.BUD_CTL 0 && (match b.bud.lowAt with
    | some t => decide (t + 10 * tuMs < b.now)
    | none => true)

/-- The step and the Class C grant in force under an allowance (R291); relay updates begin a new interval as the grant
returns (R190). -/
def budgetSettle (a : Nat) (b : Block) : Block :=
  let step := max b.bud.calcStep b.stepMin
  let old := b.fld Reg.BUD_STAT 2 0
  let grant := b.mayGrant a
  let had := b.bit Reg.BUD_STAT 3
  let b := if old < step then b.inc Reg.BUD_CNT 31 16 1 else b
  let b := if had && !grant then b.inc Reg.BUD_CNT 15 0 1 else b
  let b := if !had && grant then { b with seam := { b.seam with updFrom := b.ns } } else b
  (b.putBit Reg.BUD_STAT 3 grant).setFld Reg.BUD_STAT 2 0 step

/-- A budget decision (R289 to R291). -/
def decision (b : Block) : Block :=
  let th := b.allowTh
  let cap := b.allowCap
  let a := (min th cap).toNat
  let lowAt := if a < 1000 then some b.now else b.bud.lowAt
  let cs := stepNext b.bud.calcStep a
  let b := { b with bud := { b.bud with lowAt := lowAt, calcStep := cs, decided := true } }
  let b := ((b.setFld Reg.BUD_STAT 25 16 a).putBit Reg.BUD_STAT 5 (decide (cap < th))).putBit Reg.BUD_STAT 4
    (b.bit Reg.THM_STAT 1)
  budgetSettle a b

/-! ### Power samples (R282) -/

/-- Add a sample's energy over the part of its period since the last evaluation (R283). -/
def addEnergy (mw : List Nat) (b : Block) : Block :=
  let dt := b.ns - max b.bud.prev b.bud.sample
  let energy := List.zipWith (fun e p => e + p * dt) b.bud.energy mw
  { b with bud := { b.bud with energy := energy, sample := b.ns } }

/-- The eight samples as they read (R282); a domain without one reads 0. -/
def samplesOf (mw : List (BitVec 24)) : List Nat := (List.range 8).map fun d => (mw.getD d 0).toNat

/-- A power sample (R282): powers, HBM utilisation and its deferral (R21, R293), link load (R277), a decision. -/
def powerSample (mw : List (BitVec 24)) (util : Nat) (b : Block) : Block :=
  let ps := samplesOf mw
  let b := addEnergy ps b
  let b := forEach (List.range 8) (fun d b => b.wrN (Reg.BUD_PWR d) (ps.getD d 0)) b
  let b := b.wrN Reg.BUD_PTOT (ps.foldl (· + ·) 0)
  let b := b.setFld Reg.BUD_HBM_UTIL 7 0 util
  let b := if 80 < util then b.setBit Reg.BUD_STAT 6 else if util < 75 then b.clrBit Reg.BUD_STAT 6 else b
  let b := b.setFld Reg.HOST_LOAD 7 0 (min 255 (b.host.loadBytes * 100 / 1310000))
  let bud := { b.bud with calDone := false, bistDone := false, mergeDone := false }
  decision { b with host := { b.host with loadBytes := 0 }, bud := bud }

/-! ### The ambient (R285) -/

/-- An ambient value arrives. -/
def ambientArrives (v : Int) (b : Block) : Block :=
  { b.clrBit Reg.THM_STAT 4 with bud := { b.bud with amb := some (v, b.now) } }

/-- The host writes THM_AMB. -/
def ambientWritten (v : Int) (b : Block) : Block :=
  ambientArrives v { b with bud := { b.bud with ambHost := some b.now } }

/-- The sensor's value arrives: a host write of the same cycle prevails. -/
def ambientSensed (v : Int) (b : Block) : Block := if b.bud.ambHost = some b.now then b else ambientArrives v b

/-- The ambient value in use is more than 1 s old, or there is none. -/
def Block.ambStale (b : Block) : Bool :=
  match b.bud.amb with
  | some (_, t) => decide (t + 1000 * tuMs < b.now)
  | none => true

/-- The ambient in use (R285). -/
def Block.ambient (b : Block) : Int :=
  match b.bud.amb with
  | some (v, _) => if b.ambStale then min (b.snum Reg.THM_AMB_WORST) 0x6400 else v
  | none => min (b.snum Reg.THM_AMB_WORST) 0x6400

/-- The age of the ambient in ms (THM_AMB_AGE). -/
def Block.ambAge (b : Block) : Nat :=
  match b.bud.amb with
  | some (_, t) => min 0xFFFFFFFF ((b.now - t) / tuMs)
  | none => 0xFFFFFFFF

/-- The ambient ages out (R285). -/
def ambientAgesOut (b : Block) : Block := if b.ambStale then b.setBit Reg.THM_STAT 4 else b

/-! ### Evaluations (R283, R284) -/

/-- Start an evaluation, or join the one in progress. -/
def evalStart (b : Block) : Block :=
  match b.bud.evalAt with
  | some _ => b
  | none => { b.setBit Reg.THM_STAT 5 with bud := { b.bud with evalAt := some (b.now + 80 * tuNs) } }

/-- THM_STALE as it acts, in reference units (R284). -/
def Block.staleTu (b : Block) : Nat := max 1 (min 1000 (b.fld Reg.THM_STALE_MS 15 0)) * tuMs

/-- The staleness guard (R284). -/
def stalenessGuard (b : Block) : Block :=
  if b.bud.evalAt.isNone && decide (b.bud.lastRef + b.staleTu ≤ b.now) then
    evalStart ((b.setBit Reg.THM_STAT 3).inc Reg.THM_CNT 31 16 1)
  else b

/-- A node after `dt` ns with mean powers `pbar` (R283). -/
def nodeStep (amb : Int) (pbar : List Rat) (dt i : Nat) (t : Rat) : Rat :=
  let tss : Rat := (List.range 8).foldl (fun s d => s + Config.rth i d * pbar.getD d 0) (amb : Rat)
  tss + (t - tss) * ((expNeg dt (max 1 (Config.tau i)) : Rat) / (expOne : Nat))

/-- The mean powers since the last evaluation (R283): a part-period uses the latest sample. -/
def Block.meanPower (b : Block) (dt : Nat) : List Rat :=
  let rest := b.ns - max b.bud.prev b.bud.sample
  (List.range 8).map fun d =>
    if dt = 0 then (b.num (Reg.BUD_PWR d) : Rat)
    else ((b.bud.energy.getD d 0 + b.num (Reg.BUD_PWR d) * rest : Nat) : Rat) / (dt : Nat)

/-- The node that gives the estimate: the hottest; where several are, one of them. -/
def hotNode (ts : List Int) (est : Int) (b : Block) : Nat × Block :=
  let hot := (List.range 6).filter fun i => ts.getD i 0 == est
  match hot with
  | [i] => (i, b)
  | _ => let (v, b) := b.draw; (hot.getD (v.toNat % max 1 hot.length) 0, b)

/-- The model advances to the present (R283). -/
def thermalModel (b : Block) : Block :=
  let dt := b.ns - b.bud.prev
  let pbar := b.meanPower dt
  let nodes := (List.range 6).map fun i => nodeStep b.ambient pbar dt i (b.bud.nodes.getD i 0)
  let ts := nodes.map fun t => satS 32 (roundRat t)
  let est := ts.foldl max (ts.headD 0)
  let b := { b with bud := { b.bud with nodes := nodes, energy := List.replicate 8 0, prev := b.ns } }
  let b := forEach (List.range 6) (fun i b => b.wr (Reg.THM_NODE i) (BitVec.ofInt 32 (ts.getD i 0))) b
  let (hot, b) := hotNode ts est b
  let b := { b with bud := { b.bud with hot := hot } }
  (b.wr Reg.THM_EST (BitVec.ofInt 32 est)).setFld Reg.THM_HOTNODE 2 0 hot

/-! ### Thresholds (R286, R287) -/

/-- A threshold: its state bit in THM_STAT, its level, the place of its hysteresis in THM_HYS. -/
def thrRegs (k : Nat) : Nat × Nat := (match k with | 0 => Reg.THM_THR_WARN | 1 => Reg.THM_THR_THROT | _ => Reg.THM_THR_SHUT, 8 * k)

/-- The hysteresis of a threshold in 1/256 °C. -/
def Block.thrHys (b : Block) (k : Nat) : Int := 64 * b.fld Reg.THM_HYS (8 * k + 7) (8 * k)

/-- The dwell of threshold `k` (0 WARN, 1 THROTTLE, 2 SHUT) at an evaluation, and its state (R286); whether it is
entered. -/
def dwell (k : Nat) (b : Block) : Bool × Block :=
  let thr := b.thrAt (thrRegs k).1
  let (i, o) := b.bud.dwell.getD k (0, 0)
  let put (d : Nat × Nat) (b : Block) : Block := { b with bud := { b.bud with dwell := b.bud.dwell.set k d } }
  if !b.bit Reg.THM_STAT k then
    let i := if thr ≤ b.est then i + 1 else 0
    if max 1 (b.fld Reg.THM_CTL 3 0) ≤ i then (true, put (0, 0) (b.setBit Reg.THM_STAT k)) else (false, put (i, o) b)
  else
    let o := if b.est < thr - b.thrHys k then o + 1 else 0
    if max 1 (b.fld Reg.THM_CTL 7 4) ≤ o && k != 2 then (false, put (0, 0) (b.clrBit Reg.THM_STAT k))
    else (false, put (i, o) b)

/-- The body of a shutdown record (R311), its fields narrowed as R7 says. -/
def shutdownBody (b : Block) : List Byte :=
  let s16 (x : Int) : List Byte := leBytes 2 (BitVec.ofInt 16 (satS 16 x)).toNat
  let p16 (mw : Nat) : List Byte := leBytes 2 (satU 16 (roundDiv mw 10))
  leBytes 8 b.ns ++ s16 b.est ++ ((List.range 6).map fun i => s16 (b.snum (Reg.THM_NODE i))).flatten
    ++ s16 b.ambient ++ [BitVec.ofNat 8 (b2n b.ambStale), 0]
    ++ ((List.range 8).map fun d => p16 (b.num (Reg.BUD_PWR d))).flatten ++ p16 (b.num Reg.BUD_PTOT)
    ++ leBytes 2 (b.fld Reg.BUD_STAT 25 16) ++ [0, 0]

/-- SHUT is entered (R295, R350, R354): an active-member fault, the journal frozen, queued writes discarded but for the
shutdown record, threads stalled in an LWR stopped. -/
def enterShutdown (b : Block) : Block :=
  let b := freezeJournal 3 (activeFault 1 b)
  let b := forEach (List.range 4) (fun t b =>
    match (b.thr t).stall with
    | some (.lwr _ _) => haltThread t b
    | _ => b) b
  let held := b.ldg.held.filter fun h => !h.programs b
  let ldg := { b.ldg with queue := [.shutdown (shutdownBody b)], delayed := [], wantJsum := false, held := held }
  delayWrites { b with ldg := ldg, bud := { b.bud with shutting := true, shutAt := b.now } }

/-- Threads whose TEMP has joined the evaluation go on with its answer (R250). -/
def temperaturesAnswer (b : Block) : Block :=
  forEach (List.range 4) (fun t b =>
    match (b.thr t).stall with
    | some (.temp rd) => endStall (Fin.ofNat 4 t) rd (BitVec.ofInt 64 b.est) 0 b
    | _ => b) b

/-- An evaluation completes (R283 to R287): est, thresholds, a decision, and the entry into a state. -/
def evaluate (b : Block) : Block :=
  let b := { b.clrBit Reg.THM_STAT 5 with bud := { b.bud with evalAt := none, lastRef := b.now } }
  let b := thermalModel (b.wr64 Reg.THM_EVTIME_LO b.tim.ns)
  let (shut, b) := dwell 2 b
  let (throttle, b) := dwell 1 b
  let (warn, b) := dwell 0 b
  let b := decision b
  let b := if throttle then raiseBit 10 (b.inc Reg.THM_CNT 15 0 1) else b
  let b := if warn then raiseBit 9 (b.inc Reg.THM_CNT2 31 16 1) else b
  let b := temperaturesAnswer b
  if shut && !b.bud.shutting then enterShutdown b else b

/-- THERMAL_EVALUATION: the evaluation in progress has run its 40 cycles. -/
def evalDone (b : Block) : Block :=
  match b.bud.evalAt with
  | some t => if t ≤ b.now then evaluate b else b
  | none => b

/-- The T24 stops (R295): the shutdown record is written, or the supply has been low for the 4 ms it had. -/
def Block.mayStop (b : Block) : Bool :=
  b.bud.shutting && !b.bud.down && b.ldg.prog.isNone
    && (!b.ldg.queue.any LdgReq.isShutdown || (b.coreLow && decide (b.bud.shutAt + 4 * tuMs ≤ b.now)))

/-- The headroom in mW (R294): the lesser of the thermal and the cap headroom; before the first budget decision the reset
value of BUD_HEADROOM (R298; DESIGN CHOICE, log entry 131). -/
def Block.headroom (b : Block) : Int :=
  if !b.bud.decided then 0x7FFFFFFF else
  let d := b.thrAt Reg.THM_THR_THROT - b.est
  let r := b.fld Reg.THM_RHOT 15 0
  let th : Int := if r = 0 then Config.headroomByZero d else roundRat ((d * 1000 : Int) / (r : Nat))
  let cap : Int := if b.num Reg.BUD_CAP = 0 then 0x7FFFFFFF else (b.num Reg.BUD_CAP : Int) - b.num Reg.BUD_PTOT
  clampI (-(2 ^ 31)) (2 ^ 31 - 1) (min th cap)

/-- BUDG (R250). -/
def Block.budget (b : Block) : BitVec 64 :=
  BitVec.ofNat 64 ((BitVec.ofInt 32 b.headroom).toNat + 2 ^ 32 * b.fld Reg.BUD_STAT 2 0
    + 2 ^ 35 * b2n (b.bit Reg.BUD_STAT 3) + 2 ^ 36 * b2n (b.bit Reg.BUD_STAT 4))

end Sys2Proof.Machine
end

