-- ==== Sys2Proof/Machine/Service.lean ====
section
/-! DEFINITION. The service port's controller role and the ambient sensor (16_service_port.md, R326 to R329), and the
fall and rise of SSEL0 (R321, R324). -/

namespace Sys2Proof.Machine

/-- Replace the service port's hidden state. -/
def setSvc (s : Svc) (b : Block) : Block := { b with svc := s }

/-- Word lengths as they act (R326). -/
def wlenOf (n : Nat) : Nat := max 4 (min 32 n)

/-- The divider as it acts (R326). -/
def Block.spiDiv (b : Block) : Nat := max 4 (b.fld Reg.SVC_MCTL 31 24)

/-- The low `n` bits of a word. -/
def lowBits (n : Nat) (w : Word) : Word := BitVec.ofNat 32 (w.toNat % 2 ^ n)

/-- The transfer that a GO asks for (R326), as SVC_MCTL and the MTX registers stand at the pulse (DEDUCED, log entry 76). -/
def Block.goXfer (b : Block) : Xfer :=
  let n := wlenOf (b.fld Reg.SVC_MCTL 13 8)
  { poll := false, st := .waiting, collisions := 0, sel := b.fld Reg.SVC_MCTL 1 0, mode := b.fld Reg.SVC_MCTL 3 2, wlen := n,
    div := b.spiDiv,
    words := (List.range (b.fld Reg.SVC_MCTL 19 16 + 1)).map fun k => lowBits n (b.rd (Reg.SVC_MTX k)) }

/-- The transfer of an ambient poll (R329), as SVC_AMB_CTL and SVC_AMB_CMD stand when it falls due; an SSEL of 0 acts as 1. -/
def Block.pollXfer (b : Block) : Xfer :=
  let n := wlenOf (b.fld Reg.SVC_AMB_CTL 13 8)
  { poll := true, st := .waiting, collisions := 0, sel := max 1 (b.fld Reg.SVC_AMB_CTL 2 1), mode := b.fld Reg.SVC_AMB_CTL 4 3,
    wlen := n, div := b.spiDiv, words := [lowBits n (b.rd Reg.SVC_AMB_CMD), 0] }

/-- The transfer takes the bus from word 0 (R326, R327, R329). -/
def drive (x : Xfer) (b : Block) : Block :=
  (setSvc { b.svc with xfer := some { x with st := .driving } } b).emit (.spi x.sel x.mode x.wlen x.div x.words)

/-- Begin a transfer: it waits for the bus to be idle (R327). -/
def newXfer (x : Xfer) (b : Block) : Block := setSvc { b.svc with xfer := some x } b

/-- A transfer has ended; the one waiting for it begins, a poll first (R328). -/
def xferEnds (b : Block) : Block :=
  let b := setSvc { b.svc with xfer := none, idleFrom := b.now } b
  match b.svc.pollWaits, b.svc.goWaits with
  | some x, _ => newXfer x (setSvc { b.svc with pollWaits := none } b)
  | none, some x => newXfer x (setSvc { b.svc with goWaits := none } b)
  | none, none => b

/-- SVC_MCMD.GO (R326). -/
def svcGo (b : Block) : Block :=
  if b.fld Reg.SVC_MCTL 1 0 = 0 then b.setBit Reg.SVC_STAT 2
  else if b.bit Reg.SVC_STAT 0 || !b.bit Reg.SVC_CTL 1 || b.bud.down then b
  else
    let b := b.setBit Reg.SVC_STAT 0
    if b.svc.xfer.isSome then setSvc { b.svc with goWaits := some b.goXfer } b else newXfer b.goXfer b

/-- The bus has been idle for IDLE_US (R327). -/
def Block.busIdle (b : Block) (extraUs : Nat) : Bool :=
  !b.svc.sel && decide (b.svc.idleFrom + (max 1 (b.fld Reg.SVC_CTL 15 8) + extraUs) * tuUs ≤ b.now)

/-- BUS_IDLE_EXPIRY (R327): a waiting transfer takes the bus. -/
def busIdleExpiry (b : Block) : Block :=
  match b.svc.xfer with
  | some x => if x.st == .waiting && b.busIdle 0 then drive x b else b
  | none => b

/-- BACKOFF_EXPIRY (R327): a collided transfer restarts from word 0. -/
def backoffExpiry (b : Block) : Block :=
  match b.svc.xfer with
  | some x => if x.st == .backoff && b.busIdle (b.fld Reg.SVC_CTL 23 16) then drive x b else b
  | none => b

/-- An ambient poll has delivered nothing (R329). -/
def ambientBad (b : Block) : Block := (b.setBit Reg.SVC_STAT 7).inc Reg.SVC_CNT_C 15 0 1

/-- MRX holds undefined words (R327). -/
def freeMrx (b : Block) : Block :=
  forEach (List.range 16) (fun k b => let (v, b) := b.draw; b.wr (Reg.SVC_MRX k) (v.setWidth 32)) b

/-- A transfer has collided RETRY_MAX times (R327). -/
def xferFails (x : Xfer) (b : Block) : Block :=
  let b := b.setBit Reg.SVC_STAT 2
  xferEnds (if x.poll then ambientBad b else freeMrx (b.clrBit Reg.SVC_STAT 0))

/-- COLLISION (R327): SSEL0 has fallen while the T24 drove the bus. -/
def collide (b : Block) : Block :=
  match b.svc.xfer with
  | some x =>
    if x.st == .driving && b.svc.sel then
      let b := (b.setBit Reg.SVC_STAT 3).inc Reg.SVC_CNT_A 31 16 1
      let x := { x with st := .backoff, collisions := x.collisions + 1 }
      if max 1 (b.fld Reg.SVC_CTL 31 28) ≤ x.collisions then xferFails x b
      else setSvc { b.svc with xfer := some x } b
    else b
  | none => b

/-- A sensor reading as the ambient it delivers (R329), in 1/256 °C. -/
def ambientOf (wlen frac : Nat) (w : Nat) : Int :=
  let v : Int := if w < 2 ^ (wlen - 1) then (w : Int) else (w : Int) - (2 ^ wlen : Nat)
  satS 32 (v * (2 ^ (8 - min 8 frac) : Nat))

/-- A poll's reading of `n` bits arrives (R329). -/
def pollArrives (n : Nat) (w : Word) (b : Block) : Block :=
  let w := w.toNat % 2 ^ n
  if w = 0 ∨ w = 2 ^ n - 1 then ambientBad b
  else
    let v := ambientOf n (b.fld Reg.SVC_AMB_CTL 19 16) w
    ambientSensed v ((b.wr Reg.SVC_AMB_LAST (BitVec.ofInt 32 v)).inc Reg.SVC_CNT_C 31 16 1)

/-- TRANSFER_DONE (R326): the words received, with ones where a device drives none (R320). -/
def transferDone (words : List Word) (b : Block) : Block :=
  match b.svc.xfer with
  | some x =>
    if x.st == .driving && !b.svc.sel then
      if x.poll then xferEnds (pollArrives x.wlen (words.getD 1 0xFFFFFFFF) b)
      else
        let b := forEach (List.range x.words.length)
          (fun k b => b.wr (Reg.SVC_MRX k) (lowBits x.wlen (words.getD k 0xFFFFFFFF))) b
        xferEnds ((b.clrBit Reg.SVC_STAT 0).setBit Reg.SVC_STAT 1)
    else b
  | none => b

/-- AMBIENT_POLL (R329): every PER milliseconds. A GO transfer that still waits for the bus is not running, and goes after
the poll (R328). -/
def ambientPoll (b : Block) : Block :=
  let per := max 1 (b.fld Reg.SVC_AMB_CTL 31 20) * tuMs
  if b.bit Reg.SVC_AMB_CTL 0 && b.bit Reg.SVC_CTL 1 && decide (b.svc.pollFrom + per ≤ b.now) then
    let b := setSvc { b.svc with pollFrom := b.svc.pollFrom + per } b
    match b.svc.xfer with
    | none => newXfer b.pollXfer b
    | some x =>
      if x.poll then b
      else if x.st == .waiting then newXfer b.pollXfer (setSvc { b.svc with goWaits := some x } b)
      else setSvc { b.svc with pollWaits := some b.pollXfer } b
  else b

/-- The port drives SDO, and SCK (R320, R325): SDO in a target transaction, both in a controller transfer. -/
def Block.svcDrive (b : Block) : Bool × Bool :=
  let own := b.svc.xfer.any fun x => x.st == .driving && !b.svc.sel
  (own || b.svc.tgt.isSome, own)

/-- SSEL0 changes its level while the port's clock does not run: only the ball changes. -/
def sselBall (low : Bool) (b : Block) : Block := setSvc { b.svc with sel := low, tgt := none, idleFrom := b.now } b

/-- A target transaction ends without effect (R321: the role is no longer enabled); accesses that it holds are withdrawn. -/
def dropTgt (b : Block) : Block :=
  let held := b.ldg.held.filter fun h => match h with
    | .read .svc _ => false
    | _ => true
  setSvc { b.svc with tgt := none } { b with ldg := { b.ldg with held := held } }

/-- SSEL0 falls (R321, R325): a target transaction begins where the role is enabled. -/
def sselFall (sck : Bool) (b : Block) : Block :=
  if b.svc.sel then b
  else
    let on := b.bit Reg.SVC_CTL 0 && decide (b.svc.quietTo ≤ b.now)
    setSvc { b.svc with sel := true, mode3 := sck, tgt := if on then some {} else none } (b.setBit Reg.SVC_STAT 4)

/-- SSEL0 rises (R324): a partial word, or a header never completed, is discarded and counted. -/
def sselRise (partialBits : Nat) (b : Block) : Block :=
  if !b.svc.sel then b
  else
    let cut := match b.svc.tgt with
      | some g => decide (partialBits ≠ 0) || (g.hdr.isNone && !g.bad)
      | none => false
    let b := b.clrBit Reg.SVC_STAT 4
    let b := dropTgt (if cut then b.inc Reg.SVC_CNT_A 15 0 1 else b)
    setSvc { b.svc with sel := false, idleFrom := b.now } b

end Sys2Proof.Machine
end

