-- ==== Sys2Proof/Machine/Live.lean ====
section
/-! DEFINITION. What registers read (R10 to R12 and the register tables): values and windows computed from the state,
and the interrupt summary (20_register_map.md, R373, R374). -/

namespace Sys2Proof.Machine

/-! ### The interrupt summary (R373, R374) -/

/-- The ISUM bit and the leaf bits of a register; no leaf bits where it holds none. -/
def leafBits (b : Block) (off : Nat) : Nat × Word :=
  if off < 0x10000 then
    if off = Reg.GLB_BADACC then (16, 0xFFFFFFFF)
    else if off = Reg.SUP_STAT then (15, 0x400)
    else if off = Reg.SUP_WARN then (15, 0xFF)
    else (0, 0)
  else if off < 0x10800 then (1, if off % 0x100 = 0x0C then 0x170 else 0)
  else if off < 0x11000 then (1, 0)
  else if off < 0x11400 then (2, if off % 0x80 = 0x18 then 7 else 0)
  else if off = Reg.TIM_STAT then (3, 0x97)
  else if off = Reg.ACT_STAT then (4, 0x70000)
  else if off = Reg.ACT_EI_STAT then (4, 0xFF00)
  else if off = Reg.SEQ_STAT then (8, 0x120F)
  else if off = Reg.HOST_STAT then (10, 0x200)
  else if off = Reg.HOST_RING_STAT 0 || off = Reg.HOST_RING_STAT 1 then (10, 4)
  else if off = Reg.THM_STAT then (11, 0x48)
  else if off = Reg.SVC_STAT then (13, 0xEE)
  else if off = Reg.PAIR_STAT then (14, 0x3700)
  else if off = Reg.FLT_SUM then (0, b.rd Reg.FLT_MASK)
  else if 0xC3400 ≤ off && off < 0xC3A00 then (7, if off % 0x40 = 4 then 0xE0 else 0)
  else if off = Reg.LDG_STAT then (12, 4)
  else if off = Reg.SEAM_STAT then (9, 0x82)
  else if off = Reg.VRD_STAT then (9, 0x10000)
  else if 0x100000 ≤ off && off < 0x118000 then (5, if off % 0x1000 = 4 then 0xC0 else 0)
  else if 0x1A0000 ≤ off then (6, if off % 0x1000 = 4 then 0x2000 else if off % 0x1000 = 0x84 then 0xC00 else 0)
  else (0, 0)

/-- The leaf bits of a register that read 1; GLB_BADACC is one leaf. No register's reset value has a leaf set. -/
def Block.leaf (b : Block) (off : Nat) : Word :=
  let w := b.rd off &&& (leafBits b off).2
  if off = Reg.GLB_BADACC && w != 0 then 1 else w

/-- GLB_ISUM (R373). -/
def Block.isum (b : Block) : Word :=
  b.regs.foldl (fun s e => if b.leaf e.1 = 0 then s else s ||| BitVec.ofNat 32 (2 ^ (leafBits b e.1).1)) 0

/-- ISUM bits with an event as `old` becomes `b` (R374). -/
def Block.events (old b : Block) : Word :=
  let new := b.regs.foldl (fun s e =>
    if b.leaf e.1 &&& ~~~ old.leaf e.1 = 0 then s else s ||| BitVec.ofNat 32 (2 ^ (leafBits b e.1).1)) 0
  new ||| (b.isum &&& b.rd Reg.GLB_IEN &&& ~~~ old.rd Reg.GLB_IEN)

/-- Interrupt events of enabled ISUM bits request vector 0 (R374). -/
def requestSummary (old b : Block) : Block :=
  if old.events b &&& b.rd Reg.GLB_IEN = 0 then b else signalVec 0 (b.fld Reg.GLB_IMOD 15 0) b

/-- One bit for each of `n` replicas, `stride` apart, with a leaf set at one of the given offsets. -/
def Block.isrc (b : Block) (n base stride : Nat) (offs : List Nat) : Nat :=
  (List.range n).foldl (fun m i => if offs.any fun o => b.leaf (base + i * stride + o) != 0 then m + 2 ^ i else m) 0

/-! ### Values computed from the state -/

/-- The HI or LO word of a read-only 48-bit position. -/
def posWord (p : Pos48) (hi : Bool) : Word := if hi then posHi p else posLo p

/-- A register of a position channel (R40). -/
def Block.readPos (b : Block) (n k off : Nat) : Word :=
  let c := b.ch n
  let w := b.rd off
  if k = 0x04 then BitVec.ofNat 32 (b.filtNs n)
  else if k = 0x0C then
    let w := setFieldOf w 7 7 (b2n (b.bit (Reg.POS_CTL n) 8 && b.fld (Reg.POS_CTL n) 7 5 == n))
    setFieldOf w 3 0 (b2n (b.still n) + 2 * b2n c.valid + 4 * b2n (c.moved && !c.fwd) + 8 * b2n (c.behind b.now))
  else if k = 0x10 || k = 0x14 then posWord (b.posNow n) (k == 0x14)
  else if k = 0x18 || k = 0x1C then posWord (b.hwmNow n) (k == 0x1C)
  else if k = 0x30 then (if c.valid then BitVec.ofInt 32 c.vel else 0)
  else w

/-- A register of a strike group (R67). -/
def Block.readStk (b : Block) (g k off : Nat) : Word :=
  let w := b.rd off
  if k = 0x14 then BitVec.ofNat 32 (b.minint g)
  else if k = 0x18 then setFieldOf w 3 3 (b2n (b.grp g).idle.isSome)
  else if k = 0x3C || k = 0x40 then posWord (b.grp g).next (k == 0x40)
  else w

/-- A register of the time unit (R50). TOUT_BUSY reads 1 while edges of a train are still to be emitted: it falls with the
last edge or TOUT_STOP, though that pulse is still in progress (DESIGN CHOICE, log entry 114). -/
def Block.readTim (b : Block) (off : Nat) : Word :=
  let w := b.rd off
  if off = Reg.TIM_STAT then
    setFieldOf (setFieldOf w 6 5 (b2n b.tim.train.isSome + 2 * b2n b.host.ptmEn)) 3 3 (b2n b.tim.route.holdEnd.isSome)
  else if off = Reg.TIM_NOW_LO then b.tim.ns.setWidth 32
  else if off = Reg.TIM_NOW_HI then (b.tim.ns >>> 32).setWidth 32
  else if off = Reg.TIM_NOW_FR then b.tim.fr
  else w

/-- Who stages action queue words: 0 the host and the service port, 1 to 4 the threads (R203, R248). -/
def writerOf : Requester → Nat
  | .thread t => t.val + 1
  | _ => 0

/-- A requester's staging of an entry. -/
def Block.staged (b : Block) (r : Requester) (i : Nat) : ActStage := b.stage.get (fun _ => {}) (8 * i + writerOf r)

/-- A word of the action queue window (R202, R203): the armed values while an entry is armed. -/
def Block.readActq (b : Block) (r : Requester) (i k : Nat) : Word :=
  let e := b.actE i
  let s := if e.st = 0 then b.staged r i else { key := e.key, ctrl := e.ctrl, arg := e.arg }
  if k = 0 then s.key.setWidth 32
  else if k = 4 then (s.key >>> 32).setWidth 32
  else if k = 8 then s.ctrl
  else BitVec.ofNat 32 (s.arg.toNat + 2 ^ 28 * e.st)

/-- A register of the action block (R213). -/
def Block.readAct (b : Block) (off : Nat) : Word :=
  let w := b.rd off
  if off = Reg.ACT_STAT then setFieldOf w 12 0 b.armedCount
  else if off = Reg.ACT_FREE then BitVec.ofNat 32 ((b.freeEntry 0 b.split).getD 0x1FFF)
  else w

/-- A register of a thread, as a word of R259. -/
def Block.readGreg (b : Block) (t r : Nat) (hi : Bool) : Word :=
  if hi then ((b.greg t r) >>> 32).setWidth 32 else (b.greg t r).setWidth 32

/-- A register of the HOST block (R280). -/
def Block.readHost (b : Block) (off : Nat) : Word :=
  let w := b.rd off
  if off = Reg.HOST_STAT then
    let h := b.host
    let link := if h.dlUp then 1 + 2 * Config.hostLink.toNat else 0
    setFieldOf w 8 0 (link + 128 * b2n h.bme + 256 * b2n h.msixEn)
  else if off = Reg.HOST_INFL then BitVec.ofNat 32 b.inflight
  else if off = Reg.HOST_RING_STAT 0 || off = Reg.HOST_RING_STAT 1 then
    let r := (off - 0x60100) / 0x40
    setFieldOf w 1 0 (b2n (b.bit (Reg.HOST_RING_CTL r) 0) + 2 * b2n (b.ringFull r))
  else if 0x62000 ≤ off && off < 0x638C0 then
    let s := (off - 0x62000) / 0x20
    let k := off % 0x20
    if k = 0x14 then setFieldOf w 20 16 (min 16 (b.str s).descs.length)
    else if k = 0x18 then setFieldOf w 0 0 (b2n (b.strEn s))
    else w
  else w

/-- A register of the seam unit (R194). -/
def Block.readSeam (b : Block) (off : Nat) : Word :=
  let w := b.rd off
  if off = Reg.SEAM_STAT then
    let defer := !b.cGrant
    setFieldOf (setFieldOf w 6 2 (b.budStep + 8 * b2n (b.budStep == 4) + 16 * b2n defer)) 0 0 (b2n b.stitching)
  else if off = Reg.SEAM_EXCL then BitVec.ofNat 32 b.seamExcl
  else if off = Reg.SEAM_WIDTH then BitVec.ofNat 32 b.stripWidth
  else if 0xE0100 ≤ off && off < 0xE03E0 && off % 0x20 = 0x10 then
    setFieldOf w 0 0 (b2n (b.bit Reg.SEAM_CTL 2 && b.overlapNA ((off - 0xE0100) / 0x20)))
  else w

/-- A register of the defect table (R156). -/
def Block.readDef (b : Block) (off : Nat) : Word :=
  if off = Reg.DEF_TOTAL then BitVec.ofNat 32 b.defTab.length
  else if off = Reg.DEF_DATA then b.defAt (b.fld Reg.DEF_IDX 16 0)
  else if Reg.DEF_HCNT 0 ≤ off && off < Reg.DEF_HCNT 24 then BitVec.ofNat 32 (b.defCount ((off - Reg.DEF_HCNT 0) / 4))
  else if Reg.DEF_HBASE 0 ≤ off && off < Reg.DEF_HBASE 24 then BitVec.ofNat 32 (b.defBase ((off - Reg.DEF_HBASE 0) / 4))
  else b.rd off

/-- A register of a pipeline that its head's state gives (R155, R172, R193). -/
def Block.readPl (b : Block) (p k off : Nat) : Word :=
  let w := b.rd off
  let x : HeadSt := match b.headOf p with
    | some h => b.hd h
    | none => {}
  if k = 0x120 then
    let dims := match b.headOf p with
      | some h => (b.colsOf h, b.rowsOf h)
      | none => (0, 0)
    BitVec.ofNat 32 (b2n (badBase (b.stageNow p) dims.1 dims.2) + 2 * b2n (bitOf w 1) + 16 * x.plane.getD 7)
  else if k = 0x230 then setFieldOf w 8 6 (b2n x.resAct + 2 * b2n x.resPend + 4 * b2n x.curveBusy)
  else if 0x238 ≤ k && k ≤ 0x24C then
    let v := x.par.getD ((k - 0x238) / 4) 0
    if k = 0x238 || k = 0x240 then (v.setWidth 24).signExtend 32 else v
  else if k = 0x264 then tblRead p (b.fld (Reg.PL_TBL_IDX p) 12 0) b
  else if k = 0x28C then
    match x.mg with
    | some m => setFieldOf w 1 0 (if m.begun then 1 else 2)
    | none => w
  else if k = 0x308 then BitVec.ofNat 32 (2 * b2n (x.tdi.ready.any x.bandsBefore || decide (1 < x.tdi.ready.length)) + 2 ^ 16 * min 255 x.tdi.lines.length)
  else w

/-- A register of a head port (R85). -/
def Block.readHd (b : Block) (h k off : Nat) : Word :=
  if k = 0x04 then setFieldOf (b.rd off) 5 5 (b2n (b.laneOn h)) else b.rd off

/-- A word as it stands at an offset of control space, before reserved bits and shadows. -/
def Block.wordAt (b : Block) (r : Requester) (off : Nat) : Word :=
  if off < 0x10000 then
    if off = Reg.GLB_ISUM then b.isum
    else if off = Reg.GLB_ISRC_A then
      BitVec.ofNat 32 (b.isrc 8 0x10000 0x100 [0x0C] + 256 * b.isrc 8 0x11000 0x80 [0x18])
    else if off = Reg.GLB_ISRC_HD then BitVec.ofNat 32 (b.isrc 24 0x100000 0x1000 [4])
    else if off = Reg.GLB_ISRC_PL then BitVec.ofNat 32 (b.isrc 26 0x1A0000 0x1000 [4, 0x84])
    else if off = Reg.GLB_ISRC_CAL then BitVec.ofNat 32 (b.isrc 24 0xC3400 0x40 [4])
    else b.rd off
  else if off < 0x10800 then b.readPos ((off - 0x10000) / 0x100) (off % 0x100) off
  else if off < 0x11400 then b.readStk ((off - 0x11000) / 0x80) (off % 0x80) off
  else if off < 0x12000 then b.rd off
  else if off < 0x13000 then b.readTim off
  else if off < 0x20000 then b.readAct off
  else if off < 0x30000 then b.readActq r ((off - 0x20000) / 0x10) (off % 0x10)
  else if off < 0x31000 then b.rd off
  else if off < 0x31400 then b.readGreg ((off - 0x31000) / 0x100) (off % 0x100 / 8) (off % 8 == 4)
  else if off < 0x40000 then 0
  else if off < 0x50000 then b.seq.imem.get (fun _ => 0) ((off - 0x40000) / 4)
  else if off < 0x60000 then BitVec.ofNat 32 (b.dmemNum (off - 0x50000) 4)
  else if off < 0x70000 then b.readHost off
  else if off = Reg.BUD_HEADROOM then BitVec.ofInt 32 b.headroom
  else if off = Reg.THM_AMB_AGE then BitVec.ofNat 32 b.ambAge
  else if off = Reg.THM_STAT then setFieldOf (b.rd off) 4 4 (b2n b.ambStale)
  else if off < 0x80000 then b.rd off
  else if off < 0xC0000 then b.windowWord off
  else if off = Reg.SVC_STAT then setFieldOf (b.rd off) 4 4 (b2n b.svc.sel)
  else if off = Reg.PAIR_STAT then setFieldOf (b.rd off) 11 11 (b2n b.pair.route.holdEnd.isSome)
  else if off = Reg.CAL_STAT then BitVec.ofNat 32 (b2n b.gapOpen)
  else if 0xC3400 ≤ off && off < 0xC3A00 && off % 0x40 = 0x10 then
    BitVec.ofNat 32 (min 0xFFFFFFFF ((b.calAge ((off - 0xC3400) / 0x40)).getD 0xFFFFFFFF))
  else if off = Reg.LDG_STAT then
    setFieldOf (setFieldOf (b.rd off) 13 8 (min 32 b.ldg.queue.length)) 1 0
      (b2n b.ldg.prog.isSome + 2 * b2n b.coreLow)
  else if off < 0xD0000 then b.rd off
  else if off < 0xE0000 then b.journalRead (off - 0xD0000)
  else if off < 0xE4000 then b.readSeam off
  else if off = Reg.VRD_STAT then setFieldOf (b.rd off) 12 0 (b.vrd.pend.filter fun e => e.pending).length
  else if off < 0xF0000 then b.rd off
  else if off < 0x100000 then b.readDef off
  else if off < 0x118000 then b.readHd ((off - 0x100000) / 0x1000) (off % 0x1000) off
  else if 0x1A0000 ≤ off && off < 0x1BA000 then b.readPl ((off - 0x1A0000) / 0x1000) (off % 0x1000) off
  else 0

/-- A window of data words outside the register tables (R239, R240, R259, R300, R354). -/
def inWindow (off : Nat) : Bool :=
  (decide (0x31000 ≤ off) && decide (off < 0x31400)) || (decide (0x40000 ≤ off) && decide (off < 0x60000))
    || inLedger off || (decide (0xD0000 ≤ off) && decide (off < 0xE0000))

/-- Offsets that remain accessible in shutdown (R296): GLB, SUP, BUD, THM, and for reads the ledger and journal windows. -/
def inShutdown (off : Nat) : Bool :=
  decide (off < 0x2000) || (decide (0x70000 ≤ off) && decide (off < 0x80000))

/-- Offsets whose reads answer in shutdown (R296). -/
def readsInShutdown (off : Nat) : Bool := inShutdown off || inLedger off || (decide (0xD0000 ≤ off) && decide (off < 0xE0000))

/-! ### Shadows (R378) -/

/-- A row of `loPairs` that holds `off` at `d` bytes after its LO word; whether it has a fraction word. -/
def pairRow (off d : Nat) : Option Bool :=
  match loPairs.find? fun r =>
    decide (r.1 + d ≤ off) && decide ((off - d - r.1) % r.2.2.1 = 0) && decide ((off - d - r.1) / r.2.2.1 < r.2.1) with
  | some r => some r.2.2.2
  | none => none

/-- The LO word whose shadow covers an offset, if it is a HI or fraction word (R378). -/
def shadowLo (off : Nat) : Option Nat :=
  if 0x31000 ≤ off && off < 0x31400 then (if off % 8 = 4 then some (off - 4) else none)
  else if (pairRow off 4).isSome then some (off - 4)
  else if pairRow off 8 = some true then some (off - 8)
  else none

/-- Words after a LO word that its read snapshots: 0 where the offset is no LO word. -/
def loWords (off : Nat) : Nat :=
  if 0x31000 ≤ off && off < 0x31400 then (if off % 8 = 0 then 1 else 0)
  else match pairRow off 0 with
    | some fr => if fr then 2 else 1
    | none => 0

/-- Requesters by number. -/
def reqNum : Requester → Nat
  | .host => 0
  | .thread t => t.val + 1
  | .svc => 5

/-- The key of a requester's shadow of an offset. -/
def shadowKey (r : Requester) (off : Nat) : Nat := 2 ^ 22 * reqNum r + off

/-- Offsets of stream registers whose number is no stream (R265): unassigned. -/
def noStream (off : Nat) : Bool :=
  decide (0x62000 ≤ off) && decide (off < 0x638C0) && !isStream ((off - 0x62000) / 0x20)

/-- The word a register reads at this moment: reserved bits and unassigned offsets read 0 (R11, R12). -/
def Block.readNow (b : Block) (r : Requester) (off : Nat) : Word :=
  if (b.bud.down && !readsInShutdown off) || noStream off then 0
  else if inWindow off then b.wordAt r off
  else b.wordAt r off &&& readMask off

/-- A register has been written in the current cycle, or the index that its word is read at: a read shows the writes of its
cycle (R377). -/
def Block.freshWord (b : Block) (off : Nat) : Bool :=
  b.wroteNow off || (off == Reg.DEF_DATA && b.wroteNow Reg.DEF_IDX)
    || (decide (0x1A0000 ≤ off) && off % 0x1000 == 0x264 && b.wroteNow (off - 4))

/-- The word that a read in the current cycle takes from a register (R375): the value with which the last cycle left it
(`prev`), whatever the hardware has changed since; the written value where the register has been written in this cycle
(R377). The windows order their accesses themselves, and a reset since leaves only its own state. -/
def Block.readWord (b prev : Block) (r : Requester) (off : Nat) : Word :=
  if (b.bud.down && !readsInShutdown off) || inWindow off || b.freshWord off || b.stage_ != prev.stage_ then b.readNow r off
  else prev.readNow r off

/-- A read by a requester (R375, R378): the shadow of a HI or fraction word, else the register's word; 0 where shutdown leaves
the offset unserved (R296). -/
def Block.readReg (b prev : Block) (r : Requester) (off : Nat) : Word :=
  if b.bud.down && !readsInShutdown off then 0
  else match shadowLo off with
    | some _ => (b.shadow.get (fun _ => none) (shadowKey r off)).getD (b.readWord prev r off)
    | none => b.readWord prev r off

/-- The offset is that of a journal word that is uncorrectable (R349). -/
def Block.journalLost (b : Block) (off : Nat) : Bool :=
  0xD0000 ≤ off && off < 0xE0000 && b.isBad (.journal (BitVec.ofNat 14 ((off - 0xD0000) / 4)))

/-- What a read does (R380): a LO read snapshots; DEF_DATA and PL_TBL_DATA advance their index, unless
it has been written in the cycle (R376); an uncorrectable
journal word is reported (R349). -/
def sampleRead (prev : Block) (r : Requester) (off : Nat) (b : Block) : Block :=
  let n := loWords off
  let snap (k : Nat) (b : Block) : Block :=
    { b with shadow := b.shadow.set (fun _ => none) (shadowKey r (off + 4 * k)) (some (b.readWord prev r (off + 4 * k))) }
  let b := if n = 0 then b else if n = 1 then snap 1 b else snap 2 (snap 1 b)
  if b.journalLost off then
    sramUe 1 (b.setBit Reg.FLT_JNL_STAT 1)
  else if b.bud.down then b
  else if off = Reg.DEF_DATA then
    if b.wroteNow Reg.DEF_IDX then b else b.setFld Reg.DEF_IDX 16 0 ((b.fld Reg.DEF_IDX 16 0 + 1) % 2 ^ 17)
  else if 0x1A0000 ≤ off && off < 0x1BA000 && off % 0x1000 = 0x264 then
    let p := (off - 0x1A0000) / 0x1000
    if b.wroteNow (Reg.PL_TBL_IDX p) then b else tblStep p b
  else b

end Sys2Proof.Machine
end

