-- ==== Sys2Proof/Machine/Recovery.lean ====
section
/-! DEFINITION. Supplies, resets and start-up (18_faults_and_recovery.md, R351 to R354; 19_power_up.md, R362 to R369). -/

namespace Sys2Proof.Machine

/-! ### Supply dips (R317, R351, R352) -/

/-- A rail falls below its warning level (R351); before POWER_OK that only delays it (R364). -/
def supplyWarning (r : Nat) (b : Block) : Block :=
  if b.bit Reg.SUP_STAT r then b
  else if b.stage_ = 0 then b.setBit Reg.SUP_STAT r
  else
    let b := (delayWrites (b.setBit Reg.SUP_STAT r)).setBit Reg.SUP_WARN r
    raiseBit 11 (b.inc (Reg.SUP_CNT (r / 2)) (if r % 2 = 1 then 31 else 15) (if r % 2 = 1 then 16 else 0) 1)

/-- A rail recovers above its warning level (R317, R351). -/
def supplyRecovery (r : Nat) (b : Block) : Block :=
  if b.bit Reg.SUP_STAT r then { b.clrBit Reg.SUP_STAT r with lowTo := some b.now } else b

/-! ### What a reset keeps -/

/-- The registers in the given ranges of offsets, first and one beyond the last. -/
def keepRegs (ranges : List (Nat × Nat)) (m : SMap Word) : SMap Word :=
  m.filter fun e => ranges.any fun r => decide (r.1 ≤ e.1) && decide (e.1 < r.2)

/-- An encoder channel after a reset: the levels at its balls alone. -/
def PosCh.ballsOnly (c : PosCh) : PosCh := { rawA := c.rawA, rawB := c.rawB, rawZ := c.rawZ }

/-- Encoder channels and event inputs after a reset: the levels at their balls alone. -/
def Block.posBalls (b : Block) : SMap PosCh := b.pos.foldl (fun m e => m.set (fun _ => {}) e.1 e.2.ballsOnly) []
def Block.eiBalls (b : Block) : SMap EiCh := b.act.ei.foldl (fun m e => m.set (fun _ => {}) e.1 { raw := e.2.raw }) []

/-- The page being programmed as a power failure tears it (R315): words finished are new, the word in progress is
indeterminate, the rest is old. -/
def tearPage (b : Block) : Block :=
  match b.ldg.prog with
  | none => b
  | some p =>
    let page := p.pages.headD []
    let words := (page.map fun x => x.1 / 8).eraseDups
    let (v, b) := b.draw
    let k := v.toNat % max 1 words.length
    let b := programBytes (page.filter fun x => (words.take k).contains (x.1 / 8)) b
    match words[k]? with
    | some w => let (v, b) := b.draw; programBytes (spanFrom (w * 8) (leBytes 8 v.toNat)) b
    | none => b

/-- The block as a reset begins it: every unit at its reset values, with its clocks' present and what no reset touches. -/
def freshBlock (b : Block) : Block :=
  { now := b.now
    free := b.free
    out := b.out
    perst := b.perst
    perstSeen := !b.perst
    pos := b.posBalls
    act := { ei := b.eiBalls }
    tim := { ptmAuto := b.now }
    bud := { lastRef := b.now }
    ldg := { bytes := b.ldg.bytes, lastCounters := b.now }
    svc := { sel := b.svc.sel, idleFrom := b.now, pollFrom := b.now }
    pair := { lastRx := b.now, lastHb := b.now, phaseAt := b.now } }

/-! ### Cold reset (R353, R364) -/

/-- A cold reset: every unit is reset and held until POWER_OK. HBM loses its contents; the start-up zeroes it by 100 ms
(R366), while loads already write to it from 20 ms on, so it reads zero from here. Rails below their warning level stay so; a
rail that has reached its reset level is below it (R364). -/
def coldReset (cause rail : Nat) (b : Block) : Block :=
  let old := b
  let b := tearPage b
  let f := { freshBlock b with regs := [(Reg.SUP_CAUSE, BitVec.ofNat 32 (cause + 16 * rail))], lowTo := b.lowTo }
  let low := b.fld Reg.SUP_STAT 7 0 ||| (if cause = 3 then 2 ^ rail else 0)
  ballsSince old old.inst.t16 (f.setFld Reg.SUP_STAT 7 0 low)

/-- POR# falls (R364). -/
def porFall (b : Block) : Block := if b.stage_ = 0 then b else coldReset 2 0 b

/-- A rail reaches its reset level (R364). -/
def supplyReset (rail : Nat) (b : Block) : Block := if b.stage_ = 0 then b.setBit Reg.SUP_STAT rail else coldReset 3 rail b

/-- The key of SUP_CMD (R369). -/
abbrev supKey : Nat := 0x7240

/-- SUP_CMD.COLD with its key: in shutdown only below the shutdown threshold less its hysteresis (R296). -/
def coldBit (b : Block) : Block :=
  if b.bud.shutting && !decide (b.est < b.thrAt Reg.THM_THR_SHUT - b.thrHys 2) then
    (b.setBit Reg.THM_STAT 6).inc Reg.THM_CNT2 15 0 1
  else coldReset 4 0 b

/-! ### Warm reset (R350, R353, R354, R368) -/

/-- The journal's entries as a warm reset ends them (R357): armed and executing ones are cleared, running pulses cut. -/
def journalReset (b : Block) : Block :=
  let cut := (List.range 16).filterMap fun k => match b.pulse k with
    | some p => p.entry
    | none => none
  let ns := BitVec.ofNat 48 b.ns
  let b := forEach b.act.entries (fun x b =>
    let e := b.actE x.1
    let e := if e.st = 0 then e else { e with jst := 7, jtime := ns }
    b.setAct x.1 { e with jcut := e.jcut || cut.contains x.1 }) b
  b

/-- Descriptors in flight are abandoned (R358). -/
def abandonSlots (b : Block) : Block :=
  { b with host := { b.host with slots := b.host.slots.map fun e =>
      (e.1, { e.2 with abandoned := e.2.abandoned || (decide (1 ≤ e.2.st) && decide (e.2.st ≤ 4)) }) } }

/-- The ledger through a warm reset (R353, R316): the page in progress finishes, the rest of its record is abandoned,
queued writes are lost. -/
def warmLedger (b : Block) : Block :=
  let l := b.ldg
  let (prog, more) := match l.prog with
    | some p => (some { p with pages := p.pages.take 1 }, decide (1 < p.pages.length))
    | none => (none, false)
  let b := { b with ldg := { l with queue := [], held := [], wantJsum := false, prog := prog } }
  if more then b.inc Reg.LDG_CNT_C 15 0 1 else b

/-- The register ranges that a warm reset keeps (R353): GLB, SUP, TIM, SEQ, LDG, PAIR, FLT; POS and STK in a member. -/
def warmRanges (member : Bool) : List (Nat × Nat) :=
  [(0x0, 0x2000), (0x12000, 0x13000), (0x30000, 0x40000), (0xC1000, 0xC3000), (0xC4000, 0xC5000)]
    ++ (if member then [(0x10000, 0x12000)] else [])

/-- Every thread reset as TRESET does. -/
def tresetAll (b : Block) : Block := forEach (List.range 4) (fun t b => tresetThread (Fin.ofNat 4 t) b) b

/-- The thermal registers show the model that a warm reset keeps (R353). -/
def showModel (b : Block) : Block :=
  let ts := b.bud.nodes.map fun t => satS 32 (roundRat t)
  let b := forEach (List.range 6) (fun i b => b.wr (Reg.THM_NODE i) (BitVec.ofInt 32 (ts.getD i 0))) b
  (b.wr Reg.THM_EST (BitVec.ofInt 32 (ts.foldl max (ts.headD 0)))).setFld Reg.THM_HOTNODE 2 0 b.bud.hot

/-- An uncorrectable word of HBM. -/
def keptInHbm : Upset → Bool
  | .hbm _ => true
  | _ => false

/-- Uncorrectable words of what a warm reset keeps (R353). -/
def keptOverWarm (member : Bool) : Upset → Bool
  | .hbm _ | .imem _ | .dmem _ | .journal _ => true
  | .strike .. => member
  | _ => false

/-- A head whose calibration run a warm reset interrupts, or whose SHUTTER open was still owed, is owed it after its next
SET_PORT (R229). -/
def oweOpens (b f : Block) : Block :=
  forEach (List.range 24) (fun h f =>
    let c := (b.hd h).cal
    if c.openOwed || (1 ≤ b.calState h && b.calState h ≤ 8) then setCal h { (f.hd h).cal with openOwed := true } f else f) f

/-- A warm reset (R353): cause 5 PERST#, 6 the WARM bit. -/
def warmReset (cause : Nat) (b : Block) : Block :=
  let old := b
  let active := b.member && b.role == 1
  let b := if active then activeFault 5 b else b
  let b := freezeJournal (if cause = 5 then 1 else 2) (abandonSlots (journalReset b))
  let b := warmLedger b
  let f := freshBlock b
  let host := if cause = 6 then { b.host with strs := [], vecs := [], lastServed := 197, passed := [], loadBytes := 0 }
    else { rings := b.host.rings, slots := b.host.slots }
  let f := { f with
    regs := keepRegs (warmRanges b.member) b.regs
    stage_ := 1
    tim := b.tim
    hbm := b.hbm
    bad := b.bad.filter (keptOverWarm b.member)
    strikes := b.strikes
    frozen := b.frozen
    jlast := b.jlast
    trail := b.trail
    ldg := b.ldg
    host := host
    seq := b.seq
    svc := { f.svc with quietTo := b.now + 20 * tuUs }
    pair := { b.pair with recover := if active then some b.now else none, handAt := none, bulkOwed := false,
                          bulkDone := false, joinSeen := [], peerJoin := 0, joinOver := true }
    released := b.released
    shadow := b.shadow
    perstSeen := b.perstSeen
    lowTo := b.lowTo
    bud := { f.bud with nodes := b.bud.nodes, hot := b.bud.hot, energy := b.bud.energy, prev := b.bud.prev, sample := b.bud.sample,
                        amb := b.bud.amb } }
  let f := if b.member then { f with pos := b.pos, stk := b.stk, sched := b.sched, bounds := b.bounds, giver := b.giver } else f
  let f := (f.clrBit Reg.SUP_STAT 11).wrN Reg.SUP_CAUSE cause
  let f := (tresetAll f).clrBit Reg.SEQ_STAT 11
  let f := if f.member then setJoin 0 f else f
  let f := oweOpens b f
  ballsSince old old.inst.t16 (showModel f)

/-- SUP_CMD.WARM with its key; no effect in shutdown (R296). -/
def warmBit (b : Block) : Block := if b.bud.shutting then b else warmReset 6 b

/-- A write to SUP_CMD (R369): a wrong key is discarded; COLD acts alone. -/
def supCmd (val : Word) (b : Block) : Block :=
  if fieldOf val 31 16 != supKey then b.setBit Reg.SUP_STAT 10
  else if bitOf val 0 then coldBit b
  else if bitOf val 1 then warmBit b
  else b

/-! ### PCI Express resets (R353, R358, R365) -/

/-- The host block resets without the device: HOST registers, streams, descriptors in flight abandoned; `cfg` resets
configuration space too. -/
def hostReset (cfg : Bool) (b : Block) : Block :=
  let b := abandonSlots b
  let host := if cfg then { rings := b.host.rings, slots := b.host.slots }
    else { b.host with strs := [], vecs := [], lastServed := 197, passed := [], loadBytes := 0 }
  { b with host := host, regs := b.regs.clear 0x60000 0x70000, held := [] }

/-- The PCIe link goes down without PERST# (R353). -/
def pcieLinkDown (b : Block) : Block :=
  if b.cfgReady && b.host.dlUp then hostReset true b else b

/-- PERST# changes level (R365, R353): an assertion that follows its first deassertion resets the device; none has an
effect in shutdown (R296). -/
def perstChange (asserted : Bool) (b : Block) : Block :=
  let was := b.perst
  let b := { b with perst := asserted }
  if b.stage_ = 0 || b.bud.shutting then b
  else if was && !asserted then { b with perstSeen := true }
  else if !was && asserted && b.perstSeen then warmReset 5 b
  else b

/-! ### Start-up (R364, R366, R368) -/

/-- Every rail has been above its warning level for 1 ms without a break (R364). -/
def Block.railsUp (b : Block) : Bool :=
  b.fld Reg.SUP_STAT 7 0 == 0 && (match b.lowTo with
    | some t => decide (t + tuMs ≤ b.now)
    | none => true)

/-- POWER_OK is reached (R364, R369): the rails allow it. That POR# is high and SYSCLK runs has no command of its own, and is what
POWER_OK tells (DESIGN CHOICE, log entry 157). -/
def powerOk (b : Block) : Block := if b.stage_ = 0 && b.railsUp then { b with stage_ := 1, perstSeen := !b.perst } else b

/-- The start-up moves on by one row. -/
def stageTo (n : Nat) (f : Block → Block) (b : Block) : Block :=
  if b.stage_ + 1 = n then f { b with stage_ := n } else b

/-- This start-up follows a warm reset. -/
def Block.warmStart (b : Block) : Bool := decide (5 ≤ b.fld Reg.SUP_CAUSE 3 0)

/-- Retirements recorded in DEVPARAM (R109, R310). -/
def loadRetired (b : Block) : Block :=
  match selectTwin 0x01 0 b with
  | (some (_, _, body), _, b) =>
    let mask := ofLe (body.take 4)
    forEach (List.range 26) (fun p b =>
      if mask / 2 ^ p % 2 = 1 then
        let unit := (body.getD (4 + p) 0).toNat
        refreshSpare p (((b.setPl p { b.pl p with retUnit := unit }).setBit (Reg.PL_STAT p) 11).setFld (Reg.PL_BIST_RES p) 3 0 unit)
      else b) b
  | (none, _, b) => b

/-- The identity recorded in PAIRID (R335). -/
def loadPairId (b : Block) : Block :=
  match selectTwin 0x03 0 b with
  | (some (_, _, body), _, b) =>
    if body.length < 12 then b
    else
      let at_ (i : Nat) : Nat := (body.getD i 0).toNat
      let b := b.wr64 Reg.PAIR_ID_LO (BitVec.ofNat 64 (ofLe (body.take 8)))
      let b := b.setFld Reg.PAIR_MEMBER 0 0 (at_ 8 % 2)
      let c := Reg.PAIR_CTL
      let b := (b.setFld c 0 0 (at_ 10 % 2)).setFld c 1 1 (at_ 9 % 2)
      let b := (b.setFld c 7 7 (at_ 10 / 2 % 2)).setFld c 3 3 (at_ 10 / 4 % 2)
      (b.setFld c 11 8 (at_ 11 % 16)).setFld c 6 4 (at_ 11 / 16 % 8)
  | (none, _, b) => b

/-- Shutdown records newer than SEQ `s`: how many, and the newest SEQ. -/
def shutdownsSince (s : Word) (b : Block) : Nat × Word :=
  (List.range 64).foldl (fun acc i =>
    match b.slotCopy 0x10 (0x1000 + i * 64) 64 with
    | some c => if newer c.1 s then (acc.1 + 1, if newer c.1 acc.2 then c.1 else acc.2) else acc
    | none => acc) (0, s)

/-- COUNTERS as it is selected at start-up (R310): a power cycle or a warm reset and the shutdowns not yet counted are
added, and the record is queued. -/
def loadCounters (b : Block) : Block :=
  let warm := b.warmStart
  let (w, _, b) := selectTwin 0x02 0 b
  let body := match w with
    | some (_, _, body) => body
    | none => List.replicate 24 0
  let num (a n : Nat) : Nat := ofLe ((body.drop a).take n)
  let s := BitVec.ofNat 32 (num 20 4)
  let (n, newest) := if warm then (0, s) else shutdownsSince s b
  let base := if warm then b.ldg.strikesBase else BitVec.ofNat 64 (num 8 8)
  queueCounters { b with ldg := { b.ldg with
    powerCycles := BitVec.ofNat 32 (num 0 4 + b2n (!warm))
    shutdowns := BitVec.ofNat 32 (num 4 4 + n)
    warmResets := BitVec.ofNat 32 (num 16 4 + b2n warm)
    shutSeq := newest
    strikesBase := base } }

/-- The registers that show the log (R312). -/
def loadLog (b : Block) : Block :=
  match newestLog b with
  | some (i, s) => (b.wrN Reg.LDG_LOG ((i + 1) % 2048)).wr Reg.LDG_LOGSEQ (s + 1)
  | none => (b.wrN Reg.LDG_LOG 0).wrN Reg.LDG_LOGSEQ 1

/-- SEQ of the selected JSUM; the CAL_SUM records and the directory are selected too (R308). -/
def selectRest (b : Block) : Block :=
  let (j, _, b) := selectTwin 0x04 0 b
  let b := match j with
    | some (_, s, _) => { b with ldg := { b.ldg with jsumSeq := s } }
    | none => b
  forEach (List.range 24) (fun h b => (selectTwin 0x20 h b).2.2) (udirOf b).2

/-- EN loaded from the ledger starts the wait for a partner (R334). -/
def pairWait (b : Block) : Block := if b.member then setPair { b.pair with enAt := some b.now } b else b

/-- The ledger's winners are selected (R366): a page that a warm reset left in progress has finished (R368). -/
def ledgerSelect (b : Block) : Block :=
  if b.ldg.prog.isSome then b
  else
    stageTo 3 (fun b =>
      let b := loadLog (loadRetired b)
      let b := if b.warmStart then b else pairWait (loadPairId b)
      refreshLedgerRegs (loadCounters (countShutdownBad (selectRest b)))) b

/-- Inputs whose balls differ from their filtered level start their holds as the position unit starts. -/
def startHolds (b : Block) : Block :=
  let pin (n : Nat) (p : EncPin) (raw : Bool) (b : Block) : Block := encoderChange n p raw 0 b
  let b := forEach b.pos (fun x b => pin x.1 .z x.2.rawZ (pin x.1 .b x.2.rawB (pin x.1 .a x.2.rawA b))) b
  forEach b.act.ei (fun x b => eiChange x.1 x.2.raw 0 b) b

/-- The standing program (R256): copied and thread 0 started, or why not. -/
def loadProgram (b : Block) : Block :=
  match selectTwin 0x30 0 b with
  | (some (_, _, body), _, b) =>
    if body.length < 8 then b.setBit Reg.SEQ_STAT 10
    else
      let len := ofLe (body.take 2)
      let entry := ofLe ((body.drop 2).take 2)
      if len = 0 || 12288 < len || len ≤ entry || body.length < 8 + 4 * len then b.setBit Reg.SEQ_STAT 9
      else
        let words := (List.range len).map fun i => BitVec.ofNat 32 (ofLe ((body.drop (8 + 4 * i)).take 4))
        let b := mendImem 0 len { b with seq := { b.seq with imem := b.seq.imem.setList (fun _ => 0) 0 words } }
        let b := (if b.wroteNow Reg.SEQ_SP then b else b.wrN Reg.SEQ_SP (len + 65536 * entry)).wrN (Reg.SEQ_T_ENTRY 0) entry
        startThread 0 (b.setBit Reg.SEQ_STAT 8)
  | (none, _, b) =>
    let (sa, sb, _) := twinSlots 0x30 0
    b.setBit Reg.SEQ_STAT (if b.slotBlank sa && b.slotBlank sb then 10 else 9)

/-- The 20 ms row (R366, R368): units run, the program starts, lanes and the pair unit are enabled. -/
def startup20 (b : Block) : Block :=
  let old := b
  stageTo 5 (fun b =>
    let b := if b.warmStart && b.member then b else startHolds b
    let b := b.setBit Reg.SUP_STAT 11
    let b := if b.warmStart then (if b.bit Reg.SEQ_STAT 8 then startThread 0 b else b) else loadProgram b
    ballsSince old b.inst.t16 b) b

/-- SRAM_ZERO (R366): all SRAM reads zero with valid SECDED, but for what a warm reset keeps (R353, R368). -/
def sramZero (b : Block) : Block :=
  stageTo 4 (fun b =>
    let warm := b.warmStart
    { b with
      bad := b.bad.filter fun u => if warm then keptOverWarm b.member u else keptInHbm u
      act := { b.act with entries := [], backlog := [] }, stage := []
      seq := if warm then b.seq else { b.seq with imem := [], dmem := [] } }) b

/-- HBM_ZEROED (R366, R368): the whole stack reads zero with valid ECC but for what has been written since the cold reset, or was
kept over a warm one, and BAR2 requests held complete. -/
def hbmZeroed (b : Block) : Block :=
  stageTo 6 (fun b => serveBar2 (if b.warmStart then b
    else mend (fun u => match u with
      | .hbm a => !b.hbm.any fun x => x.1 == a.toNat
      | _ => false) b)) b

/-- Configuration requests are accepted (R365, R366). -/
def configReady (b : Block) : Block :=
  if b.stage_ = 6 && b.perstSeen && !b.perst && !b.cfgReady then
    { b with cfgReady := true, host := { b.host with dlUp := true } }
  else b

/-- JNL_CMD.RELEASE (R354): the journal is live again. -/
def releaseJournal (b : Block) : Block :=
  mend (fun u => match u with | .journal _ => true | _ => false) { b.clrBit Reg.FLT_JNL_STAT 0 with
    frozen := none, trail := { b.trail with rebuilt := true } }

/-! ### Shutdown (R295, R296) -/

/-- The T24 stops: head lanes and the pair link go idle, event outputs float. -/
def shutdownStop (b : Block) : Block :=
  if b.mayStop then
    let old := b
    let b := { b with bud := { b.bud with down := true } }
    let b := { b with ldg := { b.ldg with queue := [] } }
    let b := forEach (List.range 24) (fun h b => b.setPort h { b.port h with queue := [], outs := [] }) b
    ballsSince old b.inst.t16 { b with sched := [] }
  else b

end Sys2Proof.Machine
end

