-- ==== Sys2Proof/Machine/Ring.lean ====
section
/-! DEFINITION. Rings as the host runs them (13_host_interface.md, R270 to R279): tails, fetches, launches, completions,
record rings, enables, MSI-X. -/

namespace Sys2Proof.Machine

/-! ### Streams -/

/-- A write of STR_TAIL (R270, R271). -/
def writeTail (s : Nat) (val : Word) (b : Block) : Block :=
  if b.ringSize s ≤ fieldOf val 11 0 then b.setBit (Reg.STR_STAT s) 2 else b.genWrite (Reg.STR_TAIL s) val

/-- A write of STR_CTL (R279): EN set begins the ring at HEAD 0, EN cleared flushes it. -/
def writeStrCtl (s : Nat) (val : Word) (b : Block) : Block :=
  let en := b.strEn s
  let b := b.genWrite (Reg.STR_CTL s) val
  if !en && b.strEn s then
    let b := abandonDescs s ((b.wrN (Reg.STR_HEAD s) 0).clrBit (Reg.STR_STAT s) 1)
    let x := b.str s
    b.setStr s { x with fetch := 0, fetching := 0, stale := x.stale + x.fetching, stopped := false }
  else if en && !b.strEn s then
    let b := disableStream s b
    let x := b.str s
    b.setStr s { x with fetching := 0, stale := x.stale + x.fetching }
  else b

/-- A descriptor may be fetched (R271); at most 64 reads are outstanding (R260). -/
def Block.mayFetch (b : Block) (s : Nat) : Bool :=
  let x := b.str s
  b.strEn s && b.egressOn && !x.stopped && x.fetch != b.fld (Reg.STR_TAIL s) 11 0
    && decide (x.descs.length + x.fetching < 16) && decide (b.inflight < 1024)
    && decide (b.host.strs.foldl (fun n e => n + e.2.fetching + e.2.stale) 0 < b.host.caps.maxReads)

/-- DESC_FETCH (R271). -/
def fetchDesc (s : Nat) (b : Block) : Block :=
  if b.mayFetch s then
    let x := b.str s
    let b := b.setStr s { x with fetch := (x.fetch + 1) % b.ringSize s, fetching := x.fetching + 1 }
    b.emit (.hostRead ((b.rd64 (Reg.STR_BASE_LO s)).toNat + 32 * x.fetch) 32)
  else b

/-- A failed fetch stops its ring (R271); reads behind it stay outstanding. -/
def fetchFails (s : Nat) (b : Block) : Block :=
  let b := (b.setBit (Reg.STR_STAT s) 1).setBit Reg.HOST_STAT 9
  let x := b.str s
  b.setStr s { x with fetching := 0, stale := x.stale + (x.fetching - 1), stopped := true }

/-- DESC_FETCH_DONE (R271, R272): fetches complete in order; a timeout or an error stops the ring; a completion that no
read waits for is reported (R261). With the completion timeout disabled none happens (R260). -/
def fetchDone (s : Nat) (e : FetchEnd) (b : Block) : Block :=
  let x := b.str s
  if e = .timeout && b.host.cplDisable then b
  else if 0 < x.stale then
    let b := b.setStr s { x with stale := x.stale - 1 }
    if e = .timeout then reportAer .completionTimeout b else b
  else if x.fetching = 0 || !b.strEn s then (if e = .timeout then b else reportAer .unexpectedCompletion b)
  else match e with
    | .timeout => reportAer .completionTimeout (fetchFails s b)
    | .error => fetchFails s b
    | .data bytes =>
      let d := Descriptor.ofBytes bytes
      let size := b.ringSize s
      let idx := (x.fetch + size - x.fetching % size) % size
      let (e, late) := newDesc d idx (freeSlot b) (x.launchTick == some b.now) b
      let b := if late then b.inc (Reg.STR_CNT s) 15 0 1 else b
      placeItems s (b.setStr s { x with fetching := x.fetching - 1, descs := x.descs ++ [e] })

/-- DESC_CLOSE_TIMEOUT (R271): TMO after its first item an open descriptor closes. -/
def closeTimeout (s : Nat) (b : Block) : Block :=
  let tmo := b.fld (Reg.STR_CTL s) 31 16
  let due (d : Desc) : Bool := d.st == .filling && tmo != 0 && (match d.openAt with
    | some t => decide (t + tmo * tuUs ≤ b.now)
    | none => false)
  let x := b.str s
  if x.descs.any due then placeItems s (b.setStr s { x with descs := x.descs.map fun d => if due d then d.close else d })
  else b

/-- A record ring has a record to write and space for it (R274). -/
def Block.ringReady (b : Block) (r : Nat) : Bool :=
  let g : RecRing := b.host.rings.get (fun _ => {}) r
  b.egressOn && b.bit (Reg.HOST_RING_CTL r) 0 && !g.staged.isEmpty && !b.ringFull r

/-- The front descriptor of a stream is ready to complete (R273). -/
def Block.mayComplete (b : Block) (s : Nat) : Bool :=
  let x := b.str s
  b.egressOn && !x.stopped && (match x.descs with
    | d :: _ => d.st == .writing && decide (itemsLen d.items ≤ d.issued)
    | [] => false)

/-- DESC_COMPLETE (R273), after the record rings (R276). -/
def completeDesc (s : Nat) (b : Block) : Block :=
  if b.mayComplete s && !b.ringReady 0 && !b.ringReady 1 then completeFront s b else b

/-- EGRESS_ROUND (R276), after the record rings and the completions. -/
def streamRound (b : Block) : Block :=
  if b.egressOn && !b.ringReady 0 && !b.ringReady 1 && !(b.host.strs.any fun e => b.mayComplete e.1) then
    egressRound b
  else b

/-! ### Record rings -/

/-- A write of a record ring's CTL (R279): EN set begins the ring at WRIDX 0. -/
def writeRingCtl (r : Nat) (val : Word) (b : Block) : Block :=
  let en := b.bit (Reg.HOST_RING_CTL r) 0
  let b := b.genWrite (Reg.HOST_RING_CTL r) val
  if !en && b.bit (Reg.HOST_RING_CTL r) 0 then b.wrN (Reg.HOST_RING_WRIDX r) 0 else b

/-- RECORD_RING_WRITE (R274): a batch, the index, the vector; the verdict ring first (R276). -/
def ringWrite (r : Nat) (b : Block) : Block :=
  if b.ringReady r && (r == 0 || !b.ringReady 0) then
    let g : RecRing := b.host.rings.get (fun _ => {}) r
    let b := writeRecords r (g.staged.length + 1) b
    let b := hostWrite ((b.rd64 (Reg.HOST_RING_BASE_LO r)).toNat + 64 * b.ringSlots r)
      (leBytes 4 (b.fld (Reg.HOST_RING_WRIDX r) 15 0)) b
    signalVec (1 + r) (b.fld (Reg.HOST_RING_CTL r) 31 21) b
  else b

/-! ### MSI-X (R278, R280) -/

/-- A pending message goes out once nothing withholds it. -/
def flushMsix (v : Nat) (b : Block) : Block :=
  if b.bit (Reg.MSIX_PBA (v / 32)) (v % 32) && b.host.msixEn && !b.host.msixMask && !b.bit (Reg.MSIX_TABLE_CTRL v) 0 && b.host.bme
      && !b.host.d3hot && b.host.dlUp then sendMsix v (b.clrBit (Reg.MSIX_PBA (v / 32)) (v % 32))
  else b

/-- A configuration request that comes before any is accepted is answered with Configuration Request Retry Status (R366); while
PERST# is low the function answers none (R365). -/
def configRetry (b : Block) : Block := if b.perst || b.stage_ = 0 then b else b.emit .configRetry

/-- A configuration-space write (R46, R260, R261, R263). It comes over the link, so the data link layer is active (DESIGN CHOICE,
log entry 158). -/
def configWrite (w : CfgWrite) (b : Block) : Block :=
  let h := b.host
  let h := match w with
    | .busMasterEnable on => { h with bme := on }
    | .d3hot on => { h with d3hot := on }
    | .ptmControl on root gran => { h with ptmEn := on, ptmRootSel := root, ptmEffGran := gran }
    | .msixEnable on => { h with msixEn := on }
    | .msixMask on => { h with msixMask := on }
    | .maxPayload n => { h with mps := n }
    | .cplTimeout v off => { h with cplTimeout := v, cplDisable := off }
    | .aerClear e => { h with aer := h.aer.filter (· != e) }
    | .bar2Size n => { h with bar2 := n }
  forEach (List.range 64) flushMsix { b with host := { h with dlUp := true } }

end Sys2Proof.Machine
end

