-- ==== Sys2Proof/Machine/RegAccess.lean ====
section
/-! DEFINITION. A register write as its block applies it (R10 to R14 and the register tables of every chapter), its
mirroring in a pair (R337 to R339), and who may make it. -/

namespace Sys2Proof.Machine

/-! ### Writes to the units -/

/-- Do `f`, and let calibration see a gap window that has closed by it (R217, R221). -/
def gapSettle (f : Block → Block) (b : Block) : Block := calUpdate b.gapOpen (f b)

/-- Do `f`; where it brings a channel to standstill, the open lines of its heads close under FLUSH_SS (R178). -/
def flushStill (n : Nat) (f : Block → Block) (b : Block) : Block :=
  let b' := f b
  if !b.still n && b'.still n then standstillFlush n b' else b'

/-- A write to a position channel (R40). -/
def writePos (n off : Nat) (val : Word) (b : Block) : Block :=
  if off = Reg.POS_CTL n then flushStill n (gapSettle (writePosCtl n val)) b
  else if off = Reg.POS_STALL n then flushStill n (writePosStall n val) b
  else if off = Reg.POS_CMD n then gapSettle (posCmd n val) b
  else b.genWrite off val

/-- A write to a strike group (R67). -/
def writeStk (g off : Nat) (val : Word) (b : Block) : Block :=
  if off = Reg.STK_GRP_CTL g then writeStkCtl g val b
  else if off = Reg.STK_GRP_PITCH g || off = Reg.STK_GRP_ANCHOR_LO g || off = Reg.STK_GRP_ANCHOR_HI g then writeStkPoint g off val b
  else if off = Reg.STK_GRP_CMD g then (if bitOf val 0 then strikeNow g b else b)
  else if off = Reg.STK_GRP_IDLE g then idleUpdateAll (b.genWrite off val)
  else b.genWrite off val

/-- A write to the time unit (R50). -/
def writeTim (off : Nat) (val : Word) (b : Block) : Block :=
  if off = Reg.TIM_CTL then writeTimCtl val b
  else if off = Reg.TIM_CMD then timCmd val b
  else if off = Reg.TIM_INC_NS then incWrite val b
  else b.genWrite off val

/-- A write to the action block (R213). -/
def writeAct (off : Nat) (val : Word) (b : Block) : Block :=
  if off = Reg.ACT_EO_CFG then ballsSince b b.inst.t16 (b.genWrite off val)
  else if off = Reg.ACT_EO_SET then eoWrite true (val &&& 0xFFFF) b
  else if off = Reg.ACT_EO_CLR then eoWrite false (val &&& 0xFFFF) b
  else b.genWrite off val

/-- Stage a requester's words of an entry. -/
def stageAct (r : Requester) (i : Nat) (s : ActStage) (b : Block) : Block :=
  { b with stage := b.stage.set (fun _ => {}) (8 * i + writerOf r) s }

/-- A write to the action queue window (R202, R203): words are staged; the last one arms or cancels. -/
def writeActq (r : Requester) (i k : Nat) (val : Word) (b : Block) : Block :=
  let s := b.staged r i
  if k = 0x0 then stageAct r i { s with key := u64 val ((s.key >>> 32).setWidth 32) } b
  else if k = 0x4 then stageAct r i { s with key := u64 (s.key.setWidth 32) val } b
  else if k = 0x8 then stageAct r i { s with ctrl := val &&& 0x001F07FF } b
  else
    let arg : BitVec 24 := val.setWidth 24
    if bitOf val 30 then cancelByWriter i (stageAct r i { s with arg := arg } b)
    else if bitOf val 31 then
      match armByWriter i (writerOf r) s.key s.ctrl arg b with
      | (true, b) => stageAct r i { s with arg := arg } b
      | (false, b) => b
    else stageAct r i { s with arg := arg } b

/-- A write to the sequencer's registers (R238, R247, R257, R258). -/
def writeSeq (off : Nat) (val : Word) (b : Block) : Block :=
  if off = Reg.SEQ_CTL then
    let b := b.genWrite off val
    if b.bit Reg.SEQ_CTL 0 then b else stopAll b
  else if off = Reg.SEQ_CMD then
    let b := if bitOf val 0 then seqSave b else b
    if bitOf val 1 then seqErase b else b
  else if 0x30100 ≤ off && off < 0x30200 then
    let t := (off - 0x30100) / 0x40
    if off = Reg.SEQ_T_CTL t then threadCtl (Fin.ofNat 4 t) val b
    else if off = Reg.SEQ_T_WAKESET t then wake t val.toNat b
    else b.genWrite off val
  else b.genWrite off val

/-- A write to a thread register word (R259): only while the thread is halted or faulted. -/
def writeGreg (t n : Nat) (hi : Bool) (val : Word) (b : Block) : Block :=
  if b.tState t = 1 || b.tState t = 2 then b
  else
    let old := b.greg t n
    setG t n (if hi then u64 (old.setWidth 32) val else u64 val ((old >>> 32).setWidth 32)) b

/-- A write to instruction memory is denied: to threads, and to all while the program is being saved (R239, R257). -/
def Block.imemDenied (b : Block) (r : Requester) : Bool := writerOf r != 0 || b.bit Reg.SEQ_STAT 11

/-- A write to instruction memory (R239, R257); a fetch in its cycle still gives the old word. -/
def writeImem (r : Requester) (a : Nat) (val : Word) (b : Block) : Block :=
  if b.imemDenied r then b.inc Reg.SEQ_CNT 31 16 1
  else
    let was := (b.seq.imemOld.get (fun _ => none) a).getD (b.seq.imem.get (fun _ => 0) a)
    mendImem a 1 { b with seq := { b.seq with
      imem := b.seq.imem.set (fun _ => 0) a val, imemOld := b.seq.imemOld.set (fun _ => none) a (some was) } }

/-- A write to the HOST block (R263, R270, R274, R278, R279). -/
def writeHost (off : Nat) (val : Word) (b : Block) : Block :=
  if off = Reg.HOST_RING_CTL 0 then writeRingCtl 0 val b
  else if off = Reg.HOST_RING_CTL 1 then writeRingCtl 1 val b
  else if noStream off then b
  else if 0x62000 ≤ off && off < 0x638C0 then
    let s := (off - 0x62000) / 0x20
    if off = Reg.STR_CTL s then writeStrCtl s val b
    else if off = Reg.STR_TAIL s then writeTail s val b
    else b.genWrite off val
  else
    let b' := b.genWrite off val
    if Reg.MSIX_TABLE_CTRL 0 ≤ off && off ≤ Reg.MSIX_TABLE_CTRL 63 && off % 0x10 = 0xC then
      flushMsix ((off - Reg.MSIX_TABLE_CTRL 0) / 0x10) b'
    else b'

/-- A write to the budget and thermal registers (R284, R285, R291). -/
def writeThm (off : Nat) (val : Word) (b : Block) : Block :=
  if off = Reg.THM_EVAL then (if bitOf val 0 then evalStart b else b)
  else if off = Reg.THM_AMB then ambientWritten val.toInt (b.genWrite off val)
  else if off = Reg.BUD_CTL then
    let b := b.genWrite off val
    budgetSettle (b.fld Reg.BUD_STAT 25 16) b
  else b.genWrite off val

/-- The ambient sensor is polled (R329): EN and CTL_EN. -/
def Block.polls (b : Block) : Bool := b.bit Reg.SVC_AMB_CTL 0 && b.bit Reg.SVC_CTL 1

/-- A write to the service port's registers (R321, R326, R329): polling begins with a whole interval; TGT_EN cleared ends a
transaction in progress. -/
def writeSvc (off : Nat) (val : Word) (b : Block) : Block :=
  if off = Reg.SVC_MCMD then (if bitOf val 0 then svcGo b else b)
  else if off = Reg.SVC_AMB_CTL || off = Reg.SVC_CTL then
    let was := b.polls
    let b := b.genWrite off val
    let b := if b.bit Reg.SVC_CTL 0 then b else dropTgt b
    if !was && b.polls then setSvc { b.svc with pollFrom := b.now } b else b
  else b.genWrite off val

/-- CAL_H_CMD.STOP_RETRY (R228): a waiting retry is cancelled and RETRIES cleared. -/
def calStopRetry (h : Nat) (b : Block) : Block :=
  let b := setCal h { (b.hd h).cal with retryAt := none } b
  let b := b.setFld (Reg.CAL_H_STAT h) 31 24 0
  if b.calState h = 9 then setCalState h 0 b else b

/-- The trigger number of a requester (R216). -/
def calTrigger : Requester → Nat
  | .thread _ => 4
  | _ => 3

/-- CAL_H_CMD (R216, R228, R229, R233): its pulses. -/
def calCmd (r : Requester) (h : Nat) (val : Word) (b : Block) : Block :=
  let b := if bitOf val 4 then calStopRetry h b else b
  let b := if bitOf val 0 then calRequest h (calTrigger r) false b else b
  let b := if bitOf val 1 then calRequest h (calTrigger r) true b else b
  let b := if bitOf val 2 then calAbandon h b else b
  if bitOf val 3 then calRestore h b else b

/-- A write to the calibration block (R233). -/
def writeCal (r : Requester) (off : Nat) (val : Word) (b : Block) : Block :=
  if 0xC3400 ≤ off && off < 0xC3A00 && off % 0x40 = 0 then calCmd r ((off - 0xC3400) / 0x40) val b
  else gapSettle (fun b => b.genWrite off val) b

/-- A write to the seam unit (R194): its form is tested again; RELAY_EN set begins an interval with empty sums. -/
def writeSeam (off : Nat) (val : Word) (b : Block) : Block :=
  if 0xE0400 ≤ off && off < 0xE0580 then
    let h := (off - 0xE0400) / 0x10
    if off = Reg.SEAM_H_RG h then trimWrite h true val b
    else if off = Reg.SEAM_H_RO h then trimWrite h false val b
    else b.genWrite off val
  else
    let relay := b.bit Reg.SEAM_CTL 2
    let b := b.genWrite off val
    let b := if !relay && b.bit Reg.SEAM_CTL 2 then { b with seam := { b.seam with updFrom := b.ns, sums := [] } } else b
    seamCheck b

/-- A write to the defect table's registers (R154): of several command bits CLEAR_HEAD, then DELETE, prevails. -/
def writeDef (off : Nat) (val : Word) (b : Block) : Block :=
  if off = Reg.DEF_CMD then
    if bitOf val 2 then defCommand 2 b
    else if bitOf val 1 then defCommand 1 b
    else if bitOf val 0 then defCommand 0 b
    else b
  else b.genWrite off val

/-! ### Head ports and pipelines -/

/-- HD_LINK_CMD (R73, R75, R78, R80): its pulses; several in one write act in the order CMD_GO, MEASURE, RELOAD, RETRAIN
(DESIGN CHOICE, log entry 119). -/
def linkCmd (h : Nat) (val : Word) (b : Block) : Block :=
  let b := if bitOf val 3 then mailboxGo h b else b
  let b := if bitOf val 2 then measureStart h b else b
  let b := if bitOf val 1 then reload h b else b
  if bitOf val 0 then retrainLink h b else b

/-- HD_BIND (R26, R87): its fields are fixed while the head is bound; UNBIND prevails over BIND, which uses the values of
the same write. -/
def bindCmd (r : Requester) (h : Nat) (val : Word) (b : Block) : Block :=
  let b := if b.bound h then b else b.genWrite (Reg.HD_BIND h) val
  if bitOf val 23 then unbindHead h b
  else if bitOf val 22 then (bindHead r h (fieldOf val 4 0) (fieldOf val 11 6) (fieldOf val 21 12) b).2
  else b

/-- HD_BANK.CANCEL (R102): a pending switch is cancelled, a restore's with it. -/
def cancelSwitch (h : Nat) (b : Block) : Block :=
  (b.setHd h { b.hd h with restoring := false }).clrBit (Reg.HD_BANK h) 1

/-- HD_BANK.DIG_GO (R103): the inactive bank's digest, of a head whose last load has succeeded. -/
def digGo (h : Nat) (b : Block) : Block :=
  if b.bit (Reg.HD_BANK h) 4 || !(b.port h).loaded then b else startDigest h (!b.activeBank h) false b

/-- HD_BANK (R102, R103): its pulses. -/
def bankCmd (h : Nat) (val : Word) (b : Block) : Block :=
  let b := b.genWrite (Reg.HD_BANK h) val
  let b := if bitOf val 17 then cancelSwitch h b else if bitOf val 16 then hostSwitch h b else b
  if bitOf val 18 then digGo h b else b

/-- A write to a head port (R85): declarations are fixed while the head is bound. -/
def writeHd (r : Requester) (h off : Nat) (val : Word) (b : Block) : Block :=
  if off = Reg.HD_LINK_CTL h then refreshLink h (b.genWrite off val)
  else if off = Reg.HD_LINK_CMD h then linkCmd h val b
  else if off = Reg.HD_GEOM h || off = Reg.HD_FMT h || off = Reg.HD_RATE h then
    if b.bound h then b else seamCheck (b.genWrite off val)
  else if off = Reg.HD_BIND h then bindCmd r h val b
  else if off = Reg.HD_BANK h then bankCmd h val b
  else if off = Reg.HD_CMD h && b.bit off 31 then b
  else b.genWrite off val

/-- PL_CMD (R107, R112): its pulses. -/
def plCmd (p : Nat) (val : Word) (b : Block) : Block :=
  let b := if bitOf val 2 then preset p b else b
  let b := if bitOf val 1 then cancelBist p b else b
  if bitOf val 0 then bistRequest p b else b

/-- PL_FC_CMD.FC_RESET (R133, R144). -/
def fcReset (p : Nat) (b : Block) : Block :=
  match b.headOf p with
  | some h =>
    let b := clearReadings h true b
    b.setHd h { b.hd h with plane := none }
  | none => b

/-- A write to a pipeline (R89): forecast settings recompute β, TF_CTL.EN set makes the committed plane none. -/
def writePl (p off : Nat) (val : Word) (b : Block) : Block :=
  if off = Reg.PL_CMD p then plCmd p val b
  else if off = Reg.PL_FC_CMD p then (if bitOf val 0 then fcReset p b else b)
  else if off = Reg.PL_FC_CTL p || off = Reg.PL_SEAL_TOL p || off = Reg.PL_BND_MIN p || off = Reg.PL_BND_COLD p then
    let b := b.genWrite off val
    match b.headOf p with
    | some h => recomputeBeta h p b
    | none => b
  else if off = Reg.PL_TF_CTL p then
    let en := b.bit off 0
    let b := b.genWrite off val
    match b.headOf p with
    | some h => if !en && b.bit off 0 then b.setHd h { b.hd h with plane := none } else b
    | none => b
  else if off = Reg.PL_LIN_CMD p then
    let b := if bitOf val 0 then emisSwitch p b else b
    if bitOf val 1 then curveLoad p b else b
  else if off = Reg.PL_TBL_DATA p then tblStep p (tblWrite p (b.fld (Reg.PL_TBL_IDX p) 12 0) val b)
  else if off = Reg.PL_MG_CMD p then
    if bitOf val 1 then mgAbort p b else if bitOf val 0 then mgStart p b else b
  else if off = Reg.PL_TDI_CMD p then (if bitOf val 0 then flushTdi p b else b)
  else if off = Reg.PL_TDI_CTL p || off = Reg.PL_TDI_OUTPITCH p then seamCheck (b.genWrite off val)
  else b.genWrite off val

/-! ### Control space as a whole -/

/-- A write as the unit that owns the offset applies it. -/
def writeUnit (r : Requester) (off : Nat) (val : Word) (b : Block) : Block :=
  if off < 0x10000 then (if off = Reg.SUP_CMD then supCmd val b else b.genWrite off val)
  else if off < 0x10800 then writePos ((off - 0x10000) / 0x100) off val b
  else if off < 0x11000 then b
  else if off < 0x11400 then writeStk ((off - 0x11000) / 0x80) off val b
  else if Reg.STK_PORT 0 ≤ off && off < Reg.STK_PORT 24 then writeStkPort ((off - Reg.STK_PORT 0) / 4) val b
  else if off < 0x12000 then b.genWrite off val
  else if off < 0x13000 then writeTim off val b
  else if off < 0x20000 then writeAct off val b
  else if off < 0x30000 then writeActq r ((off - 0x20000) / 0x10) (off % 0x10) val b
  else if off < 0x31000 then writeSeq off val b
  else if off < 0x31400 then writeGreg ((off - 0x31000) / 0x100) (off % 0x100 / 8) (off % 8 == 4) val b
  else if off < 0x40000 then b
  else if off < 0x50000 then writeImem r ((off - 0x40000) / 4) val b
  else if off < 0x60000 then dmemPut r (off - 0x50000) (leBytes 4 val.toNat) b
  else if off < 0x70000 then (if b.hostHeld then b else writeHost off val b)
  else if off < 0x80000 then writeThm off val b
  else if off < 0xC1000 then writeSvc off val b
  else if off = Reg.PAIR_CTL then writePairCtl val b
  else if off = Reg.PAIR_CMD then pairCmd val b
  else if off = Reg.FLT_JNL_CMD then (if bitOf val 0 then releaseJournal b else b)
  else if off < 0xC3000 then b.genWrite off val
  else if off < 0xC4000 then writeCal r off val b
  else if off = Reg.LDG_CMD then (if bitOf val 0 then ufree b else b)
  else if off < 0xD0000 then b.genWrite off val
  else if off < 0xE0000 then b
  else if off < 0xE1000 then writeSeam off val b
  else if off < 0xF0000 then b.genWrite off val
  else if off < 0x100000 then writeDef off val b
  else if off < 0x118000 then writeHd r ((off - 0x100000) / 0x1000) off val b
  else if 0x1A0000 ≤ off && off < 0x1BA000 then writePl ((off - 0x1A0000) / 0x1000) off val b
  else b

/-! ### In a pair (R110, R337 to R340) -/

/-- Blocks whose writes are mirrored (R338): all but GLB, SUP, TIM, HOST, BUD, THM, SVC, PAIR, LDG, FLT and the journal. -/
def mirrored (off : Nat) : Bool :=
  (decide (0x10000 ≤ off) && decide (off < 0x10800)) || (decide (0x11000 ≤ off) && decide (off < 0x12000))
    || (decide (0x13000 ≤ off) && decide (off < 0x14000)) || (decide (0x20000 ≤ off) && decide (off < 0x60000))
    || (decide (0xC3000 ≤ off) && decide (off < 0xC4000)) || (decide (0xE0000 ≤ off) && decide (off < 0x118000))
    || (decide (0x1A0000 ≤ off) && decide (off < 0x1BA000))

/-- Time registers that the standby's host may not write (R337). -/
def setsTime (off : Nat) : Bool :=
  off == Reg.TIM_INC_NS || off == Reg.TIM_INC_FR || off == Reg.TIM_STEP || off == Reg.TIM_SET_LO || off == Reg.TIM_SET_HI

/-- Mirror a write (R110, R338): arms and cancels go as frames of their own, BIST is each member's own, a bound
pipeline's stage registers go to the pipeline of the same head. -/
def mirrorReg (r : Requester) (off : Nat) (val : Word) (b : Block) : Block :=
  if off = Reg.TIM_INC_NS then mirror (.increment (val.setWidth 8) (b.rd Reg.TIM_INC_FR)) b
  else if !mirrored off || (decide (0x20000 ≤ off) && decide (off < 0x30000)) then b
  else if 0x1A0000 ≤ off then
    let p := (off - 0x1A0000) / 0x1000
    let k := off % 0x1000
    let val := if k = 8 then val &&& 4 else val
    if k = 8 && val = 0 then b
    else match b.headOf p with
      | some h => if k = 8 || (0x80 ≤ k && k < 0x400) then mirror (.stage r b.tim.ns (Fin.ofNat 24 h) (BitVec.ofNat 12 k) val) b
        else mirror (.reg r b.tim.ns (BitVec.ofNat 21 off) val) b
      | none => mirror (.reg r b.tim.ns (BitVec.ofNat 21 off) val) b
  else mirror (.reg r b.tim.ns (BitVec.ofNat 21 off) val) b

/-- SEAM_H_RG or SEAM_H_RO of a head: their writes are mirrored with the frame that they serve (R192). -/
def trimReg (off : Nat) : Bool := decide (0xE0400 ≤ off) && decide (off < 0xE0580) && decide (off % 0x10 < 8)

/-- The mirror of a register write (R338): none of a write that is denied; of data memory the word as the accesses of the
cycle leave it (R240). -/
def mirrorWrite (r : Requester) (off : Nat) (val : Word) (b : Block) : Block :=
  if 0x40000 ≤ off && off < 0x50000 && b.imemDenied r then b
  else if 0x50000 ≤ off && off < 0x60000 then
    let b' := dmemPut r (off - 0x50000) (leBytes 4 val.toNat) b
    mirrorReg r off (BitVec.ofNat 32 (ofLe (b'.dmemBytes (off - 0x50000) 4))) b
  else if trimReg off then b
  else mirrorReg r off val b

/-- The bits of a register that the hardware had set again, while they were 1, in the cycle of a write that clears them: such
a leaf becomes 1 after the clear, which is an interrupt event (R374, R376). -/
def Block.setAgain (b : Block) (off : Nat) (val : Word) : Word :=
  let again := b.upd (off + 1)
  if off = Reg.GLB_BADACC then (if val = 0 then 0 else again)
  else match regRow off with
    | some r => again &&& val &&& r.w1c &&& (leafBits b off).2
    | none => 0

/-- A write of `val` makes an interrupt event by itself, though no leaf and no enable goes from 0 to 1 (R374): it clears a leaf
that the hardware has set again in the cycle; or it writes 1 to a FLT_MASK bit whose FLT_SUM bit is 1, or to an IEN bit whose
ISUM bit is 1, where that mask or enable was 1. -/
def Block.writeEvent (old : Block) (off : Nat) (val : Word) (b : Block) : Bool :=
  if off = Reg.GLB_IEN then (b.isum &&& val &&& old.rd off) != 0 && (b.isum &&& b.rd off &&& ~~~ old.rd off) == 0
  else if off = Reg.FLT_MASK then
    b.bit Reg.GLB_IEN 0 && (b.rd Reg.FLT_SUM &&& val &&& old.rd off) != 0
      && (b.rd Reg.FLT_SUM &&& b.rd off &&& ~~~ old.rd off) == 0
  else old.setAgain off val != 0 && b.bit Reg.GLB_IEN (leafBits b off).1

/-- The interrupt events that a write makes by itself request vector 0 (R374). -/
def writeEvents (old : Block) (off : Nat) (val : Word) (b : Block) : Block :=
  if old.writeEvent off val b then signalVec 0 (b.fld Reg.GLB_IMOD 15 0) b else b

/-- What a write of the writer of place `k` writes (R377): after a write of the same register by a writer of a later place in
the same cycle its RW fields are those already written, and its other bits act. Bind requests keep their parameters, and are
ordered by their senders (R25; DEDUCED, log entry 145). -/
def Block.yields (b : Block) (k off : Nat) (val : Word) : Word :=
  if k + 1 < b.writer off then
    match regRow off with
    | some r => if 0x100000 ≤ off && off < 0x118000 && off % 0x1000 = 0x1C then val else (val &&& ~~~ r.rw) ||| (b.rd off &&& r.rw)
    | none => val
  else val

/-- A window word without register fields that a writer of a later place has written in the same cycle keeps that value
(R377): instruction memory and thread registers. Data memory orders its bytes itself, and the action queue window stages each
writer's words apart. -/
def Block.windowYields (b : Block) (k off : Nat) : Bool :=
  decide (k + 1 < b.writer off)
    && ((decide (0x31000 ≤ off) && decide (off < 0x31400)) || (decide (0x40000 ≤ off) && decide (off < 0x50000)))

/-- A partial write outside the ledger window is discarded and counted (R13). Counts made while the counter is nonzero are
noted for a clear in the same cycle (R374). -/
def badAccess (b : Block) : Block :=
  let off := Reg.GLB_BADACC
  let b := if b.rd off ≠ 0 && b.upd off = 0 then b.setUpd (off + 1) 1 else b
  b.inc off 31 0 1

/-- A write of a head's trims undoes an update made in its cycle (R192). -/
def trimYields (off : Nat) (b : Block) : Block :=
  if trimReg off then undoUpdate ((off - 0xE0400) / 0x10) b else b

/-- A register write by a requester (R10 to R14, R296, R302, R339). -/
def writeReg (r : Requester) (off0 : Nat) (val : Word) (be : BitVec 4) (b : Block) : Block :=
  let off := off0 / 4 * 4
  if be = 0 then b
  else if inLedger off then (if b.bud.down then b else windowWrite r off val be b)
  else if be ≠ 0xF then badAccess b
  else if b.bud.down && !inShutdown off then b
  else if b.standby && (mirrored off || setsTime off) then b.inc Reg.PAIR_CNT_C 15 0 1
  else if b.windowYields (orderOf r) off then b
  else
    let w := b.yields (orderOf r) off val
    writeEvents b off w ((writeUnit r off w (mirrorWrite r off w (trimYields off b))).noteWrite (orderOf r) off)

/-! ### Who may act -/

/-- The units run (R366, R296). -/
def Block.unitsOn (b : Block) : Bool := decide (5 ≤ b.stage_) && !b.bud.down

/-- The position and strike units run: through a warm reset too, in a pair member (R66, R353). -/
def Block.posOn (b : Block) : Bool :=
  !b.bud.down && (decide (5 ≤ b.stage_) || (decide (1 ≤ b.stage_) && b.warmStart && b.member))

/-- A requester's access reaches the registers: the host's once configuration requests are accepted and the link is up
(R366), a thread's while it runs (R238), the service port's once the clocks run. -/
def Block.reaches (b : Block) : Requester → Bool
  | .host => b.cfgReady && b.host.dlUp
  | .thread t => b.seqOn && b.tState t == 1
  | .svc => decide (2 ≤ b.stage_)

/-- An access of a requester. -/
def byRequester (r : Requester) (f : Block → Block) (b : Block) : Block := if b.reaches r then f b else b

/-- A register write of a requester that enables all its bytes. -/
def writeBy (r : Requester) (off : Nat) (val : Word) (b : Block) : Block := byRequester r (writeReg r off val 0xF) b

/-- What the running units do. -/
def whenUnits (f : Block → Block) (b : Block) : Block := if b.unitsOn then f b else b

/-- What the position and strike units do. -/
def whenPos (f : Block → Block) (b : Block) : Block := if b.posOn then f b else b

/-- What a unit does from a row of the start-up on (R366). -/
def fromStage (n : Nat) (f : Block → Block) (b : Block) : Block := if n ≤ b.stage_ then f b else b

/-! ### Carrying out a command -/

/-- What the command that has made `b` of `old` has emitted, newest first. -/
def Block.told (old b : Block) : List Out := b.out.take (b.out.length - old.out.length)

/-- Balls whose drive has changed and that the command has not told of already (R45, R210, R320, R350, R363). -/
def ballsSettle (old b : Block) : Block :=
  let told := old.told b
  let b := forEach (List.range 16) (fun k b =>
    if b.eoDrive k = old.eoDrive k || told.any (fun o => match o with
      | .eo j d _ => j == k && d == b.eoDrive k
      | _ => false)
    then b else b.emit (.eo k (b.eoDrive k) b.inst.t16)) b
  let b := if b.toutBall = old.toutBall || told.any (fun o => match o with
      | .timeOut v _ => v == b.toutBall
      | _ => false)
    then b else b.emit (.timeOut b.toutBall b.ns)
  if b.svcDrive = old.svcDrive then b else b.emit (.svcBalls b.svcDrive.1 b.svcDrive.2 b.now)

/-- What every command ends with, as `old` becomes `b`: interrupt events that arise request vector 0 (R374), changes of the
heads' records are noted (R356), and balls and idle sets follow. -/
def settle (old b : Block) : Block :=
  let c := idleSince old (ballsSettle old (requestSummary old b))
  { c with trail := noteHeads old b }

/-- A command does `f` to the block; the clock stands still. -/
def carryOut (f : Block → Block) (s : State) : Host.Outcome State Fault Refusal :=
  .next { s with blk := { settle s.blk (f s.blk) with now := s.blk.now } }

/-- A command that raises no interrupt event and changes no head does `f` to the block. -/
def quietly (f : Block → Block) (s : State) : Host.Outcome State Fault Refusal :=
  .next { s with blk := { f s.blk with now := s.blk.now } }

/-! ### Reads -/

/-- A read by the host or the service port, answered at once or held while a ledger page is programmed (R302, R305). -/
def readBy (prev : Block) (r : Requester) (off0 : Nat) (b : Block) : Block :=
  let off := off0 / 4 * 4
  if inLedger off && b.ldg.prog.isSome then holdAccess (.read r off) b
  else (sampleRead prev r off b).emit (.data r off (b.readReg prev r off))

end Sys2Proof.Machine
end

