-- ==== Sys2Proof/Machine/ExecAction.lean ====
section
/-! DEFINITION. Action queue, event line and calibration commands (10_verdicts_and_actions.md, 11_shutter_calibration.md). -/

namespace Sys2Proof.Machine

/-- ACT_ARM (R203): a write of word +0xC with ARM, without CANCEL. -/
def execActArm (r : Requester) (i : ActIx) (val : Word) (s : State) : Host.Outcome State Fault Refusal :=
  carryOut (writeBy r (Reg.ACTQ_ARG i.val) (setFieldOf val 31 30 2)) s

/-- ACT_CANCEL (R203): a write of word +0xC with CANCEL and the ARG already staged. -/
def execActCancel (r : Requester) (i : ActIx) (s : State) : Host.Outcome State Fault Refusal :=
  carryOut (fun b => writeBy r (Reg.ACTQ_ARG i.val) (setFieldOf ((b.staged r i.val).arg.setWidth 32) 31 30 1) b) s

/-- KEY_REACHED (R205 to R207). -/
def execKeyReached (i : ActIx) (s : State) : Host.Outcome State Fault Refusal := carryOut (whenUnits (keyReached i.val)) s

/-- ACTION_EXECUTE_DEFERRED (R207). -/
def execActionExecuteDeferred (s : State) : Host.Outcome State Fault Refusal := carryOut (whenUnits (runBacklog 16)) s

/-- EO_SET (R210). -/
def execEoSet (r : Requester) (val : Word) (s : State) : Host.Outcome State Fault Refusal :=
  carryOut (writeBy r Reg.ACT_EO_SET val) s

/-- EO_CLR (R210). -/
def execEoClr (r : Requester) (val : Word) (s : State) : Host.Outcome State Fault Refusal :=
  carryOut (writeBy r Reg.ACT_EO_CLR val) s

/-- EO_PULSE_END (R210). -/
def execEoPulseEnd (k : Fin 16) (s : State) : Host.Outcome State Fault Refusal := carryOut (whenUnits (eoPulseEnd k.val)) s

/-- EVENT_INPUT_CHANGE (R211): while the unit does not run, only the ball changes. -/
def execEventInputChange (i : Fin 8) (level : Bool) (sub : Sub) (s : State) : Host.Outcome State Fault Refusal :=
  carryOut (fun b => if b.unitsOn then eiChange i.val level sub.val b
    else setEi i.val { b.eiCh i.val with raw := level } b) s

/-- EI_EDGE (R211). -/
def execEiEdge (i : Fin 8) (s : State) : Host.Outcome State Fault Refusal :=
  carryOut (whenUnits (gapSettle fun b => match b.eiDue i.val true with
    | some h => eiAccept i.val h b
    | none => b)) s

/-! ### Calibration -/

/-- The age trigger (R215): AGE reads all ones before any accepted run. -/
def calAgeTrigger (h : Nat) (b : Block) : Block :=
  if max 1 (b.num Reg.CAL_RECAL_MAX) < (b.calAge h).getD 0xFFFFFFFF then calAuto h 2 b else b

/-- The retry trigger (R215, R228): it inherits the forced state of the run it repeats. -/
def calRetry (h : Nat) (b : Block) : Block :=
  let c := (b.hd h).cal
  match c.retryAt with
  | some t =>
    if b.calState h == 9 && b.bit Reg.CAL_CTL 0 && b.bound h && decide (t ≤ b.now) then calPend h 7 c.forced b else b
  | none => b

/-- CAL_AGE_TRIGGER (R215). -/
def execCalAgeTrigger (h : Hd) (s : State) : Host.Outcome State Fault Refusal := carryOut (whenUnits (calAgeTrigger h.val)) s

/-- CAL_RETRY_TIMER (R228). -/
def execCalRetryTimer (h : Hd) (s : State) : Host.Outcome State Fault Refusal := carryOut (whenUnits (calRetry h.val)) s

/-- REQ (R216): CAL_H_CMD bit 0. -/
def execReq (r : Requester) (h : Hd) (s : State) : Host.Outcome State Fault Refusal :=
  carryOut (writeBy r (Reg.CAL_H_CMD h.val) 1) s

/-- REQ_FORCE (R216): CAL_H_CMD bit 1. -/
def execReqForce (r : Requester) (h : Hd) (s : State) : Host.Outcome State Fault Refusal :=
  carryOut (writeBy r (Reg.CAL_H_CMD h.val) 2) s

/-- CAL_ABORT (R229): CAL_H_CMD bit 2. -/
def execCalAbort (h : Hd) (s : State) : Host.Outcome State Fault Refusal :=
  carryOut (writeBy .host (Reg.CAL_H_CMD h.val) 4) s

/-- STOP_RETRY (R228): CAL_H_CMD bit 4. -/
def execStopRetry (h : Hd) (s : State) : Host.Outcome State Fault Refusal :=
  carryOut (writeBy .host (Reg.CAL_H_CMD h.val) 16) s

/-- RESTORE (R233): CAL_H_CMD bit 3. -/
def execRestore (h : Hd) (s : State) : Host.Outcome State Fault Refusal :=
  carryOut (writeBy .host (Reg.CAL_H_CMD h.val) 8) s

/-- CAL_RUN_START (R217, R219). -/
def execCalRunStart (h : Hd) (s : State) : Host.Outcome State Fault Refusal := carryOut (whenUnits (calStart h.val)) s

/-- CAL_GRANT (R220). -/
def execCalGrant (h : Hd) (s : State) : Host.Outcome State Fault Refusal := carryOut (whenUnits (calGrant h.val)) s

/-- CAL_SETTLE_END (R221). -/
def execCalSettleEnd (h : Hd) (s : State) : Host.Outcome State Fault Refusal := carryOut (whenUnits (calSettled h.val)) s

/-- CAL_BANK_WRITE (R226). -/
def execCalBankWrite (h : Hd) (s : State) : Host.Outcome State Fault Refusal := carryOut (whenUnits (calBankWrite h.val)) s

/-- CAL_OPEN_SETTLE_END (R221). -/
def execCalOpenSettleEnd (h : Hd) (s : State) : Host.Outcome State Fault Refusal := carryOut (whenUnits (calOpened h.val)) s

end Sys2Proof.Machine
end

