-- ==== Sys2Proof/Machine/ExecBudget.lean ====
section
/-! DEFINITION. Budget and thermal commands (14_budget_and_thermal.md). -/

namespace Sys2Proof.Machine

/-- POWER_SAMPLE (R282): from POWER_OK, also in shutdown (R296). -/
def execPowerSample (mw : List (BitVec 24)) (hbmUtil : Byte) (s : State) : Host.Outcome State Fault Refusal :=
  carryOut (fromStage 1 fun b => calResume (powerSample mw hbmUtil.toNat b)) s

/-- THERMAL_EVALUATION (R283 to R287). -/
def execThermalEvaluation (s : State) : Host.Outcome State Fault Refusal := carryOut (fromStage 2 evalDone) s

/-- EVAL_GO (R284): THM_EVAL bit 0. -/
def execEvalGo (s : State) : Host.Outcome State Fault Refusal := carryOut (writeBy .host Reg.THM_EVAL 1) s

/-- STALENESS_GUARD (R284). -/
def execStalenessGuard (s : State) : Host.Outcome State Fault Refusal := carryOut (fromStage 2 stalenessGuard) s

/-- SHUTDOWN_STOP (R295). -/
def execShutdownStop (s : State) : Host.Outcome State Fault Refusal := carryOut shutdownStop s

/-- THM_AMB_WRITE (R285). -/
def execThmAmbWrite (r : Requester) (val : Word) (s : State) : Host.Outcome State Fault Refusal :=
  carryOut (writeBy r Reg.THM_AMB val) s

/-- AMBIENT_AGE_OUT (R285). -/
def execAmbientAgeOut (s : State) : Host.Outcome State Fault Refusal := carryOut (fromStage 2 ambientAgesOut) s

end Sys2Proof.Machine
end

