-- ==== Sys2Proof/Machine/ExecHead.lean ====
section
/-! DEFINITION. Head link, ingress and binding commands (04_head_link.md, 05_correction_core.md). -/

namespace Sys2Proof.Machine

/-- COMMAND_SEND (R70, R73). -/
def execCommandSend (h : Hd) (s : State) : Host.Outcome State Fault Refusal := carryOut (whenUnits (commandSend h.val)) s

/-- CMD_GO (R73): HD_LINK_CMD bit 3. -/
def execCmdGo (h : Hd) (s : State) : Host.Outcome State Fault Refusal :=
  carryOut (writeBy .host (Reg.HD_LINK_CMD h.val) 8) s

/-- RESPONSE_PACKET (R73). -/
def execResponsePacket (h : Hd) (u : Upstream) (s : State) : Host.Outcome State Fault Refusal :=
  carryOut (whenUnits (responsePacketIn h.val u)) s

/-- CMD_TIMEOUT (R73). -/
def execCmdTimeout (h : Hd) (s : State) : Host.Outcome State Fault Refusal := carryOut (whenUnits (commandTimeout h.val)) s

/-- BLOCK_LOCK (R75): the sync headers that lock a lane arrive. -/
def execBlockLock (h : Hd) (x : LaneHeaders) (s : State) : Host.Outcome State Fault Refusal :=
  carryOut (whenUnits (laneHeaders h.val x)) s

/-- LOCK_LOSS (R75): the sync headers that lose a lane's lock arrive. -/
def execLockLoss (h : Hd) (x : LaneHeaders) (s : State) : Host.Outcome State Fault Refusal :=
  carryOut (whenUnits (laneHeaders h.val x)) s

/-- ALIGNMENT_MARKER (R74). -/
def execAlignmentMarker (h : Hd) (spread : Nat) (s : State) : Host.Outcome State Fault Refusal :=
  carryOut (whenUnits (markersArrive h.val spread)) s

/-- ALIGNMENT_LOSS (R75): of any lane. -/
def execAlignmentLoss (h : Hd) (_lane : Fin 4) (s : State) : Host.Outcome State Fault Refusal :=
  carryOut (whenUnits (alignmentLost h.val)) s

/-- RETRAIN (R75): HD_LINK_CMD bit 0. -/
def execRetrain (h : Hd) (s : State) : Host.Outcome State Fault Refusal :=
  carryOut (writeBy .host (Reg.HD_LINK_CMD h.val) 1) s

/-- RELOAD (R78): HD_LINK_CMD bit 1. -/
def execReload (h : Hd) (s : State) : Host.Outcome State Fault Refusal :=
  carryOut (writeBy .host (Reg.HD_LINK_CMD h.val) 2) s

/-- CHAR_LOAD_COMPLETE (R78, R153). -/
def execCharLoadComplete (h : Hd) (s : State) : Host.Outcome State Fault Refusal := carryOut (whenUnits (loadComplete h.val)) s

/-- CHAR_TIMEOUT (R78). -/
def execCharTimeout (h : Hd) (s : State) : Host.Outcome State Fault Refusal := carryOut (whenUnits (loadTimeout h.val)) s

/-- MEASURE (R80): HD_LINK_CMD bit 2. -/
def execMeasure (h : Hd) (s : State) : Host.Outcome State Fault Refusal :=
  carryOut (writeBy .host (Reg.HD_LINK_CMD h.val) 4) s

/-- ECHO_ANSWER (R80). -/
def execEchoAnswer (h : Hd) (sub : Sub) (s : State) : Host.Outcome State Fault Refusal :=
  carryOut (whenUnits (measureEnd h.val sub.val)) s

/-- ECHO_TIMEOUT (R80). -/
def execEchoTimeout (h : Hd) (s : State) : Host.Outcome State Fault Refusal := carryOut (whenUnits (measureTimeout h.val)) s

/-- LINE_PACKET (R82, R83, R121). -/
def execLinePacket (h : Hd) (u : Upstream) (s : State) : Host.Outcome State Fault Refusal :=
  carryOut (whenUnits (linePacketIn h.val u)) s

/-- TRAILER_PACKET (R83, R99, R22). -/
def execTrailerPacket (h : Hd) (u : Upstream) (s : State) : Host.Outcome State Fault Refusal :=
  carryOut (whenUnits (trailerPacketIn h.val u)) s

/-- TRAILER_TIMEOUT (R83). -/
def execTrailerTimeout (h : Hd) (s : State) : Host.Outcome State Fault Refusal := carryOut (whenUnits (trailerTimeout h.val)) s

/-- HD_BIND_BIND (R23, R87): a write of HD_BIND with BIND alone. -/
def execHdBindBind (r : Requester) (h : Hd) (val : Word) (s : State) : Host.Outcome State Fault Refusal :=
  carryOut (writeBy r (Reg.HD_BIND h.val) (setFieldOf val 23 22 1)) s

/-- HD_BIND_UNBIND (R22, R87): a write of HD_BIND with UNBIND alone, its other fields as they stand. -/
def execHdBindUnbind (r : Requester) (h : Hd) (s : State) : Host.Outcome State Fault Refusal :=
  carryOut (fun b => writeBy r (Reg.HD_BIND h.val) (setFieldOf (b.rd (Reg.HD_BIND h.val)) 23 22 2) b) s

/-- HD_BANK_SWITCH (R102): HD_BANK bit 16. -/
def execHdBankSwitch (h : Hd) (s : State) : Host.Outcome State Fault Refusal :=
  carryOut (writeBy .host (Reg.HD_BANK h.val) 0x10000) s

/-- HD_BANK_CANCEL (R102): HD_BANK bit 17. -/
def execHdBankCancel (h : Hd) (s : State) : Host.Outcome State Fault Refusal :=
  carryOut (writeBy .host (Reg.HD_BANK h.val) 0x20000) s

/-- DIG_GO (R103): HD_BANK bit 18. -/
def execDigGo (h : Hd) (s : State) : Host.Outcome State Fault Refusal :=
  carryOut (writeBy .host (Reg.HD_BANK h.val) 0x40000) s

/-- DIGEST_DONE (R103, R233, R293): Class C work, which pauses without the grant. -/
def execDigestDone (h : Hd) (s : State) : Host.Outcome State Fault Refusal :=
  carryOut (whenUnits fun b => if b.digestRuns h.val then finishDigest h.val b else b) s

/-- PL_BIST (R107): PL_CMD bit 0. -/
def execPlBist (p : Pl) (s : State) : Host.Outcome State Fault Refusal := carryOut (writeBy .host (Reg.PL_CMD p.val) 1) s

/-- BIST_CANCEL (R107): PL_CMD bit 1. -/
def execBistCancel (p : Pl) (s : State) : Host.Outcome State Fault Refusal := carryOut (writeBy .host (Reg.PL_CMD p.val) 2) s

/-- BIST_START (R109). -/
def execBistStart (p : Pl) (s : State) : Host.Outcome State Fault Refusal := carryOut (whenUnits (bistBegin p.val)) s

/-- BIST_END (R109). -/
def execBistEnd (p : Pl) (failUnit : Fin 11) (s : State) : Host.Outcome State Fault Refusal :=
  carryOut (whenUnits fun b => if b.bit (Reg.PL_STAT p.val) 10 then endBist p.val failUnit.val b else b) s

/-- PRESET (R112): PL_CMD bit 2. -/
def execPreset (p : Pl) (s : State) : Host.Outcome State Fault Refusal := carryOut (writeBy .host (Reg.PL_CMD p.val) 4) s

end Sys2Proof.Machine
end

