-- ==== Sys2Proof/Machine/ExecHost.lean ====
section
/-! DEFINITION. Host interface commands (13_host_interface.md). -/

namespace Sys2Proof.Machine

/-- BAR2_READ (R264). -/
def execBar2Read (off len : Nat) (uncorrectable : Bool) (s : State) : Host.Outcome State Fault Refusal :=
  carryOut (bar2Read off len uncorrectable) s

/-- BAR2_WRITE (R20, R264). -/
def execBar2Write (off : Nat) (data : Bar2Data) (s : State) : Host.Outcome State Fault Refusal :=
  carryOut (bar2Write off data) s

/-- B2_BASE_WRITE (R263). -/
def execB2BaseWrite (r : Requester) (hi : Bool) (val : Word) (s : State) : Host.Outcome State Fault Refusal :=
  carryOut (writeBy r (if hi then Reg.HOST_B2_BASE_HI else Reg.HOST_B2_BASE_LO) val) s

/-- STR_TAIL_WRITE (R270). -/
def execStrTailWrite (r : Requester) (st : Strm) (val : Word) (s : State) : Host.Outcome State Fault Refusal :=
  carryOut (writeBy r (Reg.STR_TAIL st.val) val) s

/-- DESC_FETCH (R271). -/
def execDescFetch (st : Strm) (s : State) : Host.Outcome State Fault Refusal := carryOut (fetchDesc st.val) s

/-- DESC_FETCH_DONE (R271). -/
def execDescFetchDone (st : Strm) (e : FetchEnd) (s : State) : Host.Outcome State Fault Refusal :=
  carryOut (fetchDone st.val e) s

/-- DESC_CLOSE_TIMEOUT (R271). -/
def execDescCloseTimeout (st : Strm) (s : State) : Host.Outcome State Fault Refusal := carryOut (closeTimeout st.val) s

/-- DESC_LAUNCH (R272). -/
def execDescLaunch (st : Strm) (s : State) : Host.Outcome State Fault Refusal := carryOut (launchDue st.val) s

/-- DESC_COMPLETE (R273). -/
def execDescComplete (st : Strm) (s : State) : Host.Outcome State Fault Refusal := carryOut (completeDesc st.val) s

/-- RDIDX_WRITE (R274). -/
def execRdidxWrite (r : Requester) (ring : Fin 2) (val : Word) (s : State) : Host.Outcome State Fault Refusal :=
  carryOut (writeBy r (Reg.HOST_RING_RDIDX ring.val) val) s

/-- RECORD_RING_WRITE (R274). -/
def execRecordRingWrite (ring : Fin 2) (s : State) : Host.Outcome State Fault Refusal := carryOut (ringWrite ring.val) s

/-- EGRESS_ROUND (R276). -/
def execEgressRound (s : State) : Host.Outcome State Fault Refusal := carryOut streamRound s

/-- MSIX_MODERATION_EXPIRY (R278). -/
def execMsixModerationExpiry (ring : Fin 201) (s : State) : Host.Outcome State Fault Refusal :=
  carryOut (expireVec ring.val) s

/-- STREAM_ENABLE (R279): STR_CTL with EN 1. -/
def execStreamEnable (r : Requester) (st : Strm) (val : Word) (s : State) : Host.Outcome State Fault Refusal :=
  carryOut (writeBy r (Reg.STR_CTL st.val) (setFieldOf val 0 0 1)) s

/-- STREAM_DISABLE (R279): STR_CTL with EN 0. -/
def execStreamDisable (r : Requester) (st : Strm) (val : Word) (s : State) : Host.Outcome State Fault Refusal :=
  carryOut (writeBy r (Reg.STR_CTL st.val) (setFieldOf val 0 0 0)) s

/-- CONFIGURATION_WRITE (R260, R263): accepted once the device is ready (R366). -/
def execConfigurationWrite (w : CfgWrite) (s : State) : Host.Outcome State Fault Refusal :=
  carryOut (fun b => if b.cfgReady then configWrite w b else configRetry b) s

end Sys2Proof.Machine
end

