-- ==== Sys2Proof/Machine/ExecLedger.lean ====
section
/-! DEFINITION. Ledger commands (15_ledger.md). -/

namespace Sys2Proof.Machine

/-- LEDGER_WINDOW_WRITE (R302). -/
def execLedgerWindowWrite (r : Requester) (addr : BitVec 18) (val : Word) (be : BitVec 4) (s : State) :
    Host.Outcome State Fault Refusal :=
  carryOut (byRequester r (writeReg r (0x080000 + addr.toNat) val be)) s

/-- LEDGER_WRITE_START (R304). -/
def execLedgerWriteStart (s : State) : Host.Outcome State Fault Refusal := carryOut (fromStage 3 writeStart) s

/-- LEDGER_PAGE_DONE (R303): a page in progress at a warm reset finishes too (R353). -/
def execLedgerPageDone (s : State) : Host.Outcome State Fault Refusal := carryOut (fromStage 1 pageDone) s

/-- UFREE (R314): LDG_CMD bit 0. -/
def execUfree (s : State) : Host.Outcome State Fault Refusal := carryOut (writeBy .host Reg.LDG_CMD 1) s

/-- COUNTERS_PERIOD (R310). -/
def execCountersPeriod (s : State) : Host.Outcome State Fault Refusal :=
  carryOut (fromStage 3 fun b => if b.countersDue then queueCounters b else b) s

/-- JSUM_WRITE (R310). -/
def execJsumWrite (s : State) : Host.Outcome State Fault Refusal := carryOut (fromStage 3 jsumWrite) s

end Sys2Proof.Machine
end

