-- ==== Sys2Proof/Machine/ExecLines.lean ====
section
/-! DEFINITION. Correction, seal, defect, radiometry, band, seam and verdict commands (05 to 10). -/

namespace Sys2Proof.Machine

/-- LINE_CORRECTION (R91 to R100, R349). -/
def execLineCorrection (h : Hd) (mismatch : List Mismatch) (records : List LostRecord) (buffers : List PixelAt) (s : State) :
    Host.Outcome State Fault Refusal :=
  carryOut (whenUnits (leavePipe h.val mismatch records buffers)) s

/-- SEAL_DECISION (R119). -/
def execSealDecision (h : Hd) (s : State) : Host.Outcome State Fault Refusal := carryOut (whenUnits (sealDecide h.val)) s

/-- RESTRIKE_START (R120). -/
def execRestrikeStart (h : Hd) (s : State) : Host.Outcome State Fault Refusal := carryOut (whenUnits (restrikeStart h.val)) s

/-- RESTRIKE_END (R120). -/
def execRestrikeEnd (r : Restrike) (s : State) : Host.Outcome State Fault Refusal :=
  carryOut (whenUnits (restrikeEnd r.head.val r.mismatch)) s

/-- FC_RESET (R133): PL_FC_CMD bit 0. -/
def execFcReset (p : Pl) (s : State) : Host.Outcome State Fault Refusal := carryOut (writeBy .host (Reg.PL_FC_CMD p.val) 1) s

/-- INSERT (R154): DEF_CMD bit 0. -/
def execInsert (s : State) : Host.Outcome State Fault Refusal := carryOut (writeBy .host Reg.DEF_CMD 1) s

/-- DELETE (R154): DEF_CMD bit 1. -/
def execDelete (s : State) : Host.Outcome State Fault Refusal := carryOut (writeBy .host Reg.DEF_CMD 2) s

/-- CLEAR_HEAD (R154): DEF_CMD bit 2. -/
def execClearHead (s : State) : Host.Outcome State Fault Refusal := carryOut (writeBy .host Reg.DEF_CMD 4) s

/-- DEF_EDIT_DONE (R154). -/
def execDefEditDone (s : State) : Host.Outcome State Fault Refusal := carryOut (whenUnits defEditDone) s

/-- DEF_DATA_READ (R156). -/
def execDefDataRead (r : Requester) (s : State) : Host.Outcome State Fault Refusal :=
  carryOut (byRequester r (readBy s.prev r Reg.DEF_DATA)) s

/-- EMIS_SWITCH (R161): PL_LIN_CMD bit 0. -/
def execEmisSwitch (p : Pl) (s : State) : Host.Outcome State Fault Refusal := carryOut (writeBy .host (Reg.PL_LIN_CMD p.val) 1) s

/-- CURVE_LOAD (R167): PL_LIN_CMD bit 1. -/
def execCurveLoad (p : Pl) (s : State) : Host.Outcome State Fault Refusal := carryOut (writeBy .host (Reg.PL_LIN_CMD p.val) 2) s

/-- CURVE_LOAD_DONE (R167). -/
def execCurveLoadDone (h : Hd) (s : State) : Host.Outcome State Fault Refusal := carryOut (whenUnits (curveLoadDone h.val)) s

/-- TBL_DATA_ACCESS (R173): a write of a value, or a read. -/
def execTblDataAccess (r : Requester) (p : Pl) (write : Option Word) (s : State) : Host.Outcome State Fault Refusal :=
  match write with
  | some v => carryOut (writeBy r (Reg.PL_TBL_DATA p.val) v) s
  | none => carryOut (byRequester r (readBy s.prev r (Reg.PL_TBL_DATA p.val))) s

/-- MG_START (R168): PL_MG_CMD bit 0. -/
def execMgStart (p : Pl) (s : State) : Host.Outcome State Fault Refusal := carryOut (writeBy .host (Reg.PL_MG_CMD p.val) 1) s

/-- MG_ABORT (R168): PL_MG_CMD bit 1. -/
def execMgAbort (p : Pl) (s : State) : Host.Outcome State Fault Refusal := carryOut (writeBy .host (Reg.PL_MG_CMD p.val) 2) s

/-- MERGE_RUN_BEGIN (R168). -/
def execMergeRunBegin (h : Hd) (s : State) : Host.Outcome State Fault Refusal := carryOut (whenUnits (mgBegin h.val)) s

/-- MERGE_ACCUMULATE (R170). -/
def execMergeAccumulate (h : Hd) (s : State) : Host.Outcome State Fault Refusal := carryOut (whenUnits (mgAccumulate h.val)) s

/-- BAND_INTEGRATION (R176 to R180). -/
def execBandIntegration (h : Hd) (s : State) : Host.Outcome State Fault Refusal := carryOut (whenUnits (integrateBand h.val)) s

/-- FLUSH (R178): PL_TDI_CMD bit 0. -/
def execFlush (p : Pl) (s : State) : Host.Outcome State Fault Refusal := carryOut (writeBy .host (Reg.PL_TDI_CMD p.val) 1) s

/-- STRIP_LINE_FORM (R187). -/
def execStripLineForm (s : State) : Host.Outcome State Fault Refusal := carryOut (whenUnits stripForm) s

/-- SEAM_WAIT_EXPIRY (R187). -/
def execSeamWaitExpiry (s : State) : Host.Outcome State Fault Refusal := carryOut (whenUnits stripExpire) s

/-- RELAY_UPDATE (R190, R191). -/
def execRelayUpdate (s : State) : Host.Outcome State Fault Refusal := carryOut (whenUnits relayUpdate) s

/-- TRIM_WRITE (R192): SEAM_H_RG (gain) or SEAM_H_RO. -/
def execTrimWrite (r : Requester) (h : Hd) (gain : Bool) (val : Word) (s : State) : Host.Outcome State Fault Refusal :=
  carryOut (writeBy r (if gain then Reg.SEAM_H_RG h.val else Reg.SEAM_H_RO h.val) val) s

/-- VERDICT_EVALUATION (R199, R128). -/
def execVerdictEvaluation (s : State) : Host.Outcome State Fault Refusal := carryOut (whenUnits verdictEval) s

end Sys2Proof.Machine
end

