-- ==== Sys2Proof/Machine/Mirror.lean ====
section
/-! DEFINITION. Mirrored state (17_pair_operation.md, R231, R297, R338, R345): WRITE frames as the standby applies them,
and the bulk transfer of a join. -/

namespace Sys2Proof.Machine

/-! ### WRITE frames (R338) -/

/-- A thread starts or stops running at the active member (R344). -/
def noteThread (t : Nat) (on : Bool) (b : Block) : Block :=
  let others := b.pair.running.erase t
  setPair { b.pair with running := if on then t :: others else others } b

/-- A mirrored register write, by its writer. WRITE frames leave the active member as it applies the writes, so those of one
tick arrive in writer order, after the tick that they carry, and apply as they arrive (DEDUCED, log entry
150). -/
def applyReg (r : Requester) (off : Nat) (val : Word) (b : Block) : Block :=
  if b.windowYields (orderOf r) off then b
  else (writeUnit r off (b.yields (orderOf r) off val) b).noteWrite (orderOf r) off

/-- A mirrored write to the stage registers of a head's pipeline (R110). -/
def applyStage (r : Requester) (h k : Nat) (val : Word) (b : Block) : Block :=
  if b.bound h then applyReg r (0x1A0000 + b.curPipe h * 0x1000 + k / 4 * 4) val b else b

/-- A head's forecast state as the active member decided with it (R123); before a first decision β follows the registers. -/
def applyForecast (h : Nat) (rs : List Reading) (beta : Nat) (eps : List Nat) (b : Block) : Block :=
  let x := b.hd h
  refreshForecast h (b.curPipe h)
    (b.setHd h { x with readings := rs, beta := if eps.isEmpty then none else some beta, betaCold := decide (rs.length < 8), eps := eps })

/-- A calibration run starts at the active member (R231): this one collects what it names. -/
def applyCalStart (h : Nat) (forced : Bool) (b : Block) : Block :=
  let b := setCal h { (b.hd h).cal with forced := forced } b
  calClear h (setCalState h 5 (calBegin h b))

/-- A frame that the active member uses (R231): collected at its decision, or now where it is decided; one that was forgotten
here is left out. -/
def applyCalFrame (h : Nat) (num : Word) (b : Block) : Block :=
  let x := b.hd h
  let gone := !(x.frames.any (·.num == num)) && (match x.lastNum with | some n => !frameBefore n num | none => false)
  if gone then b else calCollect h (setCal h { x.cal with wanted := x.cal.wanted ++ [num] } b)

/-- The shuttered strikes of the active member's run (R222): their end is that of its step 6, which ends the run here. -/
def applyCalShut (h t : Nat) (to_ : Option (BitVec 68)) (b : Block) : Block :=
  let b := setCal h { (b.hd h).cal with shutFrom := some t, shutTo := to_.map BitVec.toNat } b
  if to_.isSome && b.calState h == 8 then calEnd h b else b

/-- The active member switches banks at the end of a frame (R231). -/
def applyCalSwitch (h : Nat) (after : Word) (b : Block) : Block :=
  calSwitchTry h (setCal h { (b.hd h).cal with swAfter := some after } b)

/-- What a WRITE frame does at the standby (R338). -/
def applyMirror (w : PairWrite) (b : Block) : Block :=
  match w with
  | .reg r _ off val => applyReg r (off.toNat / 4 * 4) val b
  | .stage r _ h off val => applyStage r h.val off.toNat val b
  | .hbm a data => hbmWrite (enabledBytes a data) b
  | .thread t on => noteThread t.val on b
  | .forecast h rs beta eps => applyForecast h.val rs beta.toNat (eps.map BitVec.toNat) b
  | .trim h frame rg ro => trimHeard h.val frame rg ro b
  | .calStart h forced => applyCalStart h.val forced b
  | .calFrame h num => applyCalFrame h.val num b
  | .calOutcome h cause => calOutcomeHeard h.val cause.toNat b
  | .calShut h t to_ => applyCalShut h.val t.toNat to_ b
  | .calSwitch h after => applyCalSwitch h.val after b
  | .frameStep h num step =>
    let x := b.hd h.val
    b.setHd h.val { x with mirStep := (x.mirStep ++ [(num, step.val)]).drop (x.mirStep.length - 7) }
  | .ledger kind h body seq => queueWrite (.copy kind h.val body seq) b
  | .increment ns fr => incWrite (ns.setWidth 32) (b.wr Reg.TIM_INC_FR fr)

/-! ### Bulk transfer (R345) -/

/-- Offsets of the registers of one block. -/
def RegBlock.offsets (k : RegBlock) : List Nat :=
  (List.range k.count).flatMap fun i => k.regs.flatMap fun r =>
    (List.range r.count).map fun j => k.base + i * k.stride + r.off + j * r.stride

/-- Registers that a join copies: those of the mirrored blocks, but each member's own links, pipeline duties, the positions,
the defect table and the action queue window, which go as parts of their own. -/
def joinOffset (o : Nat) : Bool :=
  mirrored o && !(decide (0x20000 ≤ o) && decide (o < 0x30000))
    && !(decide (0x10000 ≤ o) && decide (o < 0x10800) && decide (0x10 ≤ o % 0x100) && decide (o % 0x100 < 0x20))
    && !(decide (0x100000 ≤ o) && decide (o < 0x118000) && o % 0x1000 == 4)
    && !(decide (0x1A0000 ≤ o) && ((decide (0 < o % 0x1000) && decide (o % 0x1000 < 0x10)) || o % 0x1000 == 0x264))
    && o != Reg.DEF_DATA && o != Reg.DEF_TOTAL

/-- A part of the bulk transfer (R345): each is read as it is sent, so that a later WRITE applies over it. -/
inductive BulkPart where
  | reg (off : Nat)
  /-- an entry of a pipeline's table window -/
  | table (p i : Nat)
  | defects
  | group (g : Nat)
  | position (ch : Nat)
  | action (i : Nat)
  | forecast (h : Nat)
  /-- 4,096 bytes of a head's active bank -/
  | bank (h k : Nat)
  | done
  deriving DecidableEq, Repr

/-- The bulk transfer in order: registers and tables, both sequencer memories, the action queue, forecast state, active banks. -/
def bulkParts : List BulkPart :=
  ((regBlocks.flatMap RegBlock.offsets).filter joinOffset).map .reg
    ++ (List.range 26).flatMap (fun p => (List.range 0x1D00).map (.table p))
    ++ [.defects] ++ (List.range 8).map .group ++ (List.range 8).map .position
    ++ (List.range 0x8000).map (fun i => .reg (0x40000 + 4 * i))
    ++ (List.range 4096).map .action ++ (List.range 24).map .forecast
    ++ (List.range 24).flatMap (fun h => (List.range 0x3000).map (.bank h)) ++ [.done]

/-- What no register holds of a strike group. -/
def bulkGroup (g : Nat) (b : Block) : BulkItem :=
  let s := b.grp g
  .group (Fin.ofNat 8 g) s.seq (s.last.map fun r => (b.instOf r).t16) (s.idle.map fun r => b.inst.t16 + (r - b.now))

/-- A position channel as it is copied. -/
def bulkPosition (n : Nat) (b : Block) : BulkItem :=
  let c := b.ch n
  .position (Fin.ofNat 8 n) c.base c.frozen (c.slip + c.carried) (c.hwmAt b.now) (c.last.map Inst.t16)

/-- An armed entry as it is copied. -/
def bulkAction (i : Nat) (b : Block) : List BulkItem :=
  let e := b.actE i
  if h : i < 4096 then
    if e.st = 1 then
      [.action { i := ⟨i, h⟩, key := e.key, ctrl := e.ctrl, arg := e.arg, writer := Fin.ofNat 6 e.writer,
                 start := e.start.getD b.tim.ns }]
    else []
  else []

/-- A part of the bulk transfer as it is sent: tables and the defect table through their data registers, after which the index
stands as it did. -/
def BulkPart.items (x : BulkPart) (b : Block) : List BulkItem :=
  let reg (o : Nat) (v : Word) : BulkItem := .reg (BitVec.ofNat 21 o) v
  match x with
  | .reg o => [reg o (b.readNow .host o)]
  | .table p i => [reg (Reg.PL_TBL_IDX p) (BitVec.ofNat 32 i), reg (Reg.PL_TBL_DATA p) (tblRead p i b),
                   reg (Reg.PL_TBL_IDX p) (b.rd (Reg.PL_TBL_IDX p))]
  | .defects => reg Reg.DEF_TOTAL 0 :: b.defTab.map (reg Reg.DEF_DATA)
  | .group g => [bulkGroup g b]
  | .position n => [bulkPosition n b]
  | .action i => bulkAction i b
  | .forecast h =>
    if b.bound h then
      let (rs, beta, eps) := b.forecastOf h
      [.forecast (Fin.ofNat 24 h) rs beta eps]
    else []
  | .bank h k =>
    let a := bankAddr h (b.activeBank h) + 4096 * k
    if b.bound h then [.hbm a (b.hbmBytes a 4096)] else []
  | .done => [.done]

/-- One part leaves, unless the replay buffer is full (R333). -/
def bulkPart (x : BulkPart) (b : Block) : Block :=
  if b.trail.link.full then b
  else setPair { b.pair with bulkAt := b.pair.bulkAt + 1 } (forEach (x.items b) (fun i => sendFrame (.bulk i)) b)

/-- The bulk transfer leaves under the Class C grant (R288, R345), once the partner has reported that it joins (DEDUCED, log
entry 151), as far as the replay buffer has room. -/
def bulkSend (b : Block) : Block :=
  if b.pair.bulkOwed && b.mirroring && b.pair.peerRole == 2 && b.pair.peerJoin == 1 && b.cBulk then
    let b := forEach (bulkParts.drop b.pair.bulkAt) bulkPart b
    if bulkParts.length ≤ b.pair.bulkAt then setPair { b.pair with bulkOwed := false } b else b
  else b

/-- A copied position (R33, R37, R39): transitions counted here since the last one that the active member had counted are added
to it (DESIGN CHOICE, log entry 153). -/
def joinPosition (n : Nat) (base : Pos48) (frozen : Option Int) (slip : Int) (hwm : Pos48) (last : Option Nat) (b : Block) : Block :=
  let c := b.ch n
  let newer : Nat := match last with
    | some t => (c.run.filter fun r => decide (t + 128 < (b.instOf r).t16)).length
    | none => 0
  let d : Int := if c.fwd then newer * 256 else -(newer * 256 : Nat)
  let p := base + toPos d
  b.setCh n { c with base := p, frozen := if newer = 0 then frozen <|> c.frozen else c.frozen, slip := slip + d, carried := 0,
                     hwm := if 0 < posDiff p hwm then p else hwm }

/-- A copied register of a strike group: the next point follows it (R53). -/
def joinStk (off : Nat) (val : Word) (b : Block) : Block :=
  let g := (off - 0x11000) / 0x80
  let s := b.grp g
  if off = Reg.STK_GRP_NEXT_LO g then b.setGrp g { s with next := posOf val (posHi s.next) }
  else if off = Reg.STK_GRP_NEXT_HI g then b.setGrp g { s with next := posOf (posLo s.next) val }
  else b.wr off val

/-- A copied binding (R345): the head is bound to the same pipeline here. -/
def joinBind (h : Nat) (val : Word) (b : Block) : Block :=
  let b := b.genWrite (Reg.HD_BIND h) val
  if bitOf val 31 && !b.bound h then (bindHead .host h (fieldOf val 28 24) (fieldOf val 11 6) (fieldOf val 21 12) b).2
  else b

/-- A copied entry of a pipeline's table window (R173); entries that writes do not reach are set all the same. -/
def joinTable (p : Nat) (val : Word) (b : Block) : Block :=
  let i := b.fld (Reg.PL_TBL_IDX p) 12 0
  let q := b.pl p
  let act := if b.bit (Reg.PL_LIN_CTL p) 4 then 256 else 0
  let curve (a n : Nat) : Block := match b.headOf p with
    | some h => b.setHd h { b.hd h with curves := (b.hd h).curves.setList (fun _ => 0) a (leBytes n val.toNat) }
    | none => b
  let res (active : Bool) (k : Nat) : Block := match b.headOf p with
    | some h => curve (resAddr ((b.hd h).resAct == active) + 2 * k) 2
    | none => b
  if i < 0x1000 then curve (4 * i) 4
  else if i < 0x1400 then curve (0x4000 + 4 * (i - 0x1000)) 4
  else if 0x1500 ≤ i ∧ i < 0x1600 then
    b.setPl p { q with emis := q.emis.set (fun _ => 0x8000) (act + (i - 0x1500)) val }
  else if 0x1600 ≤ i ∧ i < 0x1640 then res true (i - 0x1600)
  else if 0x1640 ≤ i ∧ i < 0x1680 then res false (i - 0x1640)
  else tblWrite p i val b

/-- A register or table entry of the bulk transfer. -/
def joinReg (off : Nat) (val : Word) (b : Block) : Block :=
  if 0x11000 ≤ off && off < 0x11400 then joinStk off val b
  else if 0x30100 ≤ off && off < 0x30200 && off % 0x40 = 8 then
    let t := (off - 0x30100) / 0x40
    noteThread t (decide (fieldOf val 3 0 = 1) || decide (fieldOf val 3 0 = 2)) b
  else if 0x40000 ≤ off && off < 0x50000 then
    mendImem ((off - 0x40000) / 4) 1
      { b with seq := { b.seq with imem := b.seq.imem.set (fun _ => 0) ((off - 0x40000) / 4) val } }
  else if 0x50000 ≤ off && off < 0x60000 then dmemPut .host (off - 0x50000) (leBytes 4 val.toNat) b
  else if off = Reg.DEF_TOTAL then { b with defTab := [] }
  else if off = Reg.DEF_DATA then { b with defTab := (defApply 0 val b.defTab).1 }
  else if 0x100000 ≤ off && off < 0x118000 && off % 0x1000 = 0x1C then joinBind ((off - 0x100000) / 0x1000) val b
  else if 0x100000 ≤ off && off < 0x118000 && off % 0x1000 = 0x24 then
    b.putBit off 0 (bitOf val 0)
  else if 0x1A0000 ≤ off && off % 0x1000 = 0x264 then joinTable ((off - 0x1A0000) / 0x1000) val b
  else if off = Reg.SEAM_SEQ then setPair { b.pair with stripCrc := 0, stripCrcs := [] } (b.wr off val)
  else if off = Reg.VRD_SEQ then setPair { b.pair with vrdCrc := 0, vrdCrcs := [] } (b.wr off val)
  else b.wr off val

/-- The reference time of a device time near the present (the model's own conversion: DESIGN CHOICE, log entry 153). -/
def Block.refNear (b : Block) (t : Nat) : Nat := ((b.now : Int) + ((t : Int) - b.inst.t16)).toNat

/-- What no register holds of a strike group, copied (R345): the SEQ of its next strike, its last strike and its idle cadence.
Records of strikes that the active member numbered otherwise are no longer the group's (DESIGN CHOICE, log entry 123). -/
def joinGroup (g : Nat) (n : BitVec 16) (last idle : Option Nat) (b : Block) : Block :=
  let s := b.grp g
  b.setGrp g { s with seq := n, recs := if s.seq = n then s.recs else [], last := last.map b.refNear, idle := idle.map b.refNear }

/-- A BULK frame at the standby (R345). -/
def applyBulk (x : BulkItem) (b : Block) : Block :=
  match x with
  | .reg off val => joinReg (off.toNat / 4 * 4) val b
  | .hbm a data => hbmPut a data b
  | .action f => armMirrored f b
  | .forecast h rs beta eps => applyForecast h.val rs beta.toNat (eps.map BitVec.toNat) b
  | .group g n last idle => joinGroup g.val n last idle b
  | .position n base frozen slip hwm last => joinPosition n.val base frozen slip hwm last b
  | .done => setPair { b.pair with bulkDone := true } b

end Sys2Proof.Machine
end

