-- ==== Sys2Proof/Machine/ExecPair.lean ====
section
/-! DEFINITION. Pair commands (17_pair_operation.md). -/

namespace Sys2Proof.Machine

/-- HEARTBEAT_SEND (R333, R336). -/
def execHeartbeatSend (s : State) : Host.Outcome State Fault Refusal := carryOut (whenUnits heartbeatSend) s

/-- HEARTBEAT (R336, R337). -/
def execHeartbeat (f : HbFrame) (s : State) : Host.Outcome State Fault Refusal := carryOut (whenUnits (heartbeat f)) s

/-- WRITE (R338). -/
def execWrite (w : PairWrite) (s : State) : Host.Outcome State Fault Refusal :=
  carryOut (whenUnits (atStandby (applyMirror w))) s

/-- ARM_FRAME (R340). -/
def execArmFrame (f : ArmFrame) (s : State) : Host.Outcome State Fault Refusal :=
  carryOut (whenUnits (atStandby (armMirrored f))) s

/-- CANCEL_FRAME (R340). -/
def execCancelFrame (i : ActIx) (s : State) : Host.Outcome State Fault Refusal :=
  carryOut (whenUnits (atStandby (cancelAct i.val))) s

/-- EXEC (R340). -/
def execExec (i : ActIx) (s : State) : Host.Outcome State Fault Refusal :=
  carryOut (whenUnits (atStandby (execConfirmed i.val))) s

/-- DIGEST (R341). -/
def execDigest (f : DigestFrame) (s : State) : Host.Outcome State Fault Refusal :=
  carryOut (whenUnits (atMember (partnerDigest f))) s

/-- LINECRC (R342). -/
def execLinecrc (f : LineCrcFrame) (s : State) : Host.Outcome State Fault Refusal :=
  carryOut (whenUnits (atMember (partnerCrcs f))) s

/-- HANDOVER_FRAME (R343). -/
def execHandoverFrame (bounds : List (BitVec 16)) (th : BitVec 64) (s : State) : Host.Outcome State Fault Refusal :=
  carryOut (whenUnits (handoverHeard bounds th)) s

/-- FAULT_FRAME (R344). -/
def execFaultFrame (s : State) : Host.Outcome State Fault Refusal := carryOut (whenUnits faultHeard) s

/-- BULK (R345). -/
def execBulk (x : BulkItem) (s : State) : Host.Outcome State Fault Refusal :=
  carryOut (whenUnits (atStandby (applyBulk x))) s

/-- PAIR_FRAME_ERROR (R333). -/
def execPairFrameError (s : State) : Host.Outcome State Fault Refusal := carryOut (whenUnits badFrame) s

/-- PAIR_LINK_DOWN (R333). -/
def execPairLinkDown (s : State) : Host.Outcome State Fault Refusal := carryOut (whenUnits linkDownPair) s

/-- PAIR_LINK_UP (R334, R345). -/
def execPairLinkUp (f : PartnerId) (s : State) : Host.Outcome State Fault Refusal := carryOut (whenUnits (linkUpPair f)) s

/-- HEARTBEAT_LOSS (R336, R344). -/
def execHeartbeatLoss (s : State) : Host.Outcome State Fault Refusal := carryOut (whenUnits heartbeatLost) s

/-- ROLE_TIMEOUT (R334, R353). -/
def execRoleTimeout (s : State) : Host.Outcome State Fault Refusal := carryOut (whenUnits roleTimeout) s

/-- PAIR_PHASE_STEP (R337). -/
def execPairPhaseStep (s : State) : Host.Outcome State Fault Refusal := carryOut (whenUnits pairPhaseStep) s

/-- HANDOVER_BALL_DRIVE (R343). -/
def execHandoverBallDrive (s : State) : Host.Outcome State Fault Refusal := carryOut (whenUnits handoverBalls) s

/-- JOIN_COMPLETE (R345). -/
def execJoinComplete (s : State) : Host.Outcome State Fault Refusal := carryOut (whenUnits joinComplete) s

/-- HANDOVER (R343): PAIR_CMD bit 0. -/
def execHandover (s : State) : Host.Outcome State Fault Refusal := carryOut (writeBy .host Reg.PAIR_CMD 1) s

/-- JOIN (R345): PAIR_CMD bit 1. -/
def execJoin (s : State) : Host.Outcome State Fault Refusal := carryOut (writeBy .host Reg.PAIR_CMD 2) s

/-- LEAVE (R345): PAIR_CMD bit 2. -/
def execLeave (s : State) : Host.Outcome State Fault Refusal := carryOut (writeBy .host Reg.PAIR_CMD 4) s

/-- ID_SAVE (R335): PAIR_CMD bit 3. -/
def execIdSave (s : State) : Host.Outcome State Fault Refusal := carryOut (writeBy .host Reg.PAIR_CMD 8) s

end Sys2Proof.Machine
end

