-- ==== Sys2Proof/Machine/ExecPosition.lean ====
section
/-! DEFINITION. Position, time and strike commands (02_position_and_time.md, 03_strike_and_lockstep.md). -/

namespace Sys2Proof.Machine

/-! ### Position -/

/-- A level change at an encoder ball while the unit does not run: only the ball changes. -/
def encoderBall (n : Nat) (pin : EncPin) (level : Bool) (b : Block) : Block :=
  b.setCh n ((b.ch n).setHold pin level ((b.ch n).hold pin))

/-- ENCODER_LEVEL_CHANGE (R29). -/
def execEncoderLevelChange (ch : Chan) (pin : EncPin) (level : Bool) (sub : Sub) (s : State) :
    Host.Outcome State Fault Refusal :=
  carryOut (fun b => if b.posOn then gapSettle (encoderChange ch.val pin level sub.val) b else encoderBall ch.val pin level b) s

/-- FILTER_ACCEPT (R29 to R31, R36). -/
def execFilterAccept (ch : Chan) (pin : EncPin) (s : State) : Host.Outcome State Fault Refusal :=
  carryOut (whenPos (gapSettle (filterAccept ch.val pin))) s

/-- STANDSTILL (R32, R178). -/
def execStandstill (ch : Chan) (s : State) : Host.Outcome State Fault Refusal :=
  carryOut (whenPos (flushStill ch.val (standstill ch.val))) s

/-- POS_CTL_WRITE (R32, R39). -/
def execPosCtlWrite (r : Requester) (ch : Chan) (val : Word) (s : State) : Host.Outcome State Fault Refusal :=
  carryOut (writeBy r (Reg.POS_CTL ch.val) val) s

/-- POS_STALL_WRITE (R32). -/
def execPosStallWrite (r : Requester) (ch : Chan) (val : Word) (s : State) : Host.Outcome State Fault Refusal :=
  carryOut (writeBy r (Reg.POS_STALL ch.val) val) s

/-- HWM_TO_POS (R37): POS_CMD bit 2. -/
def execHwmToPos (ch : Chan) (s : State) : Host.Outcome State Fault Refusal :=
  carryOut (writeBy .host (Reg.POS_CMD ch.val) 4) s

/-- SLIP_REARM (R39): POS_CMD bit 1. -/
def execSlipRearm (ch : Chan) (s : State) : Host.Outcome State Fault Refusal :=
  carryOut (writeBy .host (Reg.POS_CMD ch.val) 2) s

/-- LOAD (R38): POS_CMD bit 0. -/
def execLoad (ch : Chan) (s : State) : Host.Outcome State Fault Refusal :=
  carryOut (writeBy .host (Reg.POS_CMD ch.val) 1) s

/-! ### Time -/

/-- TIM_INC_WRITE (R42). -/
def execTimIncWrite (r : Requester) (val : Word) (s : State) : Host.Outcome State Fault Refusal :=
  carryOut (writeBy r Reg.TIM_INC_NS val) s

/-- STEP (R43): TIM_CMD bit 0. -/
def execStep (s : State) : Host.Outcome State Fault Refusal := carryOut (writeBy .host Reg.TIM_CMD 1) s

/-- SET (R43): TIM_CMD bit 1. -/
def execSet (s : State) : Host.Outcome State Fault Refusal := carryOut (writeBy .host Reg.TIM_CMD 2) s

/-- PPS_EDGE (R44). -/
def execPpsEdge (rising : Bool) (sub : Sub) (s : State) : Host.Outcome State Fault Refusal :=
  carryOut (fromStage 5 (ppsEdge rising sub.val)) s

/-- PPS_MISS (R44). -/
def execPpsMiss (s : State) : Host.Outcome State Fault Refusal := carryOut (fromStage 5 ppsMiss) s

/-- TOUT_ARM (R45): TIM_CMD bit 2. -/
def execToutArm (s : State) : Host.Outcome State Fault Refusal := carryOut (writeBy .host Reg.TIM_CMD 4) s

/-- TOUT_STOP (R45): TIM_CMD bit 3. -/
def execToutStop (s : State) : Host.Outcome State Fault Refusal := carryOut (writeBy .host Reg.TIM_CMD 8) s

/-- TOUT_EDGE (R45). -/
def execToutEdge (s : State) : Host.Outcome State Fault Refusal := carryOut (fromStage 1 toutEdge) s

/-- TOUT_PULSE_END (R45). -/
def execToutPulseEnd (s : State) : Host.Outcome State Fault Refusal := carryOut (fromStage 1 toutPulseEnd) s

/-- PTM_REQ (R46): TIM_CMD bit 4. -/
def execPtmReq (s : State) : Host.Outcome State Fault Refusal := carryOut (writeBy .host Reg.TIM_CMD 16) s

/-- PTM_AUTO_INTERVAL (R46). -/
def execPtmAutoInterval (s : State) : Host.Outcome State Fault Refusal := carryOut (fromStage 5 ptmAuto) s

/-- PTM_RESPONSE (R46, R47). -/
def execPtmResponse (data : Option PtmData) (sub : Sub) (s : State) : Host.Outcome State Fault Refusal :=
  carryOut (ptmResponse data sub.val) s

/-- PTM_TIMEOUT (R46). -/
def execPtmTimeout (s : State) : Host.Outcome State Fault Refusal := carryOut ptmTimeout s

/-- ROUTE_HOLD_END (R48, R337). -/
def execRouteHoldEnd (s : State) : Host.Outcome State Fault Refusal := carryOut routeHoldEnd s

/-! ### Strikes -/

/-- STK_GRP_CTL_WRITE (R53). -/
def execStkGrpCtlWrite (r : Requester) (g : Grp) (val : Word) (s : State) : Host.Outcome State Fault Refusal :=
  carryOut (writeBy r (Reg.STK_GRP_CTL g.val) val) s

/-- The offset of a pitch or anchor register of a group. -/
def pitchOffset (g : Nat) : PitchReg → Nat
  | .pitch => Reg.STK_GRP_PITCH g
  | .anchorLo => Reg.STK_GRP_ANCHOR_LO g
  | .anchorHi => Reg.STK_GRP_ANCHOR_HI g

/-- STK_PITCH_ANCHOR_WRITE (R53). -/
def execStkPitchAnchorWrite (r : Requester) (g : Grp) (reg : PitchReg) (val : Word) (s : State) :
    Host.Outcome State Fault Refusal :=
  carryOut (writeBy r (pitchOffset g.val reg) val) s

/-- STK_PORT_WRITE (R51). -/
def execStkPortWrite (r : Requester) (h : Hd) (val : Word) (s : State) : Host.Outcome State Fault Refusal :=
  carryOut (writeBy r (Reg.STK_PORT h.val) val) s

/-- INTERPOLATED_STRIKE (R55, R58): step 3 of R60 has decided it. -/
def execInterpolatedStrike (g : Grp) (s : State) : Host.Outcome State Fault Refusal :=
  carryOut (whenPos (issueDecided g.val false)) s

/-- IDLE_STRIKE (R57, R58): step 3 of R60 has decided it. -/
def execIdleStrike (g : Grp) (s : State) : Host.Outcome State Fault Refusal :=
  carryOut (whenPos (issueDecided g.val true)) s

/-- STRIKE_NOW (R60): STK_CMD bit 0. -/
def execStrikeNow (g : Grp) (s : State) : Host.Outcome State Fault Refusal :=
  carryOut (writeBy .host (Reg.STK_GRP_CMD g.val) 1) s

/-- STRIKE_SYMBOL_EMIT (R61, R62). -/
def execStrikeSymbolEmit (h : Hd) (s : State) : Host.Outcome State Fault Refusal :=
  carryOut (whenPos (emitStrike h.val)) s

end Sys2Proof.Machine
end

