-- ==== Sys2Proof/Machine/Upset.lean ====
section
/-! DEFINITION. Uncorrectable memory errors (18_faults_and_recovery.md, R349): how a word becomes one. What reads of it do
stands with the reads. -/

namespace Sys2Proof.Machine

/-- The gap record that takes the place of an item of egress staging (R269). -/
def spoiltItem (head tap : Byte) (now : BitVec 64) (x : Item) : Item :=
  { x with bytes := gapBytes head tap { cause := 2, count := 1, frame := x.frame, line := x.line, first := now, last := now } }

/-- Replace the k-th item placed in a list of descriptors, where none of it has been issued to the link. -/
def spoilPlaced (g : Item → Item) : Nat → List Desc → List Desc
  | _, [] => []
  | k, d :: ds =>
    if k < d.items.length then
      (if d.st != .completed && d.issued ≤ itemsLen (d.items.take k) then { d with items := d.items.modify k g } else d) :: ds
    else d :: spoilPlaced g (k - d.items.length) ds

/-- An uncorrectable error in egress data is counted and reported (R261, R349). -/
def stagingUe (b : Block) : Block := reportAer .uncorrectableInternal (sramUe 1 b)

/-- The k-th item of a stream's staging is uncorrectable: placed items come first. -/
def spoilStaged (s k : Nat) (b : Block) : Block :=
  let x := b.str s
  let g := spoiltItem (strHead s) (strTap s) (BitVec.ofNat 64 b.ns)
  let placed := x.descs.foldl (fun n d => n + d.items.length) 0
  let y : StreamSt := if k < placed then { x with descs := spoilPlaced g k x.descs }
    else { x with items := x.items.modify (k - placed) g }
  if y = x then b else putStr s y (stagingUe b)

/-- The k-th record of a ring's staging is uncorrectable. -/
def spoilRecord (r k : Nat) (b : Block) : Block :=
  let g : RecRing := b.host.rings.get (fun _ => {}) r
  if k < g.staged.length then
    let now := BitVec.ofNat 64 b.ns
    let g := { g with staged := g.staged.modify k (spoiltItem 0xFF 0xFF now) }
    stagingUe { b with host := { b.host with rings := b.host.rings.set (fun _ => {}) r g } }
  else b

/-- The k-th entry of the pending store is uncorrectable: it is resolved as undecided (R127). -/
def spoilPending (k : Nat) (b : Block) : Block :=
  match (b.vrd.pend.filter (·.pending))[k]? with
  | some p => sramUe 1 (issueVerdict p.ln p.zone p.rule p.rs 3 none (setPend (b.vrd.pend.erase p) b)).2.2
  | none => b

/-- A word becomes uncorrectable: staging and the pending store act at once, as each is read to be sent or resolved; any
other word is kept until a read finds it or it is written again. -/
def spoil (u : Upset) (b : Block) : Block :=
  match u with
  | .staged s k => spoilStaged s.val k b
  | .record r k => spoilRecord r.val k b
  | .pending k => spoilPending k.val b
  | u => if b.isBad u then b else { b with bad := u :: b.bad }

end Sys2Proof.Machine
end

