-- ==== Sys2Proof/Machine/Tick.lean ====
section
/-! DEFINITION. The 2 ns tick (R41). The commands between two TIME_TICKs are those of one register cycle: TIME_TICK first
ends that cycle with its tests (R35, R60 step 3, R207 steps 3 and 4), then advances time and begins the next. -/

namespace Sys2Proof.Machine

/-- The end of a register cycle: instructions issued in it that act later are kept as fetched (R239), and its tests are made:
keys are reached and reached entries execute, then strike points, the idle cadences and manual strikes are tested, and the
waits on positions (R35, R60, R207, R245). -/
def closeTick (b : Block) : Block :=
  let b := forEach (List.range 4) (fun t b => issueEnds (Fin.ofNat 4 t) b) b
  let b := if b.unitsOn then launchClose (keysClose b) else b
  let b := if b.posOn then handStrike (forEach (List.range 8) groupClose b) else b
  let b := forEach (List.range 4) (fun t b => waitClose (Fin.ofNat 4 t) b) b
  forEach (List.range 8) (fun n b => b.setCh n { b.ch n with evals := [], jump := none }) b

/-- The time of the tick as it would be without a STEP or SET, in ns (R43). -/
def Tim.plain (t : Tim) : Nat := (t.count + t.inc.toNat) / 2 ^ 32

/-- A forward jump of device time leaves out the TIME_OUT edges that it crosses, but for one due by the increment of the
tick itself. -/
def trainJump (plain : Nat) (b : Block) : Block :=
  match b.tim.train with
  | none => b
  | some x =>
    let b := if x.start + x.k * x.period ≤ plain then toutEdge b else b
    setTim { b.tim with train := b.tim.train.bind fun x => x.skipTo b.ns } b

/-- Time is advanced with any step or set (R41, R43); the law of the time before is kept for instants in it (R395). -/
def tickTime (b : Block) : Block :=
  let old : TimeBreak := { upTo := b.now, dev := (b.tim.count + b.tim.inc.toNat) * 32, inc := b.tim.inc }
  let inc := b.tim.inc
  let b := takeInc b
  let plain := b.tim.plain
  let jump := b.tim.set.isSome || !b.tim.steps.isEmpty
  let b := setTim b.tim.advance b
  let ahead := jump && decide (plain < b.ns)
  let law := if jump || b.tim.inc != inc then old :: b.tim.breaks else b.tim.breaks
  let b := setTim { b.tim with
    breaks := law.filter (fun x => decide (b.now ≤ x.upTo + 2 * tuUs)), jumpFrom := if ahead then some plain else none } b
  if ahead then trainJump plain b else b

/-- Event inputs whose capture is disabled are accepted (R211). -/
def tickInputs (b : Block) : Block :=
  forEach (List.range 8) (fun i b => match b.eiDue i false with
    | some h => eiAccept i h b
    | none => b) b

/-- SEQ_T_CYC (R252) counts the cycle that ends for the threads in STATE 1. -/
def tickCycles (b : Block) : Block :=
  forEach (List.range 4) (fun t b =>
    let n := b.rd64 (Reg.SEQ_T_CYC_LO t)
    if b.tState t = 1 && n != -1 then b.wr64 (Reg.SEQ_T_CYC_LO t) (n + 1) else b) b

/-- What the running units do at a tick. -/
def tickUnits (b : Block) : Block :=
  let b := tickInputs { b with act := { b.act with done := 0 } }
  let b := forEach b.ports (fun x b => echoSend x.1 b) (startDue b)
  bulkSend (takeoverTick (forEach (List.range 4) settleHalt b))

/-- TIME_TICK: the register cycle ends; the reference clock and the time unit advance; vote disagreements (R65), corrected
memory errors and words that have become uncorrectable (R349) are recorded; the running units act. -/
def tick (votes : List Vote) (sramCe hbmCe : Nat) (upsets : List Upset) (b : Block) : Block :=
  if b.stage_ = 0 then { b with now := b.now + 32 } else
  let open_ := b.gapOpen
  let b := closeTick (if b.unitsOn then tickCycles b else b)
  let b := tickTime { b with now := b.now + 32, cyc := [], seq := { b.seq with imemOld := [], dmemOld := [] } }
  let b := forEach upsets spoil ((b.inc Reg.FLT_CNT_A 31 16 sramCe).inc Reg.FLT_CNT_B 31 16 hbmCe)
  let b := if b.posOn then idleUpdateAll (forEach votes voteSeen b) else b
  if b.unitsOn then calUpdate open_ (tickUnits b) else b

end Sys2Proof.Machine
end

