-- ==== Sys2Proof/Machine/ExecRegister.lean ====
section
/-! DEFINITION. Register accesses and the tick as commands (R10 to R14, R41, R378). -/

namespace Sys2Proof.Machine

/-- REGISTER_WRITE (R10 to R14); a write that arrives poisoned is discarded (R261). -/
def execRegisterWrite (r : Requester) (off : BitVec 21) (val : Word) (en : WriteEn) (s : State) :
    Host.Outcome State Fault Refusal :=
  match en with
  | .bytes be => carryOut (byRequester r (writeReg r off.toNat val be)) s
  | .poisoned => carryOut (byRequester r poisonedAccess) s

/-- LO_WORD_READ (R375, R378): the data goes to the requester; HI and fraction words are snapshot. -/
def execLoWordRead (r : Requester) (off : BitVec 21) (s : State) : Host.Outcome State Fault Refusal :=
  carryOut (byRequester r (readBy s.prev r off.toNat)) s

/-- The block after a TIME_TICK. -/
def ticked (votes : List Vote) (sramCe hbmCe : Nat) (upsets : List Upset) (b : Block) : Block :=
  let t := settle b (tick votes sramCe hbmCe upsets b)
  { t with now := b.now + 32, start := { regs := t.regs, pipes := t.pipes } }

/-- TIME_TICK (R41): the one command that moves the clock. The registers as it leaves them are what reads of the new cycle
show (R375). -/
def execTimeTick (votes : List Vote) (sramCe hbmCe : Nat) (upsets : List Upset) (s : State) : Host.Outcome State Fault Refusal :=
  .next { s with blk := ticked votes sramCe hbmCe upsets s.blk, prev := ticked votes sramCe hbmCe upsets s.blk }

end Sys2Proof.Machine
end

