-- ==== Sys2Proof/Machine/Target.lean ====
section
/-! DEFINITION. The words of a service-port target transaction (16_service_port.md, R321 to R323). -/

namespace Sys2Proof.Machine

/-- Replace the transaction in progress. -/
def setTgt (g : Tgt) (b : Block) : Block := setSvc { b.svc with tgt := some g } b

/-- The next data word of a read is fetched (R322); where the ledger holds the access, it is not ready. -/
def tgtFetch (prev : Block) (g : Tgt) (inc : Bool) (off : Nat) (b : Block) : Block :=
  let hdr := some (true, inc, nextOff inc off)
  if inLedger off && b.ldg.prog.isSome then
    setTgt { g with hdr := hdr, next := none } (holdAccess (.read .svc off) b)
  else
    let w := b.readReg prev .svc off
    setTgt { g with hdr := hdr, next := some w } (sampleRead prev .svc off b)

/-- TARGET_HEADER (R321, R323): word 0 of a transaction. SDO shifts 0; a read's status word is taken at its end. -/
def tgtHeader (w : Word) (b : Block) : Block :=
  match b.svc.tgt with
  | none => b
  | some g =>
    if g.hdr.isSome || g.bad then b
    else
      let b := b.emit (.sdo 0)
      if fieldOf w 29 21 ≠ 0 ∨ fieldOf w 1 0 ≠ 0 then
        setTgt { g with bad := true } ((b.setBit Reg.SVC_STAT 5).inc Reg.SVC_CNT_B 31 16 1)
      else
        let status := BitVec.ofNat 32 (0x5A000000 + (b.wordAt .svc Reg.SVC_STAT).toNat % 256)
        setTgt { g with hdr := some (bitOf w 31, bitOf w 30, fieldOf w 20 0), next := some status } b

/-- TARGET_READ_WORD (R322): a word is shifted out and the one after it fetched; a word not ready is late. -/
def tgtRead (prev : Block) (b : Block) : Block :=
  match b.svc.tgt with
  | none => b
  | some g =>
    if g.bad then b.emit (.sdo 0)
    else match g.hdr with
      | some (true, inc, off) =>
        match g.next with
        | some w => tgtFetch prev g inc off (b.emit (.sdo w))
        | none =>
          setTgt { g with late := true }
            (((b.emit (.sdo 0xFFFFFFFF)).setBit Reg.SVC_STAT 6).inc Reg.SVC_CNT_B 15 0 1)
      | _ => b

/-- TARGET_WRITE_WORD (R322): a write takes effect, and the offset advances. -/
def tgtWrite (w : Word) (b : Block) : Block :=
  match b.svc.tgt with
  | none => b
  | some g =>
    if g.bad then b.emit (.sdo 0)
    else match g.hdr with
      | some (false, inc, off) =>
        let b := setTgt { g with hdr := some (false, inc, nextOff inc off) } (b.emit (.sdo 0))
        writeReg .svc off w 0xF b
      | _ => b

end Sys2Proof.Machine
end

