-- ==== Sys2Proof/Machine/ExecService.lean ====
section
/-! DEFINITION. Service port commands (16_service_port.md). -/

namespace Sys2Proof.Machine

/-- SSEL0_FALL (R321): before the clocks run, only the ball changes. -/
def execSsel0Fall (sck : Bool) (s : State) : Host.Outcome State Fault Refusal :=
  carryOut (fun b => if 2 ≤ b.stage_ then sselFall sck b else sselBall true b) s

/-- TARGET_HEADER (R321, R323). -/
def execTargetHeader (w : Word) (s : State) : Host.Outcome State Fault Refusal := carryOut (fromStage 2 (tgtHeader w)) s

/-- TARGET_WRITE_WORD (R322). -/
def execTargetWriteWord (w : Word) (s : State) : Host.Outcome State Fault Refusal := carryOut (fromStage 2 (tgtWrite w)) s

/-- TARGET_READ_WORD (R322). -/
def execTargetReadWord (s : State) : Host.Outcome State Fault Refusal := carryOut (fromStage 2 (tgtRead s.prev)) s

/-- SSEL0_RISE (R324, R325): before the clocks run, only the ball changes. -/
def execSsel0Rise (partialBits : Fin 32) (s : State) : Host.Outcome State Fault Refusal :=
  carryOut (fun b => if 2 ≤ b.stage_ then sselRise partialBits.val b else sselBall false b) s

/-- GO (R326): SVC_MCMD bit 0. -/
def execGo (s : State) : Host.Outcome State Fault Refusal := carryOut (writeBy .host Reg.SVC_MCMD 1) s

/-- BUS_IDLE_EXPIRY (R327). -/
def execBusIdleExpiry (s : State) : Host.Outcome State Fault Refusal := carryOut (fromStage 2 busIdleExpiry) s

/-- TRANSFER_DONE (R326, R329). -/
def execTransferDone (words : List Word) (s : State) : Host.Outcome State Fault Refusal :=
  carryOut (fromStage 2 (transferDone words)) s

/-- COLLISION (R327): SSEL0 falls while the T24 drives the bus. -/
def execCollision (s : State) : Host.Outcome State Fault Refusal := carryOut (fromStage 2 collide) s

/-- BACKOFF_EXPIRY (R327). -/
def execBackoffExpiry (s : State) : Host.Outcome State Fault Refusal := carryOut (fromStage 2 backoffExpiry) s

/-- AMBIENT_POLL (R329). -/
def execAmbientPoll (s : State) : Host.Outcome State Fault Refusal := carryOut (fromStage 2 ambientPoll) s

end Sys2Proof.Machine
end

