-- ==== Sys2Proof/Machine/ExecSystem.lean ====
section
/-! DEFINITION. Supply, reset and start-up commands (18_faults_and_recovery.md, 19_power_up.md). -/

namespace Sys2Proof.Machine

/-- RELEASE (R354): FLT_JNL_CMD bit 0. -/
def execRelease (s : State) : Host.Outcome State Fault Refusal := carryOut (writeBy .host Reg.FLT_JNL_CMD 1) s

/-- PERST (R353, R365). -/
def execPerst (asserted : Bool) (s : State) : Host.Outcome State Fault Refusal := carryOut (perstChange asserted) s

/-- PCIE_LINK_DOWN (R353, R358). -/
def execPcieLinkDown (s : State) : Host.Outcome State Fault Refusal := carryOut pcieLinkDown s

/-- SUPPLY_WARNING (R351). -/
def execSupplyWarning (rail : Fin 8) (s : State) : Host.Outcome State Fault Refusal := carryOut (supplyWarning rail.val) s

/-- SUPPLY_RECOVERY (R317, R351). -/
def execSupplyRecovery (rail : Fin 8) (s : State) : Host.Outcome State Fault Refusal := carryOut (supplyRecovery rail.val) s

/-- SUPPLY_RESET (R364). -/
def execSupplyReset (rail : Fin 8) (s : State) : Host.Outcome State Fault Refusal := carryOut (supplyReset rail.val) s

/-- POR_FALL (R364). -/
def execPorFall (s : State) : Host.Outcome State Fault Refusal := carryOut porFall s

/-- WARM (R369): SUP_CMD with its key and bit 1. -/
def execWarm (r : Requester) (key : BitVec 16) (s : State) : Host.Outcome State Fault Refusal :=
  carryOut (writeBy r Reg.SUP_CMD (key ++ 2#16)) s

/-- COLD (R296, R369): SUP_CMD with its key and bit 0. -/
def execCold (r : Requester) (key : BitVec 16) (s : State) : Host.Outcome State Fault Refusal :=
  carryOut (writeBy r Reg.SUP_CMD (key ++ 1#16)) s

/-- POWER_OK (R364). -/
def execPowerOk (s : State) : Host.Outcome State Fault Refusal := carryOut powerOk s

/-- FUSE_TRIM (R366): the clocks run. -/
def execFuseTrim (s : State) : Host.Outcome State Fault Refusal := carryOut (stageTo 2 id) s

/-- LEDGER_SELECT (R366, R368). -/
def execLedgerSelect (s : State) : Host.Outcome State Fault Refusal := carryOut ledgerSelect s

/-- SRAM_ZERO (R366). -/
def execSramZero (s : State) : Host.Outcome State Fault Refusal := carryOut sramZero s

/-- STARTUP_20MS (R366, R368). -/
def execStartup20ms (s : State) : Host.Outcome State Fault Refusal := carryOut startup20 s

/-- HBM_ZEROED (R366, R368). -/
def execHbmZeroed (s : State) : Host.Outcome State Fault Refusal := carryOut hbmZeroed s

/-- CONFIG_READY (R365, R366). -/
def execConfigReady (s : State) : Host.Outcome State Fault Refusal := carryOut configReady s

end Sys2Proof.Machine
end

