-- ==== Sys2Proof/Machine/Troek.lean ====
section
/-! DEFINITION. What the Troek instructions do (12_troek_sequencer.md, R243 to R254). -/

namespace Sys2Proof.Machine

/-- The thread carries out instruction `i` by `f` where it issues it now (R237); otherwise nothing happens. -/
def issue (t : Thr) (i : Instr) (f : Block → Block) (b : Block) : Block := if b.issues t i then f b else b

/-- An instruction that acts in its last cycle (R244, R248). -/
def issueLate (t : Thr) (i : Instr) (f : Block → Block) (b : Block) : Block := if b.issuesLate t i then f b else b

/-- Write a result and go on in the next cycle. -/
def compute (t : Thr) (rd : GReg) (v : BitVec 64) (b : Block) : Block := advance t 1 (setG t rd v b)

/-- Addr of R243: ra plus the sign-extended immediate, in 64 bits. -/
def Block.addr (b : Block) (t : Thr) (ra : GReg) (imm : BitVec 16) : BitVec 64 := b.greg t ra + imm.signExtend 64

/-- 1 or 0 as a register value. -/
def flag (c : Bool) : BitVec 64 := if c then 1 else 0

/-- The 64-bit value with quarter `q` replaced (INS). -/
def insertQuarter (v : BitVec 64) (q : Fin 4) (imm : BitVec 16) : BitVec 64 :=
  (v &&& ~~~ (0xFFFF#64 <<< (16 * q.val))) ||| (imm.setWidth 64 <<< (16 * q.val))

/-! ### Control flow -/

/-- A taken branch goes to PC + 1 + off16 (R242). -/
def branch (t : Thr) (taken : Bool) (off : BitVec 16) (b : Block) : Block :=
  if taken then nextAt t (((b.tPc t : Int) + 1 + off.toInt) % 2 ^ 14).toNat 1 b else advance t 1 b

/-- HALT: PC on the next instruction. -/
def haltNext (t : Thr) (b : Block) : Block := haltThread t (setPc t (b.tPc t + 1) b)

/-! ### Data memory (R240, R254) -/

/-- Addr lies outside data memory or is not aligned to `n` bytes: cause 3. -/
def dmemBad (a : BitVec 64) (n : Nat) : Bool := decide (0x10000 ≤ a.toNat) || a.toNat % n != 0

/-- A load of `n` bytes; an uncorrectable one faults as an address that is bad does (R349). -/
def load (t : Thr) (rd ra : GReg) (imm : BitVec 16) (n : Nat) (b : Block) : Block :=
  let a := b.addr t ra imm
  if dmemBad a n then faultThread t 3 (a.setWidth 32) b
  else if b.dmemSpoilt a.toNat n then faultThread t 3 (a.setWidth 32) (sramUe 1 b)
  else advance t 2 (setG t rd (BitVec.ofNat 64 (b.dmemNum a.toNat n)) b)

/-- Mirror `n` words of data memory from an address, stored by a thread (R338). -/
def mirrorDmem (t : Thr) (a n : Nat) (b : Block) : Block :=
  forEach (List.range n) (fun i b =>
    mirror (.reg (.thread t) b.tim.ns (BitVec.ofNat 21 (0x50000 + a + 4 * i)) (BitVec.ofNat 32 (ofLe (b.dmemBytes (a + 4 * i) 4)))) b) b

/-- A store of `n` bytes, mirrored in a pair. -/
def store (t : Thr) (rs ra : GReg) (imm : BitVec 16) (n : Nat) (b : Block) : Block :=
  let a := b.addr t ra imm
  if dmemBad a n then faultThread t 3 (a.setWidth 32) b
  else mirrorDmem t a.toNat (n / 4) (advance t 1 (dmemPut (.thread t) a.toNat (leBytes n (b.greg t rs).toNat) b))

/-! ### Control space (R244, R254) -/

/-- Addr lies outside control space or is not a multiple of 4: cause 2. -/
def ctrlBad (a : BitVec 64) : Bool := decide (0x200000 ≤ a.toNat) || a.toNat % 4 != 0

/-- The thread stalls on a ledger hold of its instruction (R244, R305). -/
def holdThread (t : Thr) (i : Instr) (b : Block) : Block :=
  stallThread t (.hold i (b.now + b.ltmo)) (holdAccess (.thread t) b)

/-- A read of the window is held while a page is programmed (R305). -/
def Block.readHeld (b : Block) (off : Nat) : Bool := inLedger off && b.ldg.prog.isSome

/-- LDC. -/
def loadCtrl (prev : Block) (t : Thr) (rd ra : GReg) (imm : BitVec 16) (b : Block) : Block :=
  let a := b.addr t ra imm
  if ctrlBad a then faultThread t 2 (a.setWidth 32) b
  else if b.readHeld a.toNat then holdThread t (.ldc t rd ra imm) b
  else advance t 8 (setG t rd ((b.readReg prev (.thread t) a.toNat).setWidth 64) (sampleRead prev (.thread t) a.toNat b))

/-- LDCD: the lower offset first, so that its snapshot serves the higher one (R378). -/
def loadPair (prev : Block) (t : Thr) (rd ra : GReg) (imm : BitVec 16) (b : Block) : Block :=
  let a := b.addr t ra imm
  if ctrlBad a || ctrlBad (a + 4) then faultThread t 2 (a.setWidth 32) b
  else if b.readHeld a.toNat || b.readHeld (a.toNat + 4) then holdThread t (.ldcd t rd ra imm) b
  else
    let lo := b.readReg prev (.thread t) a.toNat
    let b := sampleRead prev (.thread t) a.toNat b
    let hi := b.readReg prev (.thread t) (a.toNat + 4)
    advance t 10 (setG t rd (u64 lo hi) (sampleRead prev (.thread t) (a.toNat + 4) b))

/-- STC, in its last cycle: a write of the window is held as the host's is (R304, R305). -/
def storeCtrl (t : Thr) (rs ra : GReg) (imm : BitVec 16) (b : Block) : Block :=
  let a := b.addr t ra imm
  if ctrlBad a then faultThread t 2 (a.setWidth 32) b
  else if inLedger a.toNat && b.writeHeld a.toNat then holdThread t (.stc t rs ra imm) b
  else
    let v : Word := (b.greg t rs).setWidth 32
    writeReg (.thread t) a.toNat v 0xF (advance t 1 b)

/-! ### Actions and bindings (R248, R249) -/

/-- ARM: the lowest free entry below SPLIT; −1 with none, −2 where the arm is refused; a position key is ra[47:0]. -/
def armAct (t : Thr) (rd ra rb : GReg) (b : Block) : Block :=
  let w := b.greg t rb
  let key : BitVec 64 := if w.getLsbD 4 then ((b.greg t ra).setWidth 48).setWidth 64 else b.greg t ra
  let b := advance t 1 b
  match b.freeEntry 0 b.split with
  | none => setG t rd (-1) b
  | some e =>
    match armByWriter e (t.val + 1) key (w.setWidth 32) ((w >>> 32).setWidth 24) b with
    | (true, b) => setG t rd (BitVec.ofNat 64 e) b
    | (false, b) => setG t rd (-2) b

/-- CANA. -/
def cancelEntry (t : Thr) (rd ra : GReg) (b : Block) : Block :=
  let e := (b.greg t ra).toNat % 4096
  let b := advance t 1 b
  if b.split ≤ e then setG t rd 2 b
  else if (b.actE e).st = 1 then setG t rd 0 (cancelByWriter e b)
  else setG t rd 1 b

/-- BIND (R249): the fields of HD_BIND are written, unless the head is bound (R86), and a bind requested, as a BIND pulse
does; the request is evaluated, and ordered by R25, in the cycle in which the instruction issues (DESIGN CHOICE, log entry
113). -/
def bindInstr (t : Thr) (rd ra rb : GReg) (b : Block) : Block :=
  let h := (b.greg t ra).toNat
  if 23 < h then advance t 8 (setG t rd 4 b)
  else
    let w : Word := (b.greg t rb).setWidth 32 &&& 0x003FFFDF
    let b := mirrorReg (.thread t) (Reg.HD_BIND h) (w ||| 0x00400000) b
    let b := if b.bound h then b else b.genWrite (Reg.HD_BIND h) w
    let (code, b) := bindHead (.thread t) h (fieldOf w 4 0) (fieldOf w 11 6) (fieldOf w 21 12) b
    advance t 8 (setG t rd (BitVec.ofNat 64 code) b)

/-- UNBIND (R249); the request is evaluated where BIND's is (DESIGN CHOICE, log entry 113). -/
def unbindInstr (t : Thr) (rd ra : GReg) (b : Block) : Block :=
  let h := (b.greg t ra).toNat
  if 23 < h || !b.bound h then advance t 8 (setG t rd 1 b)
  else if b.bit (Reg.HD_BIND h) 30 then advance t 8 (setG t rd 2 b)
  else advance t 8 (setG t rd 0 (unbindHead h (mirrorReg (.thread t) (Reg.HD_BIND h) 0x00800000 b)))

/-- TEMP (R250): starts an evaluation or joins the one in progress, and completes with it. -/
def tempInstr (t : Thr) (rd : GReg) (b : Block) : Block := stallThread t (.temp rd) (evalStart b)

/-- An opcode or FUNC that is none, or an uncorrectable word: cause 1 (R254, R349). -/
def illegal (t : Thr) (b : Block) : Block :=
  if b.canIssue t && (b.instrAt t).isNone then faultThread t 1 (b.fetch t) (sramUe (b2n (b.fetchBad t)) b) else b

/-- The stall of a thread has lasted longer than LTMO (R254): FADDR is Addr of the held access, 0 for LWR. -/
def holdTimeout (t : Thr) (b : Block) : Block :=
  let a : BitVec 64 := match (b.thr t).stall with
    | some (.hold (.ldc _ _ ra imm) _) => b.addr t ra imm
    | some (.hold (.ldcd _ _ ra imm) _) => b.addr t ra imm
    | some (.hold (.stc _ _ ra imm) _) => b.addr t ra imm
    | _ => 0
  stallExpired t (a.setWidth 32) b

end Sys2Proof.Machine
end

