-- ==== Sys2Proof/Machine/ExecThread.lean ====
section
/-! DEFINITION. Thread commands and the standing program (12_troek_sequencer.md, R238, R247, R257). -/

namespace Sys2Proof.Machine

/-- THREAD_START (R238): SEQ_T_CTL bit 0. -/
def execThreadStart (t : Thr) (s : State) : Host.Outcome State Fault Refusal :=
  carryOut (writeBy .host (Reg.SEQ_T_CTL t.val) 1) s

/-- RESUME (R238): SEQ_T_CTL bit 3. -/
def execResume (t : Thr) (s : State) : Host.Outcome State Fault Refusal := carryOut (writeBy .host (Reg.SEQ_T_CTL t.val) 8) s

/-- THREAD_STEP (R238): SEQ_T_CTL bit 2. -/
def execThreadStep (t : Thr) (s : State) : Host.Outcome State Fault Refusal :=
  carryOut (writeBy .host (Reg.SEQ_T_CTL t.val) 4) s

/-- STOP (R238): SEQ_T_CTL bit 1. -/
def execStop (t : Thr) (s : State) : Host.Outcome State Fault Refusal := carryOut (writeBy .host (Reg.SEQ_T_CTL t.val) 2) s

/-- TRESET (R238): SEQ_T_CTL bit 4. -/
def execTreset (t : Thr) (s : State) : Host.Outcome State Fault Refusal :=
  carryOut (writeBy .host (Reg.SEQ_T_CTL t.val) 16) s

/-- WAKESET (R247). -/
def execWakeset (r : Requester) (t : Thr) (val : Byte) (s : State) : Host.Outcome State Fault Refusal :=
  carryOut (writeBy r (Reg.SEQ_T_WAKESET t.val) (val.setWidth 32)) s

/-- WAIT_RESUME (R245). -/
def execWaitResume (t : Thr) (s : State) : Host.Outcome State Fault Refusal := quietly (resumeWait t) s

/-- SAVE (R257): SEQ_CMD bit 0. -/
def execSave (s : State) : Host.Outcome State Fault Refusal := carryOut (writeBy .host Reg.SEQ_CMD 1) s

/-- ERASE (R257): SEQ_CMD bit 1. -/
def execErase (s : State) : Host.Outcome State Fault Refusal := carryOut (writeBy .host Reg.SEQ_CMD 2) s

/-- SAVE_DONE (R257). -/
def execSaveDone (s : State) : Host.Outcome State Fault Refusal := carryOut saveDone s

/-- LEDGER_HOLD_TIMEOUT (R254): cause 4. -/
def execLedgerHoldTimeout (t : Thr) (s : State) : Host.Outcome State Fault Refusal := carryOut (holdTimeout t) s

end Sys2Proof.Machine
end

