-- ==== Sys2Proof/Machine/ExecTroek.lean ====
section
/-! DEFINITION. The Troek instructions as commands (12_troek_sequencer.md, R243): each is carried out where its thread
issues it now, and otherwise does nothing. -/

namespace Sys2Proof.Machine

/-! ### Arithmetic and logic (R243) -/

/-- NOP. -/
def execNop (t : Thr) (s : State) : Host.Outcome State Fault Refusal := quietly (issue t (.nop t) (advance t 1)) s

/-- HALT: the thread halts with PC on the next instruction. -/
def execHalt (t : Thr) (s : State) : Host.Outcome State Fault Refusal := quietly (issue t (.halt t) (haltNext t)) s

/-- ADD: rd = ra + rb. -/
def execAdd (t : Thr) (rd ra rb : GReg) (s : State) : Host.Outcome State Fault Refusal :=
  quietly (issue t (.add t rd ra rb) fun b => compute t rd (b.greg t ra + b.greg t rb) b) s

/-- SUB: rd = ra − rb. -/
def execSub (t : Thr) (rd ra rb : GReg) (s : State) : Host.Outcome State Fault Refusal :=
  quietly (issue t (.sub t rd ra rb) fun b => compute t rd (b.greg t ra - b.greg t rb) b) s

/-- AND: bitwise. -/
def execAnd (t : Thr) (rd ra rb : GReg) (s : State) : Host.Outcome State Fault Refusal :=
  quietly (issue t (.and t rd ra rb) fun b => compute t rd (b.greg t ra &&& b.greg t rb) b) s

/-- OR: bitwise. -/
def execOr (t : Thr) (rd ra rb : GReg) (s : State) : Host.Outcome State Fault Refusal :=
  quietly (issue t (.or t rd ra rb) fun b => compute t rd (b.greg t ra ||| b.greg t rb) b) s

/-- XOR: bitwise. -/
def execXor (t : Thr) (rd ra rb : GReg) (s : State) : Host.Outcome State Fault Refusal :=
  quietly (issue t (.xor t rd ra rb) fun b => compute t rd (b.greg t ra ^^^ b.greg t rb) b) s

/-- SHL: shifted left by rb[5:0]. -/
def execShl (t : Thr) (rd ra rb : GReg) (s : State) : Host.Outcome State Fault Refusal :=
  quietly (issue t (.shl t rd ra rb) fun b => compute t rd (b.greg t ra <<< ((b.greg t rb).toNat % 64)) b) s

/-- SHR: shifted right by rb[5:0], filled with 0. -/
def execShr (t : Thr) (rd ra rb : GReg) (s : State) : Host.Outcome State Fault Refusal :=
  quietly (issue t (.shr t rd ra rb) fun b => compute t rd (b.greg t ra >>> ((b.greg t rb).toNat % 64)) b) s

/-- SAR: shifted right by rb[5:0], filled with the sign. -/
def execSar (t : Thr) (rd ra rb : GReg) (s : State) : Host.Outcome State Fault Refusal :=
  quietly (issue t (.sar t rd ra rb) fun b => compute t rd ((b.greg t ra).sshiftRight ((b.greg t rb).toNat % 64)) b) s

/-- MUL: the low 64 bits of the product. -/
def execMul (t : Thr) (rd ra rb : GReg) (s : State) : Host.Outcome State Fault Refusal :=
  quietly (issue t (.mul t rd ra rb) fun b => compute t rd (b.greg t ra * b.greg t rb) b) s

/-- SLT: 1 if ra < rb, signed. -/
def execSlt (t : Thr) (rd ra rb : GReg) (s : State) : Host.Outcome State Fault Refusal :=
  quietly (issue t (.slt t rd ra rb) fun b => compute t rd (flag ((b.greg t ra).slt (b.greg t rb))) b) s

/-- SLTU: 1 if ra < rb, unsigned. -/
def execSltu (t : Thr) (rd ra rb : GReg) (s : State) : Host.Outcome State Fault Refusal :=
  quietly (issue t (.sltu t rd ra rb) fun b => compute t rd (flag ((b.greg t ra).ult (b.greg t rb))) b) s

/-- ADDI: rd = ra + sext(imm). -/
def execAddi (t : Thr) (rd ra : GReg) (imm : BitVec 16) (s : State) : Host.Outcome State Fault Refusal :=
  quietly (issue t (.addi t rd ra imm) fun b => compute t rd (b.greg t ra + imm.signExtend 64) b) s

/-- ANDI: with the zero-extended immediate. -/
def execAndi (t : Thr) (rd ra : GReg) (imm : BitVec 16) (s : State) : Host.Outcome State Fault Refusal :=
  quietly (issue t (.andi t rd ra imm) fun b => compute t rd (b.greg t ra &&& imm.setWidth 64) b) s

/-- ORI: with the zero-extended immediate. -/
def execOri (t : Thr) (rd ra : GReg) (imm : BitVec 16) (s : State) : Host.Outcome State Fault Refusal :=
  quietly (issue t (.ori t rd ra imm) fun b => compute t rd (b.greg t ra ||| imm.setWidth 64) b) s

/-- XORI: with the zero-extended immediate. -/
def execXori (t : Thr) (rd ra : GReg) (imm : BitVec 16) (s : State) : Host.Outcome State Fault Refusal :=
  quietly (issue t (.xori t rd ra imm) fun b => compute t rd (b.greg t ra ^^^ imm.setWidth 64) b) s

/-- SLTI: 1 if ra < sext(imm), signed. -/
def execSlti (t : Thr) (rd ra : GReg) (imm : BitVec 16) (s : State) : Host.Outcome State Fault Refusal :=
  quietly (issue t (.slti t rd ra imm) fun b => compute t rd (flag ((b.greg t ra).slt (imm.signExtend 64))) b) s

/-- SHLI: shifted left by imm[5:0]. -/
def execShli (t : Thr) (rd ra : GReg) (amount : BitVec 6) (s : State) : Host.Outcome State Fault Refusal :=
  quietly (issue t (.shli t rd ra amount) fun b => compute t rd (b.greg t ra <<< amount.toNat) b) s

/-- SHRI: shifted right by imm[5:0], filled with 0. -/
def execShri (t : Thr) (rd ra : GReg) (amount : BitVec 6) (s : State) : Host.Outcome State Fault Refusal :=
  quietly (issue t (.shri t rd ra amount) fun b => compute t rd (b.greg t ra >>> amount.toNat) b) s

/-- SARI: shifted right by imm[5:0], filled with the sign. -/
def execSari (t : Thr) (rd ra : GReg) (amount : BitVec 6) (s : State) : Host.Outcome State Fault Refusal :=
  quietly (issue t (.sari t rd ra amount) fun b => compute t rd ((b.greg t ra).sshiftRight amount.toNat) b) s

/-- INS: quarter q of rd is replaced. -/
def execIns (t : Thr) (rd : GReg) (q : Fin 4) (imm : BitVec 16) (s : State) : Host.Outcome State Fault Refusal :=
  quietly (issue t (.ins t rd q imm) fun b => compute t rd (insertQuarter (b.greg t rd) q imm) b) s

/-! ### Data memory and control space (R243, R244) -/

/-- LD: a 64-bit data word. -/
def execLd (t : Thr) (rd ra : GReg) (imm : BitVec 16) (s : State) : Host.Outcome State Fault Refusal :=
  carryOut (issue t (.ld t rd ra imm) (load t rd ra imm 8)) s

/-- LDW: a 32-bit data word, zero-extended. -/
def execLdw (t : Thr) (rd ra : GReg) (imm : BitVec 16) (s : State) : Host.Outcome State Fault Refusal :=
  carryOut (issue t (.ldw t rd ra imm) (load t rd ra imm 4)) s

/-- ST: a 64-bit data word. -/
def execSt (t : Thr) (rs ra : GReg) (imm : BitVec 16) (s : State) : Host.Outcome State Fault Refusal :=
  carryOut (issue t (.st t rs ra imm) (store t rs ra imm 8)) s

/-- STW: a 32-bit data word from rs[31:0]. -/
def execStw (t : Thr) (rs ra : GReg) (imm : BitVec 16) (s : State) : Host.Outcome State Fault Refusal :=
  carryOut (issue t (.stw t rs ra imm) (store t rs ra imm 4)) s

/-- LDC: a register, zero-extended. -/
def execLdc (t : Thr) (rd ra : GReg) (imm : BitVec 16) (s : State) : Host.Outcome State Fault Refusal :=
  carryOut (issue t (.ldc t rd ra imm) (loadCtrl s.prev t rd ra imm)) s

/-- LDCD: a register pair, LO first. -/
def execLdcd (t : Thr) (rd ra : GReg) (imm : BitVec 16) (s : State) : Host.Outcome State Fault Refusal :=
  carryOut (issue t (.ldcd t rd ra imm) (loadPair s.prev t rd ra imm)) s

/-- STC: a register, in the last of 4 cycles. -/
def execStc (t : Thr) (rs ra : GReg) (imm : BitVec 16) (s : State) : Host.Outcome State Fault Refusal :=
  carryOut (issueLate t (.stc t rs ra imm) (storeCtrl t rs ra imm)) s

/-! ### Branches and jumps (R243) -/

/-- BEQ: if ra = rb. -/
def execBeq (t : Thr) (ra rb : GReg) (off : BitVec 16) (s : State) : Host.Outcome State Fault Refusal :=
  quietly (issue t (.beq t ra rb off) fun b => branch t (b.greg t ra == b.greg t rb) off b) s

/-- BNE: if ra ≠ rb. -/
def execBne (t : Thr) (ra rb : GReg) (off : BitVec 16) (s : State) : Host.Outcome State Fault Refusal :=
  quietly (issue t (.bne t ra rb off) fun b => branch t (b.greg t ra != b.greg t rb) off b) s

/-- BLT: if ra < rb, signed. -/
def execBlt (t : Thr) (ra rb : GReg) (off : BitVec 16) (s : State) : Host.Outcome State Fault Refusal :=
  quietly (issue t (.blt t ra rb off) fun b => branch t ((b.greg t ra).slt (b.greg t rb)) off b) s

/-- BGE: if ra ≥ rb, signed. -/
def execBge (t : Thr) (ra rb : GReg) (off : BitVec 16) (s : State) : Host.Outcome State Fault Refusal :=
  quietly (issue t (.bge t ra rb off) fun b => branch t (!(b.greg t ra).slt (b.greg t rb)) off b) s

/-- BLTU: if ra < rb, unsigned. -/
def execBltu (t : Thr) (ra rb : GReg) (off : BitVec 16) (s : State) : Host.Outcome State Fault Refusal :=
  quietly (issue t (.bltu t ra rb off) fun b => branch t ((b.greg t ra).ult (b.greg t rb)) off b) s

/-- BGEU: if ra ≥ rb, unsigned. -/
def execBgeu (t : Thr) (ra rb : GReg) (off : BitVec 16) (s : State) : Host.Outcome State Fault Refusal :=
  quietly (issue t (.bgeu t ra rb off) fun b => branch t (!(b.greg t ra).ult (b.greg t rb)) off b) s

/-- J. -/
def execJ (t : Thr) (target : BitVec 14) (s : State) : Host.Outcome State Fault Refusal :=
  quietly (issue t (.j t target) (nextAt t target.toNat 1)) s

/-- JAL: rd = PC + 1. -/
def execJal (t : Thr) (rd : GReg) (target : BitVec 14) (s : State) : Host.Outcome State Fault Refusal :=
  quietly (issue t (.jal t rd target) fun b => nextAt t target.toNat 1 (setG t rd (BitVec.ofNat 64 (b.tPc t + 1)) b)) s

/-- JR: PC = ra[13:0]. -/
def execJr (t : Thr) (ra : GReg) (s : State) : Host.Outcome State Fault Refusal :=
  quietly (issue t (.jr t ra) fun b => nextAt t (b.greg t ra).toNat 1 b) s

/-! ### Time, position and waits (R243, R245 to R247) -/

/-- TIME: device time in ns at this tick. -/
def execTime (t : Thr) (rd : GReg) (s : State) : Host.Outcome State Fault Refusal :=
  quietly (issue t (.time t rd) fun b => compute t rd b.tim.ns b) s

/-- POS: position or high-water mark, sign-extended. -/
def execPos (t : Thr) (rd : GReg) (src : Chan) (hwm : Bool) (s : State) : Host.Outcome State Fault Refusal :=
  quietly (issue t (.pos t rd src hwm) fun b =>
    compute t rd ((if hwm then b.hwmNow src.val else b.posNow src.val).signExtend 64) b) s

/-- WAITT (R245). -/
def execWaitt (t : Thr) (rd ra : GReg) (s : State) : Host.Outcome State Fault Refusal :=
  quietly (issue t (.waitt t rd ra) (issueWait t (.waitt t rd ra))) s

/-- WAITP (R246). -/
def execWaitp (t : Thr) (rd ra rb : GReg) (src : Chan) (s : State) : Host.Outcome State Fault Refusal :=
  quietly (issue t (.waitp t rd ra rb src) (issueWait t (.waitp t rd ra rb src))) s

/-- WAITE (R247). -/
def execWaite (t : Thr) (rd rb : GReg) (sel : BitVec 3) (mask : Byte) (s : State) : Host.Outcome State Fault Refusal :=
  quietly (issue t (.waite t rd rb sel mask) (issueWait t (.waite t rd rb sel mask))) s

/-- SIG: wake bits of thread ra[1:0] (R247). -/
def execSig (t : Thr) (ra : GReg) (bits : Byte) (s : State) : Host.Outcome State Fault Refusal :=
  quietly (issue t (.sig t ra bits) fun b => advance t 1 (wake ((b.greg t ra).toNat % 4) bits.toNat b)) s

/-! ### Actions, bindings, model, budget, ledger (R248 to R254) -/

/-- ARM (R248), in the last of 4 cycles. -/
def execArm (t : Thr) (rd ra rb : GReg) (s : State) : Host.Outcome State Fault Refusal :=
  carryOut (issueLate t (.arm t rd ra rb) (armAct t rd ra rb)) s

/-- CANA (R248), in the last of 4 cycles. -/
def execCana (t : Thr) (rd ra : GReg) (s : State) : Host.Outcome State Fault Refusal :=
  carryOut (issueLate t (.cana t rd ra) (cancelEntry t rd ra)) s

/-- BIND (R249), evaluated at issue (DESIGN CHOICE, log entry 113). -/
def execBind (t : Thr) (rd ra rb : GReg) (s : State) : Host.Outcome State Fault Refusal :=
  carryOut (issue t (.bind t rd ra rb) (bindInstr t rd ra rb)) s

/-- UNBIND (R249), evaluated at issue (DESIGN CHOICE, log entry 113). -/
def execUnbind (t : Thr) (rd ra : GReg) (s : State) : Host.Outcome State Fault Refusal :=
  carryOut (issue t (.unbind t rd ra) (unbindInstr t rd ra)) s

/-- TEMP (R250). -/
def execTemp (t : Thr) (rd : GReg) (s : State) : Host.Outcome State Fault Refusal :=
  carryOut (issue t (.temp t rd) (tempInstr t rd)) s

/-- BUDG (R250). -/
def execBudg (t : Thr) (rd : GReg) (s : State) : Host.Outcome State Fault Refusal :=
  quietly (issue t (.budg t rd) fun b => advance t 8 (setG t rd b.budget b)) s

/-- LWR (R253). -/
def execLwr (t : Thr) (rd ra rb : GReg) (s : State) : Host.Outcome State Fault Refusal :=
  carryOut (issue t (.lwr t rd ra rb) (lwr t rd ra rb)) s

/-- LOG (R253). -/
def execLog (t : Thr) (rd ra : GReg) (imm : BitVec 16) (s : State) : Host.Outcome State Fault Refusal :=
  carryOut (issue t (.log t rd ra imm) (logEntry t rd ra imm)) s

/-- ILLEGAL_OPCODE (R254): cause 1. -/
def execIllegalOpcode (t : Thr) (s : State) : Host.Outcome State Fault Refusal := carryOut (illegal t) s

end Sys2Proof.Machine
end

