-- ==== Sys2Proof/Machine/Dispatch.lean ====
section
/-! DEFINITION. One arm per command: the meaning it calls. -/

namespace Sys2Proof.Machine

/-- The effect of a command on everything but the queue. -/
def exec (i : Instr) (s : State) : Host.Outcome State Fault Refusal :=
  match i with
  | .registerWrite r off val en => Sys2Proof.Machine.execRegisterWrite r off val en s
  | .timeTick votes sramCe hbmCe upsets => Sys2Proof.Machine.execTimeTick votes sramCe hbmCe upsets s
  | .encoderLevelChange ch pin level sub => Sys2Proof.Machine.execEncoderLevelChange ch pin level sub s
  | .filterAccept ch pin => Sys2Proof.Machine.execFilterAccept ch pin s
  | .standstill ch => Sys2Proof.Machine.execStandstill ch s
  | .posCtlWrite r ch val => Sys2Proof.Machine.execPosCtlWrite r ch val s
  | .posStallWrite r ch val => Sys2Proof.Machine.execPosStallWrite r ch val s
  | .hwmToPos ch => Sys2Proof.Machine.execHwmToPos ch s
  | .slipRearm ch => Sys2Proof.Machine.execSlipRearm ch s
  | .load ch => Sys2Proof.Machine.execLoad ch s
  | .timIncWrite r val => Sys2Proof.Machine.execTimIncWrite r val s
  | .step => Sys2Proof.Machine.execStep s
  | .set => Sys2Proof.Machine.execSet s
  | .ppsEdge rising sub => Sys2Proof.Machine.execPpsEdge rising sub s
  | .ppsMiss => Sys2Proof.Machine.execPpsMiss s
  | .toutArm => Sys2Proof.Machine.execToutArm s
  | .toutStop => Sys2Proof.Machine.execToutStop s
  | .toutEdge => Sys2Proof.Machine.execToutEdge s
  | .toutPulseEnd => Sys2Proof.Machine.execToutPulseEnd s
  | .ptmReq => Sys2Proof.Machine.execPtmReq s
  | .ptmAutoInterval => Sys2Proof.Machine.execPtmAutoInterval s
  | .ptmResponse data sub => Sys2Proof.Machine.execPtmResponse data sub s
  | .ptmTimeout => Sys2Proof.Machine.execPtmTimeout s
  | .routeHoldEnd => Sys2Proof.Machine.execRouteHoldEnd s
  | .stkGrpCtlWrite r g val => Sys2Proof.Machine.execStkGrpCtlWrite r g val s
  | .stkPitchAnchorWrite r g reg val => Sys2Proof.Machine.execStkPitchAnchorWrite r g reg val s
  | .stkPortWrite r h val => Sys2Proof.Machine.execStkPortWrite r h val s
  | .interpolatedStrike g => Sys2Proof.Machine.execInterpolatedStrike g s
  | .idleStrike g => Sys2Proof.Machine.execIdleStrike g s
  | .strikeNow g => Sys2Proof.Machine.execStrikeNow g s
  | .strikeSymbolEmit h => Sys2Proof.Machine.execStrikeSymbolEmit h s
  | .commandSend h => Sys2Proof.Machine.execCommandSend h s
  | .cmdGo h => Sys2Proof.Machine.execCmdGo h s
  | .responsePacket h u => Sys2Proof.Machine.execResponsePacket h u s
  | .cmdTimeout h => Sys2Proof.Machine.execCmdTimeout h s
  | .blockLock h x => Sys2Proof.Machine.execBlockLock h x s
  | .lockLoss h x => Sys2Proof.Machine.execLockLoss h x s
  | .alignmentMarker h spread => Sys2Proof.Machine.execAlignmentMarker h spread s
  | .alignmentLoss h lane => Sys2Proof.Machine.execAlignmentLoss h lane s
  | .retrain h => Sys2Proof.Machine.execRetrain h s
  | .reload h => Sys2Proof.Machine.execReload h s
  | .charLoadComplete h => Sys2Proof.Machine.execCharLoadComplete h s
  | .charTimeout h => Sys2Proof.Machine.execCharTimeout h s
  | .measure h => Sys2Proof.Machine.execMeasure h s
  | .echoAnswer h sub => Sys2Proof.Machine.execEchoAnswer h sub s
  | .echoTimeout h => Sys2Proof.Machine.execEchoTimeout h s
  | .linePacket h u => Sys2Proof.Machine.execLinePacket h u s
  | .trailerPacket h u => Sys2Proof.Machine.execTrailerPacket h u s
  | .trailerTimeout h => Sys2Proof.Machine.execTrailerTimeout h s
  | .hdBindBind r h val => Sys2Proof.Machine.execHdBindBind r h val s
  | .hdBindUnbind r h => Sys2Proof.Machine.execHdBindUnbind r h s
  | .hdBankSwitch h => Sys2Proof.Machine.execHdBankSwitch h s
  | .hdBankCancel h => Sys2Proof.Machine.execHdBankCancel h s
  | .digGo h => Sys2Proof.Machine.execDigGo h s
  | .digestDone h => Sys2Proof.Machine.execDigestDone h s
  | .plBist p => Sys2Proof.Machine.execPlBist p s
  | .bistCancel p => Sys2Proof.Machine.execBistCancel p s
  | .bistStart p => Sys2Proof.Machine.execBistStart p s
  | .bistEnd p failUnit => Sys2Proof.Machine.execBistEnd p failUnit s
  | .preset p => Sys2Proof.Machine.execPreset p s
  | .lineCorrection h mismatch records buffers => Sys2Proof.Machine.execLineCorrection h mismatch records buffers s
  | .sealDecision h => Sys2Proof.Machine.execSealDecision h s
  | .restrikeStart h => Sys2Proof.Machine.execRestrikeStart h s
  | .restrikeEnd r => Sys2Proof.Machine.execRestrikeEnd r s
  | .fcReset p => Sys2Proof.Machine.execFcReset p s
  | .insert => Sys2Proof.Machine.execInsert s
  | .delete => Sys2Proof.Machine.execDelete s
  | .clearHead => Sys2Proof.Machine.execClearHead s
  | .defEditDone => Sys2Proof.Machine.execDefEditDone s
  | .defDataRead r => Sys2Proof.Machine.execDefDataRead r s
  | .emisSwitch p => Sys2Proof.Machine.execEmisSwitch p s
  | .curveLoad p => Sys2Proof.Machine.execCurveLoad p s
  | .curveLoadDone h => Sys2Proof.Machine.execCurveLoadDone h s
  | .tblDataAccess r p write => Sys2Proof.Machine.execTblDataAccess r p write s
  | .mgStart p => Sys2Proof.Machine.execMgStart p s
  | .mgAbort p => Sys2Proof.Machine.execMgAbort p s
  | .mergeRunBegin h => Sys2Proof.Machine.execMergeRunBegin h s
  | .mergeAccumulate h => Sys2Proof.Machine.execMergeAccumulate h s
  | .bandIntegration h => Sys2Proof.Machine.execBandIntegration h s
  | .flush p => Sys2Proof.Machine.execFlush p s
  | .stripLineForm => Sys2Proof.Machine.execStripLineForm s
  | .seamWaitExpiry => Sys2Proof.Machine.execSeamWaitExpiry s
  | .relayUpdate => Sys2Proof.Machine.execRelayUpdate s
  | .trimWrite r h gain val => Sys2Proof.Machine.execTrimWrite r h gain val s
  | .verdictEvaluation => Sys2Proof.Machine.execVerdictEvaluation s
  | .actArm r ix val => Sys2Proof.Machine.execActArm r ix val s
  | .actCancel r ix => Sys2Proof.Machine.execActCancel r ix s
  | .keyReached ix => Sys2Proof.Machine.execKeyReached ix s
  | .actionExecuteDeferred => Sys2Proof.Machine.execActionExecuteDeferred s
  | .eoSet r val => Sys2Proof.Machine.execEoSet r val s
  | .eoClr r val => Sys2Proof.Machine.execEoClr r val s
  | .eoPulseEnd k => Sys2Proof.Machine.execEoPulseEnd k s
  | .eiEdge ix => Sys2Proof.Machine.execEiEdge ix s
  | .calAgeTrigger h => Sys2Proof.Machine.execCalAgeTrigger h s
  | .calRetryTimer h => Sys2Proof.Machine.execCalRetryTimer h s
  | .req r h => Sys2Proof.Machine.execReq r h s
  | .reqForce r h => Sys2Proof.Machine.execReqForce r h s
  | .calAbort h => Sys2Proof.Machine.execCalAbort h s
  | .stopRetry h => Sys2Proof.Machine.execStopRetry h s
  | .restore h => Sys2Proof.Machine.execRestore h s
  | .calRunStart h => Sys2Proof.Machine.execCalRunStart h s
  | .calGrant h => Sys2Proof.Machine.execCalGrant h s
  | .calSettleEnd h => Sys2Proof.Machine.execCalSettleEnd h s
  | .calBankWrite h => Sys2Proof.Machine.execCalBankWrite h s
  | .calOpenSettleEnd h => Sys2Proof.Machine.execCalOpenSettleEnd h s
  | .threadStart t => Sys2Proof.Machine.execThreadStart t s
  | .resume t => Sys2Proof.Machine.execResume t s
  | .threadStep t => Sys2Proof.Machine.execThreadStep t s
  | .stop t => Sys2Proof.Machine.execStop t s
  | .treset t => Sys2Proof.Machine.execTreset t s
  | .wakeset r t val => Sys2Proof.Machine.execWakeset r t val s
  | .waitResume t => Sys2Proof.Machine.execWaitResume t s
  | .save => Sys2Proof.Machine.execSave s
  | .erase => Sys2Proof.Machine.execErase s
  | .saveDone => Sys2Proof.Machine.execSaveDone s
  | .ledgerHoldTimeout t => Sys2Proof.Machine.execLedgerHoldTimeout t s
  | .nop t => Sys2Proof.Machine.execNop t s
  | .halt t => Sys2Proof.Machine.execHalt t s
  | .add t rd ra rb => Sys2Proof.Machine.execAdd t rd ra rb s
  | .sub t rd ra rb => Sys2Proof.Machine.execSub t rd ra rb s
  | .and t rd ra rb => Sys2Proof.Machine.execAnd t rd ra rb s
  | .or t rd ra rb => Sys2Proof.Machine.execOr t rd ra rb s
  | .xor t rd ra rb => Sys2Proof.Machine.execXor t rd ra rb s
  | .shl t rd ra rb => Sys2Proof.Machine.execShl t rd ra rb s
  | .shr t rd ra rb => Sys2Proof.Machine.execShr t rd ra rb s
  | .sar t rd ra rb => Sys2Proof.Machine.execSar t rd ra rb s
  | .mul t rd ra rb => Sys2Proof.Machine.execMul t rd ra rb s
  | .slt t rd ra rb => Sys2Proof.Machine.execSlt t rd ra rb s
  | .sltu t rd ra rb => Sys2Proof.Machine.execSltu t rd ra rb s
  | .addi t rd ra imm => Sys2Proof.Machine.execAddi t rd ra imm s
  | .andi t rd ra imm => Sys2Proof.Machine.execAndi t rd ra imm s
  | .ori t rd ra imm => Sys2Proof.Machine.execOri t rd ra imm s
  | .xori t rd ra imm => Sys2Proof.Machine.execXori t rd ra imm s
  | .shli t rd ra amount => Sys2Proof.Machine.execShli t rd ra amount s
  | .shri t rd ra amount => Sys2Proof.Machine.execShri t rd ra amount s
  | .sari t rd ra amount => Sys2Proof.Machine.execSari t rd ra amount s
  | .ins t rd q imm => Sys2Proof.Machine.execIns t rd q imm s
  | .slti t rd ra imm => Sys2Proof.Machine.execSlti t rd ra imm s
  | .ld t rd ra imm => Sys2Proof.Machine.execLd t rd ra imm s
  | .ldw t rd ra imm => Sys2Proof.Machine.execLdw t rd ra imm s
  | .st t rs ra imm => Sys2Proof.Machine.execSt t rs ra imm s
  | .stw t rs ra imm => Sys2Proof.Machine.execStw t rs ra imm s
  | .ldc t rd ra imm => Sys2Proof.Machine.execLdc t rd ra imm s
  | .ldcd t rd ra imm => Sys2Proof.Machine.execLdcd t rd ra imm s
  | .stc t rs ra imm => Sys2Proof.Machine.execStc t rs ra imm s
  | .beq t ra rb off => Sys2Proof.Machine.execBeq t ra rb off s
  | .bne t ra rb off => Sys2Proof.Machine.execBne t ra rb off s
  | .blt t ra rb off => Sys2Proof.Machine.execBlt t ra rb off s
  | .bge t ra rb off => Sys2Proof.Machine.execBge t ra rb off s
  | .bltu t ra rb off => Sys2Proof.Machine.execBltu t ra rb off s
  | .bgeu t ra rb off => Sys2Proof.Machine.execBgeu t ra rb off s
  | .j t target => Sys2Proof.Machine.execJ t target s
  | .jal t rd target => Sys2Proof.Machine.execJal t rd target s
  | .jr t ra => Sys2Proof.Machine.execJr t ra s
  | .time t rd => Sys2Proof.Machine.execTime t rd s
  | .pos t rd src hwm => Sys2Proof.Machine.execPos t rd src hwm s
  | .waitt t rd ra => Sys2Proof.Machine.execWaitt t rd ra s
  | .waitp t rd ra rb src => Sys2Proof.Machine.execWaitp t rd ra rb src s
  | .waite t rd rb src mask => Sys2Proof.Machine.execWaite t rd rb src mask s
  | .sig t ra bits => Sys2Proof.Machine.execSig t ra bits s
  | .arm t rd ra rb => Sys2Proof.Machine.execArm t rd ra rb s
  | .cana t rd ra => Sys2Proof.Machine.execCana t rd ra s
  | .bind t rd ra rb => Sys2Proof.Machine.execBind t rd ra rb s
  | .unbind t rd ra => Sys2Proof.Machine.execUnbind t rd ra s
  | .temp t rd => Sys2Proof.Machine.execTemp t rd s
  | .budg t rd => Sys2Proof.Machine.execBudg t rd s
  | .lwr t rd ra rb => Sys2Proof.Machine.execLwr t rd ra rb s
  | .log t rd ra imm => Sys2Proof.Machine.execLog t rd ra imm s
  | .illegalOpcode t => Sys2Proof.Machine.execIllegalOpcode t s
  | .bar2Read off len uncorrectable => Sys2Proof.Machine.execBar2Read off len uncorrectable s
  | .bar2Write off data => Sys2Proof.Machine.execBar2Write off data s
  | .b2BaseWrite r hi val => Sys2Proof.Machine.execB2BaseWrite r hi val s
  | .strTailWrite r st val => Sys2Proof.Machine.execStrTailWrite r st val s
  | .descFetch st => Sys2Proof.Machine.execDescFetch st s
  | .descFetchDone st e => Sys2Proof.Machine.execDescFetchDone st e s
  | .descCloseTimeout st => Sys2Proof.Machine.execDescCloseTimeout st s
  | .descLaunch st => Sys2Proof.Machine.execDescLaunch st s
  | .descComplete st => Sys2Proof.Machine.execDescComplete st s
  | .rdidxWrite r ring val => Sys2Proof.Machine.execRdidxWrite r ring val s
  | .recordRingWrite ring => Sys2Proof.Machine.execRecordRingWrite ring s
  | .egressRound => Sys2Proof.Machine.execEgressRound s
  | .msixModerationExpiry ring => Sys2Proof.Machine.execMsixModerationExpiry ring s
  | .streamEnable r st val => Sys2Proof.Machine.execStreamEnable r st val s
  | .streamDisable r st val => Sys2Proof.Machine.execStreamDisable r st val s
  | .perst asserted => Sys2Proof.Machine.execPerst asserted s
  | .pcieLinkDown => Sys2Proof.Machine.execPcieLinkDown s
  | .powerSample mw hbmUtil => Sys2Proof.Machine.execPowerSample mw hbmUtil s
  | .thermalEvaluation => Sys2Proof.Machine.execThermalEvaluation s
  | .evalGo => Sys2Proof.Machine.execEvalGo s
  | .stalenessGuard => Sys2Proof.Machine.execStalenessGuard s
  | .shutdownStop => Sys2Proof.Machine.execShutdownStop s
  | .thmAmbWrite r val => Sys2Proof.Machine.execThmAmbWrite r val s
  | .ambientAgeOut => Sys2Proof.Machine.execAmbientAgeOut s
  | .ledgerWindowWrite r addr val be => Sys2Proof.Machine.execLedgerWindowWrite r addr val be s
  | .ledgerWriteStart => Sys2Proof.Machine.execLedgerWriteStart s
  | .ledgerPageDone => Sys2Proof.Machine.execLedgerPageDone s
  | .ufree => Sys2Proof.Machine.execUfree s
  | .countersPeriod => Sys2Proof.Machine.execCountersPeriod s
  | .jsumWrite => Sys2Proof.Machine.execJsumWrite s
  | .ssel0Fall sck => Sys2Proof.Machine.execSsel0Fall sck s
  | .targetHeader w => Sys2Proof.Machine.execTargetHeader w s
  | .targetWriteWord w => Sys2Proof.Machine.execTargetWriteWord w s
  | .targetReadWord => Sys2Proof.Machine.execTargetReadWord s
  | .ssel0Rise partialBits => Sys2Proof.Machine.execSsel0Rise partialBits s
  | .go => Sys2Proof.Machine.execGo s
  | .busIdleExpiry => Sys2Proof.Machine.execBusIdleExpiry s
  | .transferDone words => Sys2Proof.Machine.execTransferDone words s
  | .collision => Sys2Proof.Machine.execCollision s
  | .backoffExpiry => Sys2Proof.Machine.execBackoffExpiry s
  | .ambientPoll => Sys2Proof.Machine.execAmbientPoll s
  | .heartbeatSend => Sys2Proof.Machine.execHeartbeatSend s
  | .heartbeat f => Sys2Proof.Machine.execHeartbeat f s
  | .write w => Sys2Proof.Machine.execWrite w s
  | .armFrame f => Sys2Proof.Machine.execArmFrame f s
  | .cancelFrame ix => Sys2Proof.Machine.execCancelFrame ix s
  | .exec ix => Sys2Proof.Machine.execExec ix s
  | .digest f => Sys2Proof.Machine.execDigest f s
  | .linecrc f => Sys2Proof.Machine.execLinecrc f s
  | .handoverFrame bounds th => Sys2Proof.Machine.execHandoverFrame bounds th s
  | .faultFrame => Sys2Proof.Machine.execFaultFrame s
  | .bulk b => Sys2Proof.Machine.execBulk b s
  | .pairFrameError => Sys2Proof.Machine.execPairFrameError s
  | .pairLinkDown => Sys2Proof.Machine.execPairLinkDown s
  | .pairLinkUp f => Sys2Proof.Machine.execPairLinkUp f s
  | .heartbeatLoss => Sys2Proof.Machine.execHeartbeatLoss s
  | .roleTimeout => Sys2Proof.Machine.execRoleTimeout s
  | .pairPhaseStep => Sys2Proof.Machine.execPairPhaseStep s
  | .handover => Sys2Proof.Machine.execHandover s
  | .handoverBallDrive => Sys2Proof.Machine.execHandoverBallDrive s
  | .join => Sys2Proof.Machine.execJoin s
  | .joinComplete => Sys2Proof.Machine.execJoinComplete s
  | .leave => Sys2Proof.Machine.execLeave s
  | .idSave => Sys2Proof.Machine.execIdSave s
  | .release => Sys2Proof.Machine.execRelease s
  | .supplyWarning rail => Sys2Proof.Machine.execSupplyWarning rail s
  | .supplyRecovery rail => Sys2Proof.Machine.execSupplyRecovery rail s
  | .supplyReset rail => Sys2Proof.Machine.execSupplyReset rail s
  | .porFall => Sys2Proof.Machine.execPorFall s
  | .warm r key => Sys2Proof.Machine.execWarm r key s
  | .cold r key => Sys2Proof.Machine.execCold r key s
  | .powerOk => Sys2Proof.Machine.execPowerOk s
  | .fuseTrim => Sys2Proof.Machine.execFuseTrim s
  | .ledgerSelect => Sys2Proof.Machine.execLedgerSelect s
  | .sramZero => Sys2Proof.Machine.execSramZero s
  | .startup20ms => Sys2Proof.Machine.execStartup20ms s
  | .hbmZeroed => Sys2Proof.Machine.execHbmZeroed s
  | .configReady => Sys2Proof.Machine.execConfigReady s
  | .configurationWrite w => Sys2Proof.Machine.execConfigurationWrite w s
  | .loWordRead r off => Sys2Proof.Machine.execLoWordRead r off s
  | .eventInputChange ix level sub => Sys2Proof.Machine.execEventInputChange ix level sub s

end Sys2Proof.Machine
end

