-- ==== Sys2Proof/Safety.lean ====
section
/-! DEFINITION. What counts as a safe state and a safe step, and the terms in which the statements speak of a command's
outcome. -/

/-- The thread of a Troek instruction (R243); none for a command that is none. -/
def Sys2Proof.Instr.threadOf : Sys2Proof.Instr → Option Sys2Proof.Thr
  | .nop t => some t
  | .halt t => some t
  | .add t _ _ _ => some t
  | .sub t _ _ _ => some t
  | .and t _ _ _ => some t
  | .or t _ _ _ => some t
  | .xor t _ _ _ => some t
  | .shl t _ _ _ => some t
  | .shr t _ _ _ => some t
  | .sar t _ _ _ => some t
  | .mul t _ _ _ => some t
  | .slt t _ _ _ => some t
  | .sltu t _ _ _ => some t
  | .addi t _ _ _ => some t
  | .andi t _ _ _ => some t
  | .ori t _ _ _ => some t
  | .xori t _ _ _ => some t
  | .shli t _ _ _ => some t
  | .shri t _ _ _ => some t
  | .sari t _ _ _ => some t
  | .ins t _ _ _ => some t
  | .slti t _ _ _ => some t
  | .ld t _ _ _ => some t
  | .ldw t _ _ _ => some t
  | .st t _ _ _ => some t
  | .stw t _ _ _ => some t
  | .ldc t _ _ _ => some t
  | .ldcd t _ _ _ => some t
  | .stc t _ _ _ => some t
  | .beq t _ _ _ => some t
  | .bne t _ _ _ => some t
  | .blt t _ _ _ => some t
  | .bge t _ _ _ => some t
  | .bltu t _ _ _ => some t
  | .bgeu t _ _ _ => some t
  | .j t _ => some t
  | .jal t _ _ => some t
  | .jr t _ => some t
  | .time t _ => some t
  | .pos t _ _ _ => some t
  | .waitt t _ _ => some t
  | .waitp t _ _ _ _ => some t
  | .waite t _ _ _ _ => some t
  | .sig t _ _ => some t
  | .arm t _ _ _ => some t
  | .cana t _ _ => some t
  | .bind t _ _ _ => some t
  | .unbind t _ _ => some t
  | .temp t _ => some t
  | .budg t _ => some t
  | .lwr t _ _ _ => some t
  | .log t _ _ _ => some t
  | _ => none

namespace Sys2Proof.Machine

/-- The reference clock stands on a tick (R41): `now` is a whole number of 2 ns ticks. -/
def Block.onTick (b : Block) : Prop := b.now % 32 = 0

/-- A step that neither faults nor is refused. -/
def completes (o : Host.Outcome State Fault Refusal) : Prop := ∃ t, o = .next t

/-- Command `c` at `s` answers a next state whose block satisfies `P`; the queue and the reference clock are as they
were. -/
def Ends (c : Instr) (s : State) (P : Block → Prop) : Prop :=
  ∃ t, exec c s = .next t ∧ t.pending = s.pending ∧ t.blk.now = s.blk.now ∧ P t.blk

/-- A register write by `r` takes effect: it reaches the registers (R366, R238), the part is not in shutdown (R296), and
this device is not the standby of a pair (R339). -/
abbrev Writes (r : Requester) (s : State) : Prop :=
  s.blk.reaches r = true ∧ s.blk.bud.down = false ∧ s.blk.standby = false

/-- No writer of a later place in the order of R377 has written register `off` in this cycle, so that a write by `r`
prevails. -/
abbrev Prevails (r : Requester) (off : Nat) (s : State) : Prop := s.blk.writer off ≤ orderOf r + 1

/-- The block without its registers, the notes of their updates in the cycle and their values at its start, its host
interface, what it has emitted, and what is kept beside the units (`Trail`): frames not acknowledged on the pair link,
notes of the journal. -/
def Block.core (b : Block) : Block := { b with regs := [], cyc := [], start := {}, host := {}, out := [], trail := {} }

/-- The position channels, the time unit, the strike groups with the strikes scheduled at the ports, the sequencer, the
service port and the budget are as they were. -/
def Aside (a b : Block) : Prop :=
  b.pos = a.pos ∧ b.tim = a.tim ∧ b.stk = a.stk ∧ b.sched = a.sched ∧ b.strikes = a.strikes ∧ b.seq = a.seq ∧
  b.svc = a.svc ∧ b.bud = a.bud ∧ b.stage_ = a.stage_

/-- CAL_H_STAT of every head. -/
def calStats : List Nat := (List.range 24).map Reg.CAL_H_STAT

/-- Every register but the listed ones holds what it held; the pending bits of MSI-X vectors 0 to 31 may be set by the
interrupt summary (R374). -/
def SameRegs (a b : Block) (offs : List Nat) : Prop := ∀ off, off ∉ Reg.MSIX_PBA 0 :: offs → b.rd off = a.rd off

/-- What register `off` holds after a write of `val` to `old` under its access codes, `upd` the hardware's updates of it
in the same cycle (R10, R11, R14, R376). -/
def written (off : Nat) (old upd val : Word) : Word :=
  match regRow off with
  | some r => applyWrite r old upd val
  | none => old

/-- The position that LOAD puts channel `n` at: the whole count in POS_SET, fraction 0 (R38). -/
abbrev loadPoint (b : Block) (n : Nat) : Pos48 := b.rdPos (Reg.POS_SET_LO n) &&& ~~~ 0xFF#48

/-- Thread `t` issues instruction `i` now (R237). -/
abbrev Issues (t : Thr) (i : Instr) (s : State) : Prop := s.blk.issues t i = true

/-- Thread `t` runs on at `pc`; its next instruction issues `cycles` later. -/
def GoesOn (a b : Block) (t : Thr) (pc cycles : Nat) : Prop :=
  b.tPc t = pc % 2 ^ 14 ∧ b.tState t = 1 ∧ (b.thr t).stall = none ∧ (b.thr t).ready = a.now + cycles * 32

/-- Of everything but the listed registers and the emissions, only the hidden state and SEQ_T_STAT of thread `t`
change. -/
def OnlyThread (a b : Block) (t : Thr) (offs : List Nat) : Prop :=
  b.core = { a with seq := { a.seq with thr := b.seq.thr } }.core ∧ (∀ u, u ≠ t.val → b.thr u = a.thr u) ∧
  SameRegs a b (Reg.SEQ_T_STAT t :: offs)

/-- Register `rd` of thread `t` holds `v`, g0 reads 0, and the thread's other registers hold what they held (R237). -/
def Result (a b : Block) (t : Thr) (rd : GReg) (v : BitVec 64) : Prop :=
  b.greg t rd = (if rd = 0 then 0 else v) ∧ ∀ r, r ≠ rd.val → b.greg t r = a.greg t r

/-- Thread `t` is faulted with a cause and FADDR (R254, R255): PC stays on the instruction, which had no effect on its
registers, and FLT_SUM reports it. -/
def Faulted (a b : Block) (t : Thr) (cause : Nat) (faddr : Word) : Prop :=
  b.tState t = 3 ∧ b.fld (Reg.SEQ_T_STAT t) 11 8 = cause ∧ b.tPc t = a.tPc t ∧
  b.rd (Reg.SEQ_T_FPC t) = BitVec.ofNat 32 (a.tPc t) ∧ b.rd (Reg.SEQ_T_FADDR t) = faddr ∧
  b.bit Reg.SEQ_STAT t = true ∧ b.bit Reg.FLT_SUM 7 = true ∧ (∀ r, b.greg t r = a.greg t r) ∧
  b.seq.dmem = a.seq.dmem ∧ b.core = { a with seq := b.seq, ldg := b.ldg }.core

/-- Block `b` is `a` after a cold reset with a cause (R353, R364): held until POWER_OK, every register but SUP_CAUSE at
its reset value, the rails below their warning level still told, HBM and every unit empty, and what no reset touches
kept. -/
def ColdFrom (a b : Block) (cause : Nat) : Prop :=
  b.stage_ = 0 ∧ b.rd Reg.SUP_CAUSE = BitVec.ofNat 32 cause ∧
  b.fld Reg.SUP_STAT 7 0 = a.fld Reg.SUP_STAT 7 0 ||| (if cause % 16 = 3 then 2 ^ (cause / 16) else 0) ∧ b.lowTo = a.lowTo ∧
  (∀ off, off ≠ Reg.SUP_CAUSE → off ≠ Reg.SUP_STAT → b.rd off = resetOf off) ∧ b.hbm = [] ∧ b.host = {} ∧ b.cfgReady = false ∧ b.held = [] ∧
  b.seq = {} ∧ b.stk = [] ∧ b.sched = [] ∧ b.ports = [] ∧ b.heads = [] ∧ b.pipes = [] ∧ b.vrd = {} ∧ b.seam = {} ∧
  b.defTab = [] ∧ b.act.entries = [] ∧ b.tim.ns = 0 ∧ b.frozen = none ∧ b.ldg.queue = [] ∧ b.ldg.prog = none ∧
  b.bud.down = false ∧ b.bad = [] ∧ b.perst = a.perst ∧ (a.ldg.prog = none → b.ldg.bytes = a.ldg.bytes)

/-- Block `b` is `a` after a warm reset with a cause (R353): the start-up begins again, the journal is frozen, HBM and
time and the ledger's bytes are kept, the data path is empty but for the SHUTTER opens that interrupted runs owe (R229),
head ports and pipelines and the budget at their reset values. -/
def WarmFrom (a b : Block) (cause : Nat) : Prop :=
  b.stage_ = 1 ∧ b.rd Reg.SUP_CAUSE = BitVec.ofNat 32 cause ∧ b.frozen.isSome = true ∧ b.hbm = a.hbm ∧ b.tim = a.tim ∧
  b.ldg.bytes = a.ldg.bytes ∧ b.ports = [] ∧ b.pipes = [] ∧ b.vrd = {} ∧ b.seam = {} ∧
  (∀ h, b.hd h = { cal := { openOwed := decide (h < 24) &&
    ((a.hd h).cal.openOwed || (decide (1 ≤ a.calState h) && decide (a.calState h ≤ 8))) } }) ∧
  b.act.entries = [] ∧ b.cfgReady = false ∧ b.bad = a.bad.filter (keptOverWarm a.member) ∧
  (∀ off, off < 0x1000 → b.rd off = a.rd off) ∧
  (∀ off, 0xE0000 ≤ off → b.rd off = resetOf off)

/-- The strike of group `g` with number SEQ is issued: the next number is the group's, the strike is recorded with its
stamp, position and instant, and shown in the LAST registers (R64). -/
abbrev Recorded (a b : Block) (g : Grp) (kind : Nat) (pos : Pos48) (inst : Inst) : Prop :=
  let stamp : BitVec 21 := BitVec.ofNat 21 (kind * 2 ^ 19 + g.val * 2 ^ 16 + (a.grp g).seq.toNat)
  (b.grp g).seq = (a.grp g).seq + 1 ∧ (b.grp g).last = some inst.ref ∧
  (b.grp g).recs = ({ stamp := stamp, pos := pos, time := BitVec.ofNat 68 inst.t16 } :: (a.grp g).recs).take 256 ∧
  b.rd (Reg.STK_GRP_LAST_STAMP g) = stamp.setWidth 32 ∧ b.rdPos (Reg.STK_GRP_LAST_POS_LO g) = pos ∧
  b.rd64 (Reg.STK_GRP_LAST_TIME_LO g) = BitVec.ofNat 64 (inst.t16 / 16)

/-- A strike of group `g` does not follow the strike before by less than STK_MININT (R58). -/
abbrev InTime (a : Block) (g : Grp) (inst : Inst) : Prop :=
  ∀ l ∈ (a.grp g).last, l + a.minint g * tuNs ≤ inst.ref

/-- No strike of group `g` is issued: no number is taken (R58). -/
abbrev NoStrike (a b : Block) (g : Grp) : Prop :=
  (b.grp g).seq = (a.grp g).seq ∧ (b.grp g).last = (a.grp g).last ∧ (b.grp g).recs = (a.grp g).recs

/-- A strike of group `g` that comes too soon is withheld: RATE is set and the strike counted (R58). -/
abbrev Withheld (a b : Block) (g : Grp) : Prop :=
  NoStrike a b g ∧ b.bit (Reg.STK_GRP_STAT g) 0 = true ∧
  b.fld (Reg.STK_GRP_CNT_A g) 31 16 = min (a.fld (Reg.STK_GRP_CNT_A g) 31 16 + 1) 0xFFFF

/-- Of group `g` the tick has neither a strike to issue nor an idle cadence due nor a manual strike. -/
abbrev Calm (a : Block) (g : Grp) : Prop :=
  (a.grp g).decided = [] ∧ (∀ t ∈ (a.grp g).idle, a.now < t) ∧ (a.grp g).manual = false

end Sys2Proof.Machine
end

