-- ==== Sys2Proof/Certificates/Slice0/Obligations.lean ====
section
/-! DEFINITION. The statements of the model. -/

open Sys2Proof Sys2Proof.Machine

/-- A step takes the command at the front of the queue and carries it out with the queue's rest. On an empty queue the
block idles (the model's choice, log entry 1). -/
def Obligations.StepRunsFrontCommand : Prop :=
  (∀ (c : Instr) (cs : List Instr) (s : State), step { s with pending := c :: cs } = exec c { s with pending := cs }) ∧
  ∀ b p : Block, step ⟨b, [], p⟩ = .next ⟨b, [], p⟩

/-- Every command answers a next state (that none faults or is refused is the model's choice: log entry 86, DESIGN
CHOICE), and leaves the queue of waiting commands alone. -/
def Obligations.CommandsAnswerAndKeepQueue : Prop :=
  ∀ (c : Instr) (s : State), ∃ t, exec c s = .next t ∧ t.pending = s.pending

/-- The reference clock stays on a tick, and only TIME_TICK moves it, by one tick of 2 ns; the block that reads show
(R375) is one of the current tick. -/
def Obligations.ClockStaysOnTick : Prop :=
  ∀ (s t : State), s.blk.onTick → s.prev.now = s.blk.now → step s = .next t →
    t.blk.onTick ∧ t.prev.now = t.blk.now ∧
    (t.blk.now = s.blk.now ∨
      (t.blk.now = s.blk.now + 32 ∧ ∃ votes sramCe hbmCe upsets cs, s.pending = .timeTick votes sramCe hbmCe upsets :: cs))

/-- Every step keeps the registers and HBM in canonical form: addresses strictly rising, and nothing listed that an
unlisted address reads as. -/
def Obligations.MapsStayCanonical : Prop :=
  ∀ (s t : State), SMap.wf resetOf s.blk.regs = true → SMap.wf (fun _ => 0) s.blk.hbm = true → step s = .next t →
    SMap.wf resetOf t.blk.regs = true ∧ SMap.wf (fun _ => 0) t.blk.hbm = true

/-- The state at reset: the clock stands on a tick, reads show the block itself and no command waits; every register
holds its reset value; SUP_CAUSE holds the cause of the power-on; HBM is empty (the model holds it zero from the cold
reset on: log entry 15, DESIGN CHOICE); both are in canonical form. -/
def Obligations.ResetRegisters : Prop :=
  State.reset.blk.onTick ∧ State.reset.prev = State.reset.blk ∧ State.reset.pending = [] ∧
  (∀ off, off ≠ Reg.SUP_CAUSE → State.reset.blk.rd off = resetOf off) ∧ State.reset.blk.rd Reg.SUP_CAUSE = 1 ∧
  State.reset.blk.rd Reg.GLB_ID = 0x724000B1 ∧
  (∀ n : Fin 8, State.reset.blk.rd (Reg.POS_CTL n.val) = 0x200) ∧
  (∀ p : Fin 26, State.reset.blk.rd (Reg.PL_RES p.val) = 16) ∧
  State.reset.blk.hbm = [] ∧ SMap.wf (fun _ => 0) State.reset.blk.hbm = true ∧ SMap.wf resetOf State.reset.blk.regs = true

/-- A register bit that does not read back reads 0 to every requester, and an unassigned offset reads 0, whatever the
block holds and held as the cycle began. -/
def Obligations.ReservedBitsReadZero : Prop :=
  ∀ (b prev : Block) (off : Nat), shadowLo off = none → inWindow off = false →
    ∀ r : Requester, b.readReg prev r off &&& ~~~ readMask off = 0

/-- A write that enables only some bytes of a word outside the ledger window changes nothing but GLB_BADACC, which it
counts up, saturating; a write that enables no byte changes nothing; a write that arrives poisoned is discarded, counted
in HOST_CNT and reported through AER, but for the shutdown state, which sees none. -/
def Obligations.PartialWritesCounted : Prop :=
  ∀ (s : State) (r : Requester) (off : BitVec 21) (val : Word) (be : BitVec 4), s.blk.reaches r = true →
    (inLedger (off.toNat / 4 * 4) = false → be ≠ 0xF →
      Ends (.registerWrite r off val (.bytes be)) s fun b =>
        b.core = s.blk.core ∧ SameRegs s.blk b [Reg.GLB_BADACC] ∧
        b.rd Reg.GLB_BADACC = if be = 0 then s.blk.rd Reg.GLB_BADACC
          else BitVec.ofNat 32 (min ((s.blk.rd Reg.GLB_BADACC).toNat + 1) 0xFFFFFFFF)) ∧
    Ends (.registerWrite r off val .poisoned) s fun b =>
      b.core = s.blk.core ∧ SameRegs s.blk b [Reg.HOST_CNT] ∧
      b.fld Reg.HOST_CNT 15 0 = (if s.blk.bud.down then s.blk.fld Reg.HOST_CNT 15 0
        else min (s.blk.fld Reg.HOST_CNT 15 0 + 1) 0xFFFF) ∧
      (s.blk.bud.down = false → .poisonedTlp ∈ b.host.aer)

/-- A whole write to a register that only holds its bits stores what its access codes let it store; where a writer of a
later place (the host, threads 0 to 3, the service port) has written the register in the same cycle, its RW bits stay as
that writer left them (R377). No other register, and no other state, changes. -/
def Obligations.PlainWritesFollowAccessCodes : Prop :=
  ∀ (s : State) (r : Requester) (off : BitVec 21) (val : Word), Writes r s →
    (off.toNat ∈ [Reg.GLB_IEN, Reg.GLB_BADACC, Reg.TIM_STEP, Reg.TIM_STAT, Reg.TIM_CNT, Reg.VRD_CNT_A] ∨
      (∃ n : Fin 8, off.toNat = Reg.POS_FILT n.val) ∨ (∃ p : Fin 26, off.toNat = Reg.PL_RES p.val)) →
    Ends (.registerWrite r off val (.bytes 0xF)) s fun b =>
      (Prevails r off.toNat s → b.rd off.toNat = written off.toNat (s.blk.rd off.toNat) (s.blk.upd off.toNat) val) ∧
      (∀ row ∈ regRow off.toNat, ¬ Prevails r off.toNat s →
        b.rd off.toNat = written off.toNat (s.blk.rd off.toNat) (s.blk.upd off.toNat)
          ((val &&& ~~~ row.rw) ||| (s.blk.rd off.toNat &&& row.rw))) ∧
      b.core = s.blk.core ∧ SameRegs s.blk b [off.toNat]

/-- What a write under the access codes stores, register by register: an RW bit takes the value written; a W1C status
bit clears where a 1 is written, and a W1C counter field clears whole, and then each takes the updates that the hardware
has made in the same cycle; a bit that is none of these keeps its value. -/
def Obligations.AccessCodes : Prop :=
  ∀ (old upd val : Word),
    (∀ i < 32, (written Reg.GLB_IEN old upd val).getLsbD i = if i ≤ 16 then val.getLsbD i else old.getLsbD i) ∧
    (∀ i < 32, (written Reg.TIM_STAT old upd val).getLsbD i =
      if i ∈ [0, 1, 2, 4, 7] then (if val.getLsbD i then upd.getLsbD i else old.getLsbD i) else old.getLsbD i) ∧
    (fieldOf (written Reg.TIM_CNT old upd val) 7 0 = if fieldOf val 7 0 = 0 then fieldOf old 7 0 else fieldOf upd 7 0) ∧
    (∀ off, regRow off = none → written off old upd val = old)

/-- The standby of a pair discards a write to a mirrored block and counts it; nothing else changes. -/
def Obligations.StandbyDiscardsMirroredWrites : Prop :=
  ∀ (s : State) (r : Requester) (off : BitVec 21) (val : Word),
    s.blk.reaches r = true → s.blk.bud.down = false → s.blk.standby = true → mirrored (off.toNat / 4 * 4) = true →
    Ends (.registerWrite r off val (.bytes 0xF)) s fun b =>
      b.core = s.blk.core ∧ SameRegs s.blk b [Reg.PAIR_CNT_C] ∧
      b.fld Reg.PAIR_CNT_C 15 0 = min (s.blk.fld Reg.PAIR_CNT_C 15 0 + 1) 0xFFFF

/-- Reading a LO word gives the requester the word and snapshots the HI word of the same cycle: whatever the block holds
later, that requester reads the snapshot, until it reads the LO word again or shutdown comes. -/
def Obligations.LoWordReadSnapshotsHi : Prop :=
  ∀ (s : State) (r : Requester) (n : Fin 8),
    s.blk.reaches r = true →
    Ends (.loWordRead r (BitVec.ofNat 21 (Reg.POS_NOW_LO n.val))) s fun b =>
      .data r (Reg.POS_NOW_LO n.val) (s.blk.readReg s.prev r (Reg.POS_NOW_LO n.val)) ∈ b.out ∧
      b.regs = s.blk.regs ∧ b.pos = s.blk.pos ∧
      ∀ c prev : Block, c.shadow = b.shadow → c.bud.down = false →
        c.readReg prev r (Reg.POS_NOW_LO n.val + 4) = s.blk.readWord s.prev r (Reg.POS_NOW_LO n.val + 4)

/-- TIM_CMD and the time unit's own writes (R42, R43, R45, R46). -/
def TimeCommands (s : State) (r : Requester) (val : Word) : Prop :=
    (Writes .host s →
      Ends .step s (fun b => b.tim = { s.blk.tim with steps := s.blk.tim.steps ++ [s.blk.rd Reg.TIM_STEP] } ∧
        b.core = { s.blk with tim := b.tim }.core ∧ SameRegs s.blk b []) ∧
      Ends .set s (fun b => b.tim = { s.blk.tim with set := some (s.blk.rd64 Reg.TIM_SET_LO) } ∧
        b.core = { s.blk with tim := b.tim }.core ∧ SameRegs s.blk b []) ∧
      Ends .toutStop s (fun b => b.tim = { s.blk.tim with train := none } ∧
        b.core = { s.blk with tim := b.tim }.core ∧ SameRegs s.blk b []) ∧
      (s.blk.fld Reg.TIM_CTL 3 2 = 1 ∨ s.blk.fld Reg.TIM_CTL 3 2 = 2 →
        s.blk.ns ≤ (s.blk.rd64 Reg.TIM_TOUT_START_LO).toNat →
        Ends .toutArm s (fun b => (∃ x, b.tim.train = some x ∧ x.start = (s.blk.rd64 Reg.TIM_TOUT_START_LO).toNat ∧
          x.k = 0 ∧ x.period = max 4 (s.blk.num Reg.TIM_TOUT_PERIOD) ∧ 0 < x.width ∧ x.width < x.period ∧
          (s.blk.fld Reg.TIM_CTL 3 2 = 1 → x.count = some 1) ∧
          (s.blk.fld Reg.TIM_CTL 3 2 = 2 → s.blk.num Reg.TIM_TOUT_COUNT = 0 → x.count = none)) ∧
          b.core = { s.blk with tim := b.tim }.core ∧ SameRegs s.blk b [])) ∧
      (s.blk.fld Reg.TIM_CTL 3 2 = 1 → (s.blk.rd64 Reg.TIM_TOUT_START_LO).toNat < s.blk.ns →
        Ends .toutArm s (fun b => b.tim = { s.blk.tim with train := none } ∧ b.bit Reg.TIM_STAT 7 = true ∧
          b.core = { s.blk with tim := b.tim }.core ∧ SameRegs s.blk b [Reg.TIM_STAT])) ∧
      (s.blk.fld Reg.TIM_CTL 3 2 = 2 → (s.blk.rd64 Reg.TIM_TOUT_START_LO).toNat < s.blk.ns →
        Ends .toutArm s (fun b =>
          (b.tim.train.isSome = true ↔ s.blk.num Reg.TIM_TOUT_COUNT = 0 ∨ s.blk.ns ≤
            (s.blk.rd64 Reg.TIM_TOUT_START_LO).toNat + (s.blk.num Reg.TIM_TOUT_COUNT - 1) * max 4 (s.blk.num Reg.TIM_TOUT_PERIOD)) ∧
          (∀ x ∈ b.tim.train, x.start = (s.blk.rd64 Reg.TIM_TOUT_START_LO).toNat ∧
            x.period = max 4 (s.blk.num Reg.TIM_TOUT_PERIOD) ∧ s.blk.ns ≤ x.start + x.k * x.period ∧
            x.start + x.k * x.period < s.blk.ns + x.period) ∧
          b.core = { s.blk with tim := b.tim }.core ∧ SameRegs s.blk b [])) ∧
      (s.blk.host.ptmEn = true → s.blk.host.dlUp = true → s.blk.tim.ptmOut = none →
        Ends .ptmReq s (fun b => b.tim = { s.blk.tim with ptmOut := some (s.blk.now, s.blk.tim.ns) } ∧
          Out.ptmRequest ∈ b.out ∧ b.core = { s.blk with tim := b.tim }.core ∧ SameRegs s.blk b []))) ∧
    (Writes r s → Prevails r Reg.TIM_INC_NS s →
      Ends (.timIncWrite r val) s (fun b => b.fld Reg.TIM_INC_NS 7 0 = fieldOf val 7 0 ∧
        b.tim = { s.blk.tim with incWritten := true } ∧ b.core = { s.blk with tim := b.tim }.core ∧
        SameRegs s.blk b [Reg.TIM_INC_NS]))

/-- POS_CMD and the position channel's own writes: LOAD puts position and high-water mark at the whole count of POS_SET
with no interpolation, and the points that a forward load crosses are skipped and counted (R59); HWM_TO_POS lowers the
mark to the position; SLIP_REARM zeroes the accumulated motion of both channels of the pair; a POS_CTL write stores EN,
and setting it adopts the filtered A/B levels; a POS_STALL write stores STALL_US. The other channels (of a rearmed pair
both are its own), the time unit and HBM are left alone; a POS_CTL write that does not switch the channel, and a
POS_STALL write that brings it to no standstill, change no other register but that a calibration run that waits without
its conditions returns to STATE 1 (R220). TIM_CMD and the time unit's own writes: STEP and SET are kept for the next
tick with the value of TIM_STEP or TIM_SET in force; TOUT_ARM schedules a train that begins at TOUT_START, and where
that lies in the past, with the first edge that does not: in single mode none, which sets TOUT_LATE; TOUT_STOP ends the
train but not the pulse in progress; PTM_REQ sends a request where PTM is enabled and none is outstanding; a TIM_INC_NS
write is in force from the next tick. Only the time unit changes. -/
def Obligations.PositionAndTimeCommands : Prop :=
  ∀ (s : State) (n : Chan) (r : Requester) (val : Word),
    (Writes .host s →
      Ends (.load n) s (fun b => (b.ch n).at_ s.blk.now = loadPoint s.blk n ∧ (b.ch n).hwmAt s.blk.now = loadPoint s.blk n ∧
        (b.ch n).valid = false ∧ (∀ m, m ≠ n.val → b.ch m = s.blk.ch m) ∧ b.tim = s.blk.tim ∧ b.hbm = s.blk.hbm) ∧
      (∀ (g : Grp) (d : Int), (∀ pin ∈ [EncPin.a, .b, .z], ∀ h ∈ (s.blk.ch n).hold pin, s.blk.now < h.due) → s.blk.stkSrc g = n.val →
        d = posDiff (loadPoint s.blk n) (s.blk.grp g).next →
        Ends (.load n) s (fun b => (b.grp g).next = b.nextPoint g ∧ (b.grp g).preds = [] ∧
          (b.grp g).seq = (s.blk.grp g).seq ∧
          (s.blk.stkEn g = true → 0 < posDiff (loadPoint s.blk n) ((s.blk.ch n).hwmAt s.blk.now) → 0 ≤ d →
            b.bit (Reg.STK_GRP_STAT g) 2 = true ∧ b.fld (Reg.STK_GRP_CNT_A g) 15 0 =
              min (s.blk.fld (Reg.STK_GRP_CNT_A g) 15 0 + (d.toNat / s.blk.stkPitch g + 1)) 0xFFFF) ∧
          (s.blk.stkEn g = false ∨ posDiff (loadPoint s.blk n) ((s.blk.ch n).hwmAt s.blk.now) ≤ 0 ∨ d < 0 →
            b.rd (Reg.STK_GRP_CNT_A g) = s.blk.rd (Reg.STK_GRP_CNT_A g)))) ∧
      Ends (.hwmToPos n) s (fun b => b.ch n = { s.blk.ch n with hwm := (s.blk.ch n).at_ s.blk.now } ∧
        (∀ m, m ≠ n.val → b.ch m = s.blk.ch m) ∧ b.tim = s.blk.tim ∧ b.hbm = s.blk.hbm) ∧
      Ends (.slipRearm n) s (fun b => (b.ch n).motion s.blk.now = 0 ∧
        (b.ch (s.blk.fld (Reg.POS_CTL n) 7 5)).motion s.blk.now = 0 ∧
        (∀ m, m ≠ n.val → m ≠ s.blk.fld (Reg.POS_CTL n) 7 5 → b.ch m = s.blk.ch m) ∧
        b.tim = s.blk.tim ∧ b.hbm = s.blk.hbm)) ∧
    (Writes r s → Prevails r (Reg.POS_CTL n) s →
      Ends (.posCtlWrite r n val) s (fun b => b.posEn n = val.getLsbD 0 ∧
        (s.blk.posEn n = false → val.getLsbD 0 = true →
          (b.ch n).quadA = (s.blk.ch n).filtA ∧ (b.ch n).quadB = (s.blk.ch n).filtB ∧ (b.ch n).standstill = true) ∧
        (val.getLsbD 0 = false → b.still n = true) ∧
        (∀ m, m ≠ n.val → m ≠ fieldOf val 7 5 → b.ch m = s.blk.ch m) ∧ b.tim = s.blk.tim ∧ b.hbm = s.blk.hbm ∧
        (s.blk.posEn n = val.getLsbD 0 → SameRegs s.blk b (Reg.POS_CTL n :: calStats)))) ∧
    (Writes r s → Prevails r (Reg.POS_STALL n) s →
      Ends (.posStallWrite r n val) s (fun b => b.fld (Reg.POS_STALL n) 19 0 = fieldOf val 19 0 ∧
        (∀ m, m ≠ n.val → b.ch m = s.blk.ch m) ∧ b.tim = s.blk.tim ∧ b.hbm = s.blk.hbm ∧
        (b.still n = s.blk.still n → b.ch n = s.blk.ch n ∧ SameRegs s.blk b (Reg.POS_STALL n :: calStats)))) ∧
    TimeCommands s r val

/-- A level change at an encoder input that its filter does not already hold starts a hold of POS_FILT, stamped with the
threshold crossing; a return to the accepted level before the hold is over ends it without trace. Nothing else changes,
but that an accepted change of A or B which waited for this input to turn out a double transition is now counted alone
(log entry 23, DEDUCED), and that a calibration run that waits without its conditions returns to STATE 1 (R220). A hold
that is over by the crossing counts first: a return after it discards nothing. -/
def Obligations.EncoderFilter : Prop :=
  ∀ (s : State) (n : Chan) (pin : EncPin) (level : Bool) (sub : Sub) (hold : Option Hold),
    s.blk.posOn = true →
    ((∀ q ∈ [EncPin.a, .b, .z], ∀ h ∈ (s.blk.ch n).hold q, s.blk.now + sub < h.due) →
      hold = (if level = (s.blk.ch n).filt pin then none
        else some { level := level, cross := s.blk.instAt sub, due := s.blk.now + sub + s.blk.filtNs n * tuNs }) →
      ((s.blk.ch n).waitsFor pin = false →
        Ends (.encoderLevelChange n pin level sub) s fun b =>
          b.ch n = (s.blk.ch n).setHold pin level hold ∧ b.core = { s.blk with pos := b.pos }.core ∧
          SameRegs s.blk b calStats ∧ ∀ m, m ≠ n.val → b.ch m = s.blk.ch m) ∧
      (∀ (onA : Bool) (w : Hold), pin = (if onA then .b else .a) → (s.blk.ch n).wait = some (onA, w) →
        Ends (.encoderLevelChange n pin level sub) s fun b =>
          (b.ch n).hold pin = hold ∧ (b.ch n).wait = none ∧ (b.ch n).last = some w.cross ∧
          (b.ch n).base = (s.blk.ch n).base +
            (if quadForward onA w.level (if onA then (s.blk.ch n).quadB else (s.blk.ch n).quadA)
                (s.blk.bit (Reg.POS_CTL n) 1) then 256#48 else -256#48) ∧
          (∀ m, m ≠ n.val → b.ch m = s.blk.ch m) ∧ b.tim = s.blk.tim ∧ b.hbm = s.blk.hbm)) ∧
    (∀ h, pin ≠ .z → (s.blk.ch n).hold pin = some h → h.due ≤ s.blk.now + sub →
      (∀ q ∈ [EncPin.a, .b, .z], q ≠ pin → (s.blk.ch n).hold q = none) → (s.blk.ch n).wait = none → s.blk.posEn n = true →
      Ends (.encoderLevelChange n pin level sub) s fun b =>
        (b.ch n).filt pin = h.level ∧ (b.ch n).last = some h.cross ∧
        (b.ch n).hold pin = (if level = h.level then none
          else some { level := level, cross := s.blk.instAt sub, due := s.blk.now + sub + s.blk.filtNs n * tuNs }) ∧
        (b.ch n).base = (s.blk.ch n).base +
          (if quadForward (pin = .a) h.level (if pin = .a then (s.blk.ch n).quadB else (s.blk.ch n).quadA)
              (s.blk.bit (Reg.POS_CTL n) 1) then 256#48 else -256#48) ∧
        (∀ m, m ≠ n.val → b.ch m = s.blk.ch m) ∧ b.tim = s.blk.tim ∧ b.hbm = s.blk.hbm)

/-- A level held for POS_FILT is accepted. On a running channel a change of A or B, with no change of the other input
held or waiting, is one counted transition: 256 grains forward where A leads B (backward with DIR_INV), else backward,
at the threshold crossing. With a change of the other input within 1 ns still in its filter it waits (log entry 23,
DEDUCED); with an accepted one it is a double transition, which is not counted but reported. A rising Z is captured
where the index is enabled and its gate holds, and zeroes the position after forward motion where that is enabled. -/
def Obligations.AcceptedTransitionCounts : Prop :=
  ∀ (s : State) (n : Chan) (pin : EncPin) (h : Hold) (other : EncPin),
    s.blk.posOn = true → (s.blk.ch n).hold pin = some h → h.due ≤ s.blk.now → other = (if pin = .a then .b else .a) →
    Ends (.filterAccept n pin) s fun b =>
      (b.ch n).filt pin = h.level ∧ (b.ch n).hold pin = none ∧ b.tim = s.blk.tim ∧ b.hbm = s.blk.hbm ∧
      (∀ m, m ≠ n.val → b.ch m = s.blk.ch m) ∧
      (pin ≠ .z → s.blk.posEn n = true →
        ((s.blk.ch n).hold other = none → (s.blk.ch n).wait = none →
          (b.ch n).last = some h.cross ∧ (b.ch n).standstill = false ∧
          (b.ch n).base = (s.blk.ch n).base +
            (if quadForward (pin = .a) h.level (if pin = .a then (s.blk.ch n).quadB else (s.blk.ch n).quadA)
                (s.blk.bit (Reg.POS_CTL n) 1) then 256#48 else -256#48)) ∧
        (∀ o, (s.blk.ch n).hold other = some o → (s.blk.ch n).wait = none → nearBy o.cross h.cross = true →
          s.blk.now < o.due ∨ h.cross.ref ≤ o.cross.ref →
          (b.ch n).wait = some (decide (pin = .a), h) ∧ (b.ch n).base = (s.blk.ch n).base) ∧
        (∀ w, (s.blk.ch n).hold other = none → (s.blk.ch n).wait = some (decide (other = .a), w) →
          nearBy w.cross h.cross = true →
          (b.ch n).wait = none ∧ (b.ch n).base = (s.blk.ch n).base ∧
          b.fld (Reg.POS_ERR n) 15 0 = min (s.blk.fld (Reg.POS_ERR n) 15 0 + 1) 0xFFFF ∧
          b.bit (Reg.POS_STAT n) 8 = true)) ∧
      (pin = .z → h.level = true → s.blk.posEn n = true → s.blk.bit (Reg.POS_CTL n) 2 = true →
        s.blk.bit (Reg.POS_CTL n) 3 = false ∨ (s.blk.ch n).filtA = true ∧ (s.blk.ch n).filtB = true →
        (s.blk.ch n).holdA = none → (s.blk.ch n).holdB = none →
        b.rdPos (Reg.POS_ZCAP_LO n) = (s.blk.ch n).at_ h.cross.ref ∧ b.bit (Reg.POS_STAT n) 4 = true ∧
        (s.blk.bit (Reg.POS_CTL n) 4 = true → (s.blk.ch n).moved = true → (s.blk.ch n).fwd = true →
          (b.ch n).at_ s.blk.now = 0))

/-- A running channel without a counted transition for STALL_US comes to standstill: its fraction stays at the value it
had reached, and it does not interpolate. While an accepted change still waits to be counted (log entry 23, DEDUCED), or
the time has not come, it runs on. -/
def Obligations.StandstillFreezesFraction : Prop :=
  ∀ (s : State) (n : Chan) (l : Inst),
    s.blk.posOn = true → s.blk.posEn n = true → (s.blk.ch n).standstill = false → (s.blk.ch n).last = some l →
    (l.ref + s.blk.stallTu n ≤ s.blk.now → (s.blk.ch n).wait = none →
      Ends (.standstill n) s fun b =>
        (b.ch n).standstill = true ∧ (b.ch n).valid = false ∧ (b.ch n).at_ s.blk.now = (s.blk.ch n).at_ s.blk.now ∧
        b.tim = s.blk.tim) ∧
    (s.blk.now < l.ref + s.blk.stallTu n ∨ (s.blk.ch n).wait.isSome = true →
      Ends (.standstill n) s fun b => b.ch n = s.blk.ch n ∧ b.core = s.blk.core ∧ SameRegs s.blk b [])

/-- STEP and SET (R43), within one write of TIM_CMD and across writes: whatever pulses came before since the last tick
and whatever a write carries, the next tick loads the counter with TIM_SET as it was at the last SET, with fraction 0,
every STEP being discarded; without a SET it adds its increment and every STEP, each with TIM_STEP as it was at its
pulse. -/
def Obligations.StepAndSet : Prop :=
  ∀ (s : State) (r : Requester) (val : Word) (votes : List Vote) (sramCe hbmCe : Nat) (upsets : List Upset)
    (steps : List Word), Writes r s → 1 ≤ s.blk.stage_ → s.blk.tim.incWritten = false →
    steps = s.blk.tim.steps ++ (if val.getLsbD 0 then [s.blk.rd Reg.TIM_STEP] else []) →
    ∃ t u, exec (.registerWrite r (BitVec.ofNat 21 Reg.TIM_CMD) val (.bytes 0xF)) s = .next t ∧
      exec (.timeTick votes sramCe hbmCe upsets) t = .next u ∧
      (val.getLsbD 1 = true → u.blk.tim.ns = s.blk.rd64 Reg.TIM_SET_LO ∧ u.blk.tim.fr = 0) ∧
      (val.getLsbD 1 = false → ∀ v, s.blk.tim.set = some v → u.blk.tim.ns = v ∧ u.blk.tim.fr = 0) ∧
      (val.getLsbD 1 = false → s.blk.tim.set = none → (u.blk.tim.count : Int) =
        ((s.blk.tim.count : Int) + s.blk.tim.inc.toNat + (steps.map BitVec.toInt).sum * 2 ^ 32) % 2 ^ 96)

/-- A new increment (R42): the write of TIM_INC_NS leaves the increment in force; the next tick adds the value written
with TIM_INC_FR, clamped to ±31,250 ppm, and from then on both registers read the value in effect; a clamp sets
INC_CLAMP. -/
def Obligations.IncrementTakesEffect : Prop :=
  ∀ (s : State) (r : Requester) (val : Word) (votes : List Vote) (sramCe hbmCe v w : Nat) (upsets : List Upset),
    Writes r s → Prevails r Reg.TIM_INC_NS s → 1 ≤ s.blk.stage_ → s.blk.tim.set = none → s.blk.tim.steps = [] →
    v = fieldOf val 7 0 * 2 ^ 32 + s.blk.num Reg.TIM_INC_FR → w = max 0x01F0000000 (min v 0x0210000000) →
    ∃ t u, exec (.timIncWrite r val) s = .next t ∧ exec (.timeTick votes sramCe hbmCe upsets) t = .next u ∧
      t.blk.tim.inc = s.blk.tim.inc ∧ u.blk.tim.inc = BitVec.ofNat 40 w ∧
      u.blk.tim.count = (s.blk.tim.count + w) % 2 ^ 96 ∧
      u.blk.fld Reg.TIM_INC_NS 7 0 = w / 2 ^ 32 ∧ u.blk.num Reg.TIM_INC_FR = w % 2 ^ 32 ∧
      u.blk.bit Reg.TIM_STAT 4 = (s.blk.bit Reg.TIM_STAT 4 || decide (v ≠ w))

/-- What happens in the time unit by itself. An enabled PPS edge is captured; a gap of more than 1.1 s is counted, once
and on the reference clock (log entries 25 and 134, DESIGN CHOICE); a TIME_OUT edge begins a pulse of TOUT_WIDTH and its
end, kept as a device time (log entry 106, DESIGN CHOICE), drives the ball back, where TOUT_MODE is 1 or 2, and the ball
is left alone else; PTM exchanges start by interval, are abandoned after 100 µs, what came before them being kept (log
entry 107, DESIGN CHOICE), and give a result from the exchange before; a response without data is counted and followed
by a second request; a route hold ends with the latest measurement, saturated to its register. -/
def Obligations.TimeEvents : Prop :=
  ∀ (s : State) (rising : Bool) (sub : Sub),
    (5 ≤ s.blk.stage_ → s.blk.bit Reg.TIM_CTL 0 = true → rising = !s.blk.bit Reg.TIM_CTL 1 →
      Ends (.ppsEdge rising sub) s (fun b => b.bit Reg.TIM_STAT 0 = true ∧
        b.rd64 Reg.TIM_PPS_LO = BitVec.ofNat 64 ((s.blk.instAt sub).t16 / 16) ∧
        b.core = { s.blk with tim := { s.blk.tim with ppsLast := some (s.blk.now + sub) } }.core ∧
        SameRegs s.blk b [Reg.TIM_PPS_LO, Reg.TIM_PPS_LO + 4, Reg.TIM_PPS_FR, Reg.TIM_STAT])) ∧
    (∀ t, 5 ≤ s.blk.stage_ → s.blk.bit Reg.TIM_CTL 0 = true → s.blk.tim.ppsLast = some t →
      t + 1100 * tuMs < s.blk.now →
      Ends .ppsMiss s (fun b => b.fld Reg.TIM_CNT 31 24 = min (s.blk.fld Reg.TIM_CNT 31 24 + 1) 255 ∧
        b.core = { s.blk with tim := { s.blk.tim with ppsLast := none } }.core ∧ SameRegs s.blk b [Reg.TIM_CNT])) ∧
    (∀ x : Train, 1 ≤ s.blk.stage_ → s.blk.tim.train = some x → x.start + x.k * x.period ≤ s.blk.ns →
      Ends .toutEdge s (fun b => b.tim.pulseEnd = some (x.start + x.k * x.period + x.width) ∧
        (s.blk.toutOn = true → s.blk.tim.pulseEnd = none →
          .timeOut (some (!s.blk.bit Reg.TIM_CTL 4)) (x.start + x.k * x.period) ∈ b.out) ∧
        (s.blk.toutOn = false → ∀ l u, .timeOut l u ∈ b.out → .timeOut l u ∈ s.blk.out) ∧
        (x.count = none → b.tim.train = some { x with k := x.k + 1 }) ∧ (x.count = some (x.k + 1) → b.tim.train = none) ∧
        b.core = { s.blk with tim := b.tim }.core ∧ SameRegs s.blk b [])) ∧
    (∀ t, 1 ≤ s.blk.stage_ → s.blk.tim.pulseEnd = some t → t ≤ s.blk.ns →
      Ends .toutPulseEnd s (fun b => b.tim = { s.blk.tim with pulseEnd := none } ∧
        (s.blk.toutOn = true → .timeOut (some (s.blk.bit Reg.TIM_CTL 4)) t ∈ b.out) ∧
        (s.blk.toutOn = false → ∀ l u, .timeOut l u ∈ b.out → .timeOut l u ∈ s.blk.out) ∧
          b.core = { s.blk with tim := b.tim }.core ∧ SameRegs s.blk b [])) ∧
    (5 ≤ s.blk.stage_ → s.blk.bit Reg.TIM_CTL 5 = true →
      s.blk.tim.ptmAuto + max 1 (s.blk.fld Reg.TIM_CTL 15 8) * tuMs ≤ s.blk.now →
      s.blk.host.ptmEn = true → s.blk.host.dlUp = true → s.blk.tim.ptmOut = none →
      Ends .ptmAutoInterval s (fun b => Out.ptmRequest ∈ b.out ∧
        b.tim = { s.blk.tim with ptmAuto := s.blk.now, ptmOut := some (s.blk.now, s.blk.tim.ns) } ∧
        b.core = { s.blk with tim := b.tim }.core ∧ SameRegs s.blk b [])) ∧
    (∀ (p : PtmData) (sent : Nat) (t1 p1 p4 : BitVec 64),
      s.blk.tim.ptmOut = some (sent, t1) → s.blk.tim.ptmPrev = some (p1, p4) →
      Ends (.ptmResponse (some p) sub) s (fun b => b.rd64 Reg.TIM_PTM_MST_LO = p.t2 ∧ b.bit Reg.TIM_STAT 1 = true ∧
        b.rd Reg.TIM_PTM_RTT = BitVec.ofInt 32 (satS 32 ((p4 - p1).toInt - p.turn.toNat)) ∧
        b.tim.ptmOut = none ∧ b.tim.ptmPrev = some (t1, BitVec.ofNat 64 (s.blk.instAt sub).t1) ∧
        b.core = { s.blk with tim := b.tim }.core)) ∧
    (∀ (sent : Nat) (t1 : BitVec 64), s.blk.tim.ptmOut = some (sent, t1) → s.blk.host.ptmEn = true → s.blk.host.dlUp = true →
      Ends (.ptmResponse none sub) s (fun b => b.fld Reg.TIM_CNT 15 8 = min (s.blk.fld Reg.TIM_CNT 15 8 + 1) 255 ∧
        b.tim = { s.blk.tim with ptmOut := some (s.blk.now, s.blk.tim.ns),
                                 ptmPrev := some (t1, BitVec.ofNat 64 (s.blk.instAt sub).t1) } ∧
        Out.ptmRequest ∈ b.out ∧ b.core = { s.blk with tim := b.tim }.core ∧ SameRegs s.blk b [Reg.TIM_CNT])) ∧
    (∀ (sent : Nat) (t1 : BitVec 64), s.blk.tim.ptmOut = some (sent, t1) → sent + 100 * tuUs ≤ s.blk.now →
      Ends .ptmTimeout s (fun b => b.tim = { s.blk.tim with ptmOut := none } ∧
        b.fld Reg.TIM_CNT 7 0 = min (s.blk.fld Reg.TIM_CNT 7 0 + 1) 255 ∧
        b.core = { s.blk with tim := b.tim }.core ∧ SameRegs s.blk b [Reg.TIM_CNT])) ∧
    (∀ t, s.blk.tim.route.holdEnd = some t → t ≤ s.blk.now →
      Ends .routeHoldEnd s (fun b => b.tim.route.dest = some s.blk.tim.route.latest ∧ b.tim.route.holdEnd = none ∧
        b.rd Reg.TIM_PTM_DEST = BitVec.ofInt 32 (satS 32 s.blk.tim.route.latest) ∧
        SameRegs s.blk b [Reg.TIM_PTM_DEST, Reg.PAIR_DEST]))

/-- The next strike point of a group is a strike point of its pitch and anchor, and the smallest one past the source's
high-water mark. -/
def Obligations.NextPointIsSmallest : Prop :=
  ∀ (b : Block) (g : Grp),
    (∃ k : Int, b.nextPoint g = b.stkAnchor g + toPos (k * b.stkPitch g)) ∧
    0 < posDiff (b.nextPoint g) (b.hwmNow (b.stkSrc g)) ∧
    posDiff (b.nextPoint g) (b.hwmNow (b.stkSrc g)) ≤ b.stkPitch g

/-- Writes to a strike group. Enabling it, changing its SRC or MODE, or writing its pitch or anchor while it is enabled,
recomputes the next point; recomputing and disabling withdraw the predictions that are not yet decided (log entry 108,
DEDUCED); a port's DESKEW is stored, above 128 as 128, and its GROUP while the head is unbound; STRIKE_NOW keeps a
manual strike to be tested in the next tick, one however often it is pulsed in this (log entry 138, DESIGN CHOICE).
Positions and device time are left alone. -/
def Obligations.StrikeGroupWrites : Prop :=
  ∀ (s : State) (r : Requester) (g : Grp) (h : Hd) (reg : PitchReg) (val : Word),
    (Writes r s → Prevails r (Reg.STK_GRP_CTL g) s →
      Ends (.stkGrpCtlWrite r g val) s (fun b => b.stkEn g = val.getLsbD 0 ∧ b.stkSrc g = fieldOf val 6 4 ∧
        b.stkInterp g = decide (fieldOf val 2 1 = 1) ∧
        (val.getLsbD 0 = true → s.blk.stkEn g = false ∨ s.blk.stkSrc g ≠ fieldOf val 6 4 ∨
            s.blk.fld (Reg.STK_GRP_CTL g) 2 1 ≠ fieldOf val 2 1 →
          (b.grp g).next = b.nextPoint g ∧ (b.grp g).preds = []) ∧
        (val.getLsbD 0 = true → s.blk.stkEn g = true → s.blk.stkSrc g = fieldOf val 6 4 →
            s.blk.fld (Reg.STK_GRP_CTL g) 2 1 = fieldOf val 2 1 →
          (b.grp g).next = (s.blk.grp g).next ∧ (b.grp g).preds = (s.blk.grp g).preds) ∧
        (val.getLsbD 0 = false → (b.grp g).preds = [] ∧ (b.grp g).next = (s.blk.grp g).next) ∧
        (∀ k, k ≠ g.val → b.grp k = s.blk.grp k) ∧
        b.core = { s.blk with stk := b.stk }.core ∧ SameRegs s.blk b [Reg.STK_GRP_CTL g])) ∧
    (Writes r s →
      Ends (.stkPitchAnchorWrite r g reg val) s (fun b =>
        (s.blk.stkEn g = true → (b.grp g).next = b.nextPoint g ∧ (b.grp g).preds = []) ∧
        (s.blk.stkEn g = false → (b.grp g).next = (s.blk.grp g).next) ∧
        b.core = { s.blk with stk := b.stk }.core ∧ SameRegs s.blk b [pitchOffset g reg])) ∧
    (Writes r s → Prevails r (Reg.STK_PORT h) s →
      Ends (.stkPortWrite r h val) s (fun b =>
        b.fld (Reg.STK_PORT h) 15 8 = min 128 (fieldOf val 15 8) ∧
        b.portGroup h = (if s.blk.bound h then s.blk.portGroup h else fieldOf val 2 0) ∧
        b.core = { s.blk with ports := b.ports }.core ∧ SameRegs s.blk b [Reg.STK_PORT h])) ∧
    (Writes .host s →
      Ends (.strikeNow g) s (fun b => b.grp g = { s.blk.grp g with manualNext := true } ∧
        (∀ k, k ≠ g.val → b.grp k = s.blk.grp k) ∧
        b.core = { s.blk with stk := b.stk }.core ∧ SameRegs s.blk b []))

/-- Strikes leave. A strike that the tests of a tick have decided, interpolated or idle, is issued with the next number
of its group where it does not follow the strike before by less than STK_MININT, and else withheld and counted; every
other group and the positions and device time are left alone. A strike symbol leaves the command lane with its stamp at
its time; on a lane that carries none it is dropped (log entry 30, DESIGN CHOICE). -/
def Obligations.StrikesIssue : Prop :=
  ∀ (s : State) (g : Grp) (h : Hd) (d : Decided) (ds : List Decided), s.blk.posOn = true →
    ((s.blk.grp g).decided = d :: ds →
      Ends (if d.idle then .idleStrike g else .interpolatedStrike g) s (fun b => (b.grp g).decided = ds ∧
        (b.grp g).next = (s.blk.grp g).next ∧ (b.grp g).preds = (s.blk.grp g).preds ∧
        (InTime s.blk g d.inst → Recorded s.blk b g (if d.idle then 2 else 1) d.pos d.inst ∧ b.strikes = s.blk.strikes + 1) ∧
        (∀ l, (s.blk.grp g).last = some l → d.inst.ref < l + s.blk.minint g * tuNs →
          Withheld s.blk b g ∧ b.strikes = s.blk.strikes) ∧
        (∀ k, k ≠ g.val → b.grp k = s.blk.grp k) ∧ b.pos = s.blk.pos ∧ b.tim = s.blk.tim)) ∧
    (∀ (x : Sched) (xs : List Sched), s.blk.sched.get (fun _ => []) h = x :: xs → x.at_ ≤ s.blk.now →
      Ends (.strikeSymbolEmit h) s (fun b => b.sched.get (fun _ => []) h = xs ∧
        (s.blk.laneStrikes h = true → .strike h x.stamp (strikeChars x.stamp) x.at_ ∈ b.out ∧
          (b.port h).strikeAt = some x.at_) ∧
        (s.blk.laneStrikes h = false → ∀ y cs t, .strike h y cs t ∈ b.out → .strike h y cs t ∈ s.blk.out) ∧
        b.pos = s.blk.pos ∧ b.tim = s.blk.tim ∧ b.stk = s.blk.stk))

/-- The strike tests of a tick (R60), for a group that has nothing else to issue in it and that no queued action
switches (R204). A counted forward transition that reaches the next point is an edge strike in edge mode, and the next
point is one pitch on (R54); one that overtakes a predicted point strikes it at its own instant as a FALLBACK strike,
which is counted (R56); a backward one withdraws the prediction (R55). Without a transition a prediction is decided as
an interpolated strike once the filter delay has passed beyond its instant, and not before (R55); an idle cadence that
is due is decided as an idle strike at the present (R57), and keeps the period from there on; a manual strike pulsed in
the tick before is issued at the present where the group is enabled (R60), and one pulsed in this tick waits for the
next. -/
def Obligations.StrikeTests : Prop :=
  ∀ (s : State) (g : Grp) (votes : List Vote) (sramCe hbmCe : Nat) (upsets : List Upset),
    let src := s.blk.stkSrc g
    s.blk.posOn = true → (∀ y ∈ s.blk.act.entries, y.2.kind = 10 ∨ y.2.kind = 11 → y.2.target ≠ g.val) →
    ∃ t, exec (.timeTick votes sramCe hbmCe upsets) s = .next t ∧
      (∀ v : Eval, Calm s.blk g → (s.blk.ch src).evals = [v] → s.blk.stkEn g = true → s.blk.stkInterp g = false →
        (s.blk.grp g).preds = [] → v.fwd = true → v.behind = false → 0 ≤ posDiff v.base (s.blk.grp g).next →
        (t.blk.grp g).next = (s.blk.grp g).next + BitVec.ofNat 48 (s.blk.stkPitch g) ∧
        (InTime s.blk g v.cross → Recorded s.blk t.blk g 0 (s.blk.grp g).next v.cross)) ∧
      (∀ (v : Eval) (p : Predict), Calm s.blk g → (s.blk.ch src).evals = [v] → s.blk.stkEn g = true →
        s.blk.stkInterp g = true → (s.blk.grp g).preds = [p] → v.cross.ref < p.at_ →
        (v.fwd = true → posDiff v.base ((s.blk.grp g).next + BitVec.ofNat 48 (s.blk.stkPitch g)) < 0 →
          -(2 ^ 40) < posDiff v.base ((s.blk.grp g).next + BitVec.ofNat 48 (s.blk.stkPitch g)) → InTime s.blk g v.cross →
          Recorded s.blk t.blk g 1 p.p v.cross ∧ t.blk.bit (Reg.STK_GRP_STAT g) 1 = true ∧
          t.blk.fld (Reg.STK_GRP_CNT_B g) 31 16 = min (s.blk.fld (Reg.STK_GRP_CNT_B g) 31 16 + 1) 0xFFFF) ∧
        (v.fwd = false → NoStrike s.blk t.blk g ∧ (t.blk.grp g).preds = [] ∧ (t.blk.grp g).decided = [])) ∧
      (∀ p : Predict, Calm s.blk g → (s.blk.ch src).evals = [] → (s.blk.grp g).preds = [p] → NoStrike s.blk t.blk g ∧
        (p.at_ + s.blk.filtNs src * tuNs ≤ s.blk.now →
          (t.blk.grp g).decided = [{ idle := false, pos := p.p, inst := s.blk.instOf p.at_ }] ∧ (t.blk.grp g).preds = [] ∧
          (t.blk.grp g).next = (s.blk.grp g).next + BitVec.ofNat 48 (s.blk.stkPitch g)) ∧
        (s.blk.now < p.at_ + s.blk.filtNs src * tuNs →
          (t.blk.grp g).decided = [] ∧ (t.blk.grp g).preds = [p] ∧ (t.blk.grp g).next = (s.blk.grp g).next)) ∧
      (∀ u, (s.blk.ch src).evals = [] → (s.blk.grp g).preds = [] → (s.blk.grp g).decided = [] →
        (s.blk.grp g).manual = false → (s.blk.grp g).idle = some u → u ≤ s.blk.now → s.blk.idleCond g = true →
        NoStrike s.blk t.blk g ∧ (t.blk.grp g).decided = [{ idle := true, pos := s.blk.posNow src, inst := s.blk.inst }]) ∧
      ((s.blk.ch src).evals = [] → (s.blk.grp g).preds = [] → (s.blk.grp g).decided = [] →
        (∀ u ∈ (s.blk.grp g).idle, s.blk.now < u) →
        (t.blk.grp g).manual = (s.blk.grp g).manualNext ∧
        ((s.blk.grp g).manual = true → s.blk.stkEn g = true → InTime s.blk g s.blk.inst →
          Recorded s.blk t.blk g 3 (s.blk.posNow src) s.blk.inst) ∧
        ((s.blk.grp g).manual = false ∨ s.blk.stkEn g = false → NoStrike s.blk t.blk g))

/-- Head commands. A command that waits to be sent again goes first, with its TAG; else the next of the queue is sent
with the port's next TAG and holds its place until it is answered (log entry 31, DEDUCED), both as the characters of R70
(the CRC's place in them is the model's: log entry 146, DESIGN CHOICE); the mailbox sends only OPC 0x07 and 0x40 to
0x7F, a LEN above 64 taking a free length (log entry 33, DESIGN CHOICE), and answers any other with RSTAT 0xFE; a
response that no outstanding command waits for is counted and otherwise without effect (in the terms of the state that
the packet's arrival leaves, `a`); a mailbox response is delivered as it stands, LEN saturated at 127 (log entry 117,
DESIGN CHOICE); one with a nonzero RSTAT to a command of the T24's own that already waits to be sent again is no further
attempt; an overdue command is sent again with its TAG, at once where the lane is free, and after the fourth attempt
CMD_FAIL is set and the mailbox reads RSTAT 0xFF. -/
def Obligations.HeadCommands : Prop :=
  ∀ (s : State) (h : Hd) (u : Upstream), let a := arrival h u s.blk
    (∀ o : OutCmd, s.blk.unitsOn = true → s.blk.laneOn h = true → s.blk.laneFree h = true →
      (s.blk.port h).outs.find? (·.waits) = some o →
      Ends (.commandSend h) s (fun b => .command h o.cmd.opc o.tag o.cmd.payload (cmdChars o.cmd.opc o.tag o.cmd.payload) s.blk.now ∈ b.out ∧
        (b.port h).queue = (s.blk.port h).queue ∧
        ∃ q ∈ (b.port h).outs, q.tag = o.tag ∧ q.cmd = o.cmd ∧ q.attempt = o.attempt ∧ q.waits = false)) ∧
    (∀ (c : HdCmd) (cs : List HdCmd), s.blk.unitsOn = true → s.blk.laneOn h = true → s.blk.laneFree h = true →
      (∀ o ∈ (s.blk.port h).outs, o.waits = false) →
      (s.blk.port h).queue = c :: cs → (s.blk.port h).outs.length < 16 →
      Ends (.commandSend h) s (fun b => (b.port h).queue = cs ∧ (b.port h).tag = (s.blk.port h).tag + 1 ∧
        (∃ o, (b.port h).outs = (s.blk.port h).outs ++ [o] ∧ o.cmd = c ∧ o.tag = (s.blk.port h).tag ∧ o.attempt = 1) ∧
        .command h c.opc (s.blk.port h).tag c.payload (cmdChars c.opc (s.blk.port h).tag c.payload) s.blk.now ∈ b.out ∧
        b.pos = s.blk.pos ∧ b.tim = s.blk.tim ∧ b.stk = s.blk.stk ∧ b.hbm = s.blk.hbm)) ∧
    (Writes .host s → s.blk.bit (Reg.HD_CMD h) 31 = false →
      Ends (.cmdGo h) s (fun b =>
        (if s.blk.fld (Reg.HD_CMD h) 7 0 = 7 ∨ 0x40 ≤ s.blk.fld (Reg.HD_CMD h) 7 0 ∧ s.blk.fld (Reg.HD_CMD h) 7 0 ≤ 0x7F
         then b.bit (Reg.HD_CMD h) 31 = true ∧ SameRegs s.blk b [Reg.HD_CMD h] ∧
          ∃ n ≤ 64, (s.blk.fld (Reg.HD_CMD h) 14 8 ≤ 64 → n = s.blk.fld (Reg.HD_CMD h) 14 8 ∧ b.free = s.blk.free) ∧
            (b.port h).queue = (s.blk.port h).queue ++ [⟨BitVec.ofNat 8 (s.blk.fld (Reg.HD_CMD h) 7 0),
              s.blk.getBytes (Reg.HD_CMD_DATA h 0) n, .mailbox⟩]
         else b.fld (Reg.HD_RSP h) 7 0 = 0xFE ∧ (b.port h).queue = (s.blk.port h).queue ∧
          SameRegs s.blk b [Reg.HD_RSP h]) ∧
        b.core = { s.blk with ports := b.ports, free := b.free }.core)) ∧
    (∀ p : RspPacket, s.blk.unitsOn = true → s.blk.receives h = true → a.linkUp h = true → u.starts = true → u.response = some p →
      (p.crcOk = false → Ends (.responsePacket h u) s (fun b => b.core = a.core ∧ SameRegs a b [])) ∧
      (p.crcOk = true → (∀ o ∈ (a.port h).outs, o.tag ≠ p.tag) →
        Ends (.responsePacket h u) s (fun b => b.fld (Reg.HD_CNT_H h) 15 0 = min (a.fld (Reg.HD_CNT_H h) 15 0 + 1) 0xFFFF ∧
          b.core = a.core ∧ SameRegs a b [Reg.HD_CNT_H h])) ∧
      (∀ o : OutCmd, p.crcOk = true → (a.port h).outs.find? (fun o => o.tag == p.tag) = some o → o.waits = true →
        o.cmd.org ≠ .mailbox → p.rstat ≠ 0 →
        Ends (.responsePacket h u) s (fun b => b.core = a.core ∧ SameRegs a b [])) ∧
      (∀ o : OutCmd, p.crcOk = true → (a.port h).outs.find? (fun o => o.tag == p.tag) = some o → o.cmd.org = .mailbox →
        Ends (.responsePacket h u) s (fun b => b.fld (Reg.HD_RSP h) 7 0 = p.rstat.toNat ∧
          b.fld (Reg.HD_RSP h) 14 8 = min p.payload.length 127 ∧ b.fld (Reg.HD_RSP h) 23 16 = p.tag.toNat ∧
          b.getBytes (Reg.HD_RSP_DATA h 0) (min p.payload.length 64) = p.payload.take 64 ∧
          b.bit (Reg.HD_CMD h) 31 = false ∧ (∀ q ∈ (b.port h).outs, q.tag ≠ p.tag)))) ∧
    (∀ o : OutCmd, s.blk.unitsOn = true →
      (s.blk.port h).outs.find? (fun o => !o.waits && decide (o.deadline ≤ s.blk.now)) = some o →
      (∀ q ∈ (s.blk.port h).outs, q.tag = o.tag → q = o) →
      (o.attempt < 4 → Ends (.cmdTimeout h) s (fun b =>
        (∃ q ∈ (b.port h).outs, q.tag = o.tag ∧ q.cmd = o.cmd ∧ q.attempt = o.attempt + 1 ∧
          q.waits = !(s.blk.laneOn h && s.blk.laneFree h)) ∧
        (s.blk.laneOn h = true → s.blk.laneFree h = true →
          .command h o.cmd.opc o.tag o.cmd.payload (cmdChars o.cmd.opc o.tag o.cmd.payload) s.blk.now ∈ b.out))) ∧
      (4 ≤ o.attempt → Ends (.cmdTimeout h) s (fun b => b.bit (Reg.HD_LINK_STAT h) 7 = true ∧
        (o.cmd.org = .mailbox → b.fld (Reg.HD_RSP h) 7 0 = 0xFF ∧ b.bit (Reg.HD_CMD h) 31 = false ∧
          (∀ q ∈ (b.port h).outs, q.tag ≠ o.tag)))))

/-- The upstream lanes, while the port is enabled. 64 valid sync headers in a row lock a lane; 16 invalid ones of the
last 64 lose its lock, which, as a lost alignment, takes the link down, and each invalid one counts, while the link is
down too (log entry 140, DESIGN CHOICE); markers on four locked lanes within four block periods align them and bring the
link up; RETRAIN sends HEAD_RESET first; RELOAD starts a load of an unbound head whose link is up, anew where one is in
progress (log entry 37, DESIGN CHOICE), waits for a link that is down, and does nothing to a bound head. -/
def Obligations.LinkTraining : Prop :=
  ∀ (s : State) (h : Hd) (x : LaneHeaders) (lane : Fin 4) (spread : Nat),
    (s.blk.unitsOn = true → s.blk.receives h = true →
      (s.blk.bit (Reg.HD_LINK_STAT h) (8 + x.lane) = false → 64 ≤ x.headers.length → (∀ g ∈ x.headers, validSync g = true) →
        Ends (.blockLock h x) s (fun b => b.bit (Reg.HD_LINK_STAT h) (8 + x.lane) = true ∧
          b.core = { s.blk with ports := b.ports }.core ∧ SameRegs s.blk b [Reg.HD_LINK_STAT h])) ∧
      (s.blk.bit (Reg.HD_LINK_STAT h) (8 + x.lane) = true → x.headers.length ≤ 64 →
        16 ≤ (x.headers.filter fun g => !validSync g).length →
        Ends (.lockLoss h x) s (fun b => b.bit (Reg.HD_LINK_STAT h) (8 + x.lane) = false ∧
          b.bit (Reg.HD_LINK_STAT h) 2 = false ∧ b.linkUp h = false ∧
          b.fld (Reg.HD_CNT_G h) 15 0 =
            min (s.blk.fld (Reg.HD_CNT_G h) 15 0 + (x.headers.filter fun g => !validSync g).length) 0xFFFF)) ∧
      Ends (.alignmentLoss h lane) s (fun b => b.bit (Reg.HD_LINK_STAT h) 2 = false ∧ b.linkUp h = false) ∧
      (s.blk.fld (Reg.HD_LINK_STAT h) 11 8 = 15 → spread ≤ 4 →
        Ends (.alignmentMarker h spread) s (fun b => b.bit (Reg.HD_LINK_STAT h) 2 = true ∧ b.linkUp h = true))) ∧
    (s.blk.receives h = false → Ends (.blockLock h x) s (fun b => b.core = s.blk.core ∧ SameRegs s.blk b []) ∧
      Ends (.lockLoss h x) s (fun b => b.core = s.blk.core ∧ SameRegs s.blk b []) ∧
      Ends (.alignmentLoss h lane) s (fun b => b.core = s.blk.core ∧ SameRegs s.blk b []) ∧
      Ends (.alignmentMarker h spread) s (fun b => b.core = s.blk.core ∧ SameRegs s.blk b [])) ∧
    (Writes .host s →
      Ends (.retrain h) s (fun b => (b.port h).retraining = true ∧
        (b.port h).queue = (s.blk.port h).queue ++ [{ opc := 0x08, payload := [], org := .retrain }] ∧
        b.core = { s.blk with ports := b.ports }.core ∧ SameRegs s.blk b []) ∧
      (s.blk.bound h = true → Ends (.reload h) s (fun b => b.core = s.blk.core ∧ SameRegs s.blk b [])) ∧
      (s.blk.bound h = false → s.blk.linkUp h = false → Ends (.reload h) s (fun b =>
        b.port h = { s.blk.port h with heldReload := true } ∧ b.core = { s.blk with ports := b.ports }.core ∧
        SameRegs s.blk b [])) ∧
      (s.blk.bound h = false → s.blk.linkUp h = true → Ends (.reload h) s (fun b =>
        b.bit (Reg.HD_LINK_STAT h) 4 = false ∧ ∃ l, (b.port h).load = some l ∧ l.hdr = none ∧ l.got = 0 ∧
          l.deadline = s.blk.now + max 1 (s.blk.fld (Reg.HD_LINK_CTL h) 15 8) * 100 * tuMs)))

/-- A load ends: with everything read and IMAGE_CRC right the head is READY with both digests valid where its defect
list fits the table, and else the load fails with CAUSE 7; with a wrong CRC it fails with CAUSE 4; unfinished in
CHAR_TMO it fails with CAUSE 1. After a failed load READY is 0 and no digest is valid. -/
def Obligations.CharacterisationEnds : Prop :=
  ∀ (s : State) (h : Hd) (l : Load) (bs : List Byte),
    s.blk.unitsOn = true → (s.blk.port h).load = some l →
    (l.hdr = some bs → l.got = (parseHdr bs false).caratLen + (parseHdr bs false).tblLen →
      (imageCrc bs (l.carat.getList (fun _ => 0) 0 (parseHdr bs false).caratLen)
          (l.table.getList (fun _ => 0) 0 (parseHdr bs false).tblLen) = (parseHdr bs false).crc →
        Ends (.charLoadComplete h) s (fun b => (b.port h).load = none ∧
          (if (defMerge h (parseHdr bs false).cols (parseHdr bs false).rows
              (defList (l.table.getList (fun _ => 0) 0 (parseHdr bs false).tblLen)) s.blk).1 = true
           then b.bit (Reg.HD_LINK_STAT h) 4 = true ∧ b.bit (Reg.HD_BANK h) 5 = true ∧ b.bit (Reg.HD_BANK h) 6 = true ∧
             b.activeBank h = false
           else b.bit (Reg.HD_LINK_STAT h) 4 = false ∧ b.fld (Reg.HD_LINK_STAT h) 19 16 = 7 ∧
             b.bit (Reg.HD_BANK h) 5 = false ∧ b.bit (Reg.HD_BANK h) 6 = false))) ∧
      (imageCrc bs (l.carat.getList (fun _ => 0) 0 (parseHdr bs false).caratLen)
          (l.table.getList (fun _ => 0) 0 (parseHdr bs false).tblLen) ≠ (parseHdr bs false).crc →
        Ends (.charLoadComplete h) s (fun b => (b.port h).load = none ∧ b.bit (Reg.HD_LINK_STAT h) 4 = false ∧
          b.fld (Reg.HD_LINK_STAT h) 19 16 = 4 ∧ b.bit (Reg.HD_BANK h) 5 = false ∧ b.bit (Reg.HD_BANK h) 6 = false))) ∧
    (l.deadline ≤ s.blk.now →
      Ends (.charTimeout h) s (fun b => (b.port h).load = none ∧ b.bit (Reg.HD_LINK_STAT h) 4 = false ∧
        b.bit (Reg.HD_LINK_STAT h) 6 = true ∧ b.fld (Reg.HD_LINK_STAT h) 19 16 = 1 ∧
        b.bit (Reg.HD_BANK h) 5 = false ∧ b.bit (Reg.HD_BANK h) 6 = false))

/-- The lane delay: MEASURE sends K28.3, at once on a free lane and else once it is free; the head's answer on a link
that is up gives HD_RTT, and HD_LDELAY from the header's TURN (without a loaded header TURN is not known, and HD_LDELAY
is free: log entry 35); an answer after 0xFFFF units or more, or none within 10 µs, gives HD_RTT 0xFFFF and leaves
HD_LDELAY. -/
def Obligations.LaneDelay : Prop :=
  ∀ (s : State) (h : Hd) (sub : Sub),
    (Writes .host s → s.blk.laneOn h = true →
      Ends (.measure h) s (fun b =>
        (if s.blk.laneFree h then (b.port h).measure = some s.blk.now ∧ .echo h (.k 28 3) s.blk.now ∈ b.out
         else (b.port h).measure = none ∧ (b.port h).echoWaits = true) ∧
        b.core = { s.blk with ports := b.ports }.core ∧ SameRegs s.blk b [])) ∧
    (∀ (t : Nat) (c : CharHdr), s.blk.unitsOn = true → s.blk.linkUp h = true → (s.blk.port h).measure = some t → (s.blk.port h).hdr = some c →
      s.blk.now + sub - t < 0xFFFF →
      Ends (.echoAnswer h sub) s (fun b => b.num (Reg.HD_RTT h) = s.blk.now + sub - t ∧
        b.num (Reg.HD_LDELAY h) = satU 16 (roundDiv (((s.blk.now + sub - t : Nat) : Int) - c.turn - 96) 2) ∧
        (b.port h).measure = none ∧ b.core = { s.blk with ports := b.ports }.core ∧
        SameRegs s.blk b [Reg.HD_RTT h, Reg.HD_LDELAY h])) ∧
    (∀ t, s.blk.unitsOn = true → s.blk.linkUp h = true → (s.blk.port h).measure = some t →
      (s.blk.now + sub - t < 0xFFFF → (s.blk.port h).hdr = none →
        Ends (.echoAnswer h sub) s (fun b => b.num (Reg.HD_RTT h) = s.blk.now + sub - t ∧ (b.port h).measure = none ∧
          SameRegs s.blk b [Reg.HD_RTT h, Reg.HD_LDELAY h])) ∧
      (0xFFFF ≤ s.blk.now + sub - t →
        Ends (.echoAnswer h sub) s (fun b => b.rd (Reg.HD_RTT h) = 0xFFFF ∧ (b.port h).measure = none ∧
          b.core = { s.blk with ports := b.ports }.core ∧ SameRegs s.blk b [Reg.HD_RTT h]))) ∧
    (∀ t, s.blk.unitsOn = true → (s.blk.port h).measure = some t → t + 10 * tuUs ≤ s.blk.now →
      Ends (.echoTimeout h) s (fun b => b.rd (Reg.HD_RTT h) = 0xFFFF ∧ (b.port h).measure = none ∧
        b.core = { s.blk with ports := b.ports }.core ∧ SameRegs s.blk b [Reg.HD_RTT h]))

/-- A packet on the lanes of a disabled port is not received; one that comes while the link is down, or without start
blocks on all four lanes, is discarded but for its sync headers. A line packet at ingress passes the tests of R82 in
their order: misrouted, or from a head that is not bound or not READY, it is counted and discarded (1, 2). With a bad
CRC (3), or a header that is not of the declared format (4), it is counted and becomes the next line of the open frame,
CRC_BAD; where that line would lie beyond the declared rows it is counted in EXTRA_LINE too and the frame is LONG (that
a line of test 4 is then not counted in CRC_LINE is log entry 143, DESIGN CHOICE). Beyond the declared rows (5a), or not
past the line before (5b), it is counted and discarded. Else it is placed in its frame, padded or cut to the declared
columns and counted as SHORT_LINE or LONG_LINE (6), and LATE without a strike record of its stamp (7); one of another
FRAME first closes the open frame as one without a trailer. All in the terms of the state that its arrival leaves, `a`. -/
def Obligations.LinePacketTests : Prop :=
  ∀ (s : State) (h : Hd) (u : Upstream) (p : LinePacket), let a := arrival h u s.blk
    s.blk.unitsOn = true →
    (s.blk.receives h = false →
      Ends (.linePacket h u) s (fun b => b.core = s.blk.core ∧ SameRegs s.blk b [])) ∧
    (s.blk.receives h = true → a.linkUp h = false ∨ u.starts = false →
      Ends (.linePacket h u) s (fun b => b.core = (headersIn h u s.blk).core ∧ SameRegs a b [])) ∧
    (s.blk.receives h = true → a.linkUp h = true → u.starts = true → u.line (a.lineFmt h) = some p →
      (p.head.toNat ≠ h.val →
        Ends (.linePacket h u) s (fun b =>
          b.fld (Reg.HD_CNT_E h) 31 16 = min (a.fld (Reg.HD_CNT_E h) 31 16 + 1) 0xFFFF ∧
          b.core = a.core ∧ SameRegs a b [Reg.HD_CNT_E h])) ∧
      (p.head.toNat = h.val → a.bound h = false ∨ a.ready h = false →
        Ends (.linePacket h u) s (fun b =>
          b.num (Reg.HD_UNBOUND h) = min (a.num (Reg.HD_UNBOUND h) + 1) 0xFFFFFFFF ∧
          b.core = a.core ∧ SameRegs a b [Reg.HD_UNBOUND h])) ∧
      (∀ f : Frame, p.head.toNat = h.val → a.bound h = true → a.ready h = true → (a.hd h).openFrame = some f →
        (∀ y, p.crcOk = false ∨ p.fits (a.lineFmt h) = false → y = (match f.lastY with | some z => z + 1 | none => 0) →
          Ends (.linePacket h u) s (fun b =>
            b.fld (Reg.HD_CNT_B h) 31 16 = (if p.crcOk then a.fld (Reg.HD_CNT_B h) 31 16
              else min (a.fld (Reg.HD_CNT_B h) 31 16 + 1) 0xFFFF) ∧
            b.fld (Reg.HD_CNT_D h) 31 16 = (if p.crcOk then min (a.fld (Reg.HD_CNT_D h) 31 16 + 1) 0xFFFF
              else a.fld (Reg.HD_CNT_D h) 31 16) ∧
            (y < f.rows → ∃ g, (b.hd h).openFrame = some g ∧ g.num = f.num ∧ g.lastY = some y ∧ g.rx = f.rx + 1 ∧
              (f.cut = false → ∃ l ∈ g.lines, l.y = y ∧ l.crcBad = true)) ∧
            (f.rows ≤ y → b.fld (Reg.HD_CNT_B h) 15 0 = min (a.fld (Reg.HD_CNT_B h) 15 0 + 1) 0xFFFF ∧
              ∃ g, (b.hd h).openFrame = some g ∧ g.num = f.num ∧ g.lastY = f.lastY ∧ g.rx = f.rx ∧ g.lines = f.lines ∧
                g.long = true))) ∧
        (p.crcOk = true → p.fits (a.lineFmt h) = true →
          (f.num = p.frame → a.rowsOf h ≤ p.line.toNat →
            Ends (.linePacket h u) s (fun b =>
              b.fld (Reg.HD_CNT_B h) 15 0 = min (a.fld (Reg.HD_CNT_B h) 15 0 + 1) 0xFFFF ∧
              (∃ g, (b.hd h).openFrame = some g ∧ g.num = f.num ∧ g.lastY = f.lastY ∧ g.rx = f.rx ∧ g.lines = f.lines ∧
                g.long = true) ∧
              b.core = { a with heads := b.heads }.core ∧ SameRegs a b [Reg.HD_CNT_B h])) ∧
          (∀ y, f.num = p.frame → p.line.toNat < a.rowsOf h → f.lastY = some y → p.line.toNat ≤ y →
            Ends (.linePacket h u) s (fun b =>
              b.fld (Reg.HD_CNT_D h) 15 0 = min (a.fld (Reg.HD_CNT_D h) 15 0 + 1) 0xFFFF ∧
              b.core = a.core ∧ SameRegs a b [Reg.HD_CNT_D h])) ∧
          (f.num = p.frame → p.line.toNat < a.rowsOf h → (∀ y ∈ f.lastY, y < p.line.toNat) →
            Ends (.linePacket h u) s (fun b => (∃ g, (b.hd h).openFrame = some g ∧ g.num = p.frame ∧
                g.lastY = some p.line.toNat ∧ g.rx = f.rx + 1 ∧
                (f.cut = false → ∃ l ∈ g.lines, l.y = p.line.toNat ∧ l.stamp = p.stamp ∧ l.crcBad = false ∧
                  l.pixels.length = f.cols ∧ l.short = decide (p.cols.toNat < f.cols) ∧
                  l.long = decide (f.cols < p.cols.toNat) ∧
                  ((∀ x ∈ (a.grp (a.portGroup h)).recs, x.stamp ≠ p.stamp) → l.late = true))) ∧
              b.fld (Reg.HD_CNT_A h) 31 16 = (if p.cols.toNat < a.colsOf h
                then min (a.fld (Reg.HD_CNT_A h) 31 16 + 1) 0xFFFF else a.fld (Reg.HD_CNT_A h) 31 16) ∧
              b.fld (Reg.HD_CNT_A h) 15 0 = (if a.colsOf h < p.cols.toNat
                then min (a.fld (Reg.HD_CNT_A h) 15 0 + 1) 0xFFFF else a.fld (Reg.HD_CNT_A h) 15 0) ∧
              ((∀ x ∈ (a.grp (a.portGroup h)).recs, x.stamp ≠ p.stamp) →
                b.fld (Reg.HD_CNT_F h) 15 0 = min (a.fld (Reg.HD_CNT_F h) 15 0 + 1) 0xFFFF) ∧
              b.tim = a.tim ∧ b.pos = a.pos ∧ b.stk = a.stk)) ∧
          (f.num ≠ p.frame → p.line.toNat < a.rowsOf h → a.bit (Reg.HD_BIND h) 30 = false → f.id < (a.hd h).nextId →
            Ends (.linePacket h u) s (fun b =>
              b.fld (Reg.HD_CNT_E h) 15 0 = min (a.fld (Reg.HD_CNT_E h) 15 0 + 1) 0xFFFF ∧
              (∀ g ∈ (b.hd h).frames, g.id = f.id → g.st ≠ .open_) ∧
              ∃ g ∈ (b.hd h).frames, g.st = .open_ ∧ g.num = p.frame)))))

/-- A frame closes: a good trailer of the open frame is stored in the HD_TR registers and the frame is open no more; one
with a bad CRC is counted and has no other effect, as one for which no frame is open; one of another FRAME is counted
and closes the open frame as one without a trailer, HD_TR being left alone (log entry 144, DESIGN CHOICE); without a
packet for TR_TMO the open frame closes as a frame without a trailer, which is counted. All of a packet in the terms of
the state that its arrival leaves, `a`. -/
def Obligations.FramesClose : Prop :=
  ∀ (s : State) (h : Hd) (u : Upstream) (p : TrailerPacket), let a := arrival h u s.blk
    s.blk.unitsOn = true →
    (s.blk.receives h = true → a.linkUp h = true → u.starts = true → u.trailer = some p → p.head.toNat = h.val → a.bound h = true → a.ready h = true →
      (∀ f : Frame, p.crcOk = true → (a.hd h).openFrame = some f → f.num = p.frame →
        Ends (.trailerPacket h u) s (fun b => (∀ g ∈ (b.hd h).frames, g.id = f.id → g.st ≠ .open_) ∧
          b.rd (Reg.HD_TR_FRAME h) = p.frame ∧ b.rd (Reg.HD_TR_TFPA h) = p.tfpa ∧ b.rd (Reg.HD_TR_TSHUT h) = p.tshut ∧
          b.fld (Reg.HD_TR_INFO h) 31 16 = p.bias.toNat ∧ b.rd (Reg.HD_TR_HSTAT h) = p.hstat ∧
          b.tim = a.tim ∧ b.pos = a.pos ∧ b.stk = a.stk)) ∧
      (∀ f : Frame, p.crcOk = true → (a.hd h).openFrame = some f → f.num ≠ p.frame →
        Ends (.trailerPacket h u) s (fun b => (∀ g ∈ (b.hd h).frames, g.id = f.id → g.st ≠ .open_) ∧
          b.fld (Reg.HD_CNT_D h) 15 0 = min (a.fld (Reg.HD_CNT_D h) 15 0 + 1) 0xFFFF ∧
          b.fld (Reg.HD_CNT_E h) 15 0 = min (a.fld (Reg.HD_CNT_E h) 15 0 + 1) 0xFFFF ∧
          b.rd (Reg.HD_TR_FRAME h) = a.rd (Reg.HD_TR_FRAME h) ∧ b.rd (Reg.HD_TR_TFPA h) = a.rd (Reg.HD_TR_TFPA h) ∧
          b.tim = a.tim ∧ b.pos = a.pos ∧ b.stk = a.stk)) ∧
      (p.crcOk = true → a.frameOpen h = false →
        Ends (.trailerPacket h u) s (fun b =>
          b.fld (Reg.HD_CNT_D h) 15 0 = min (a.fld (Reg.HD_CNT_D h) 15 0 + 1) 0xFFFF ∧
          b.core = a.core ∧ SameRegs a b [Reg.HD_CNT_D h])) ∧
      (p.crcOk = false →
        Ends (.trailerPacket h u) s (fun b =>
          b.fld (Reg.HD_CNT_F h) 31 16 = min (a.fld (Reg.HD_CNT_F h) 31 16 + 1) 0xFFFF ∧
          b.core = a.core ∧ SameRegs a b [Reg.HD_CNT_F h]))) ∧
    (∀ f : Frame, (s.blk.hd h).openFrame = some f →
      (s.blk.port h).lastPkt + max 1 (s.blk.fld (Reg.HD_LINK_CTL h) 31 24) * tuMs ≤ s.blk.now →
      Ends (.trailerTimeout h) s (fun b => (∀ g ∈ (b.hd h).frames, g.id = f.id → g.st ≠ .open_) ∧
        b.fld (Reg.HD_CNT_E h) 15 0 = min (s.blk.fld (Reg.HD_CNT_E h) 15 0 + 1) 0xFFFF ∧
        b.tim = s.blk.tim ∧ b.pos = s.blk.pos ∧ b.stk = s.blk.stk))

/-- The admission check makes the tests of R23 in their order, and the first that fails gives its code (R24); the pixel
rate and the accumulator space of a head are those of its declarations, and a pipeline whose requested BIST only waits
is refused as one that runs it (log entry 112, DESIGN CHOICE). A bind is judged by it and its code reported; code 0
binds the head to the pipeline and admits its rate and space, any other leaves every binding and total as it is. An
unbind waits for the frame boundary, and applies at once where no frame is open. -/
def Obligations.Binding : Prop :=
  ∀ (s : State) (r : Requester) (h : Hd) (val : Word) (p wx wy rate space : Nat), let a := s.blk
    p = fieldOf val 4 0 → wx = fieldOf val 11 6 → wy = fieldOf val 21 12 →
    rate = a.colsOf h * a.rowsOf h * a.num (Reg.HD_RATE h) →
    space = (if a.bandMode h then a.colsOf h * a.rowsOf h * 4 else 0) →
    (∀ code, code = admission h p wx wy a →
      (a.bit (Reg.HD_LINK_STAT h) 4 = false → code = 4) ∧
      (a.bit (Reg.HD_LINK_STAT h) 4 = true →
        (a.bit (Reg.HD_BIND h) 31 = true → code = 3) ∧
        (a.bit (Reg.HD_BIND h) 31 = false → p < 26 →
          (a.bit (Reg.PL_STAT p) 8 = true ∨ (a.pl p).reserved = true → code = 1) ∧
          (a.bit (Reg.PL_STAT p) 8 = false → (a.pl p).reserved = false →
            (a.bit (Reg.PL_STAT p) 11 = true ∨ a.bit (Reg.PL_STAT p) 10 = true ∨ (a.pl p).bistWait = true → code = 2) ∧
            (a.bit (Reg.PL_STAT p) 11 = false → a.bit (Reg.PL_STAT p) 10 = false → (a.pl p).bistWait = false →
              (a.geomOk h wx wy = false → code = 5) ∧
              (a.geomOk h wx wy = true →
                (800000000 < rate → code = 6) ∧
                (rate ≤ 800000000 →
                  (12000000000 < rate + (a.heads.map fun e => e.2.rate).sum → code = 7) ∧
                  (rate + (a.heads.map fun e => e.2.rate).sum ≤ 12000000000 →
                    code = (if a.bandMode h ∧ 12582912 < space + (a.heads.map fun e => e.2.accum).sum then 8 else 0))))))))) ∧
    (a.geomOk h wx wy = true ↔
      a.fld (Reg.HD_GEOM h) 11 0 % 32 = 0 ∧ 32 ≤ a.fld (Reg.HD_GEOM h) 11 0 ∧ a.fld (Reg.HD_GEOM h) 11 0 ≤ 2048 ∧
      a.rowsOf h % 2 = 0 ∧
      (a.bit (Reg.HD_FMT h) 0 = true → 16 ≤ a.fld (Reg.HD_FMT h) 15 8 ∧ a.fld (Reg.HD_FMT h) 15 8 ≤ 128) ∧
      (a.bit (Reg.HD_FMT h) 0 = false → 2 ≤ a.fld (Reg.HD_GEOM h) 26 16 ∧ a.fld (Reg.HD_GEOM h) 26 16 ≤ 1536) ∧
      12 ≤ a.fld (Reg.HD_FMT h) 20 16 ∧ a.fld (Reg.HD_FMT h) 20 16 ≤ 16 ∧ 1 ≤ a.num (Reg.HD_RATE h) ∧
      ∃ c, (a.port h).hdr = some c ∧ wx * 32 + a.colsOf h ≤ c.cols ∧ wy * 2 + a.rowsOf h ≤ c.rows) ∧
    (Writes r s →
      Ends (.hdBindBind r h val) s (fun b =>
        b.rd (Reg.HD_BINDSTAT h) = BitVec.ofNat 32 (2 ^ 31 + bindSrc r + admission h p wx wy a) ∧
        (admission h p wx wy a = 0 →
          b.bound h = true ∧ b.curPipe h = p ∧ b.bit (Reg.PL_STAT p) 8 = true ∧ b.fld (Reg.PL_STAT p) 4 0 = h.val ∧
          (b.hd h).rate = rate ∧ (b.hd h).accum = space) ∧
        (admission h p wx wy a ≠ 0 → b.bound h = a.bound h ∧ b.core = a.core)) ∧
      (a.bound h = true → a.bit (Reg.HD_BIND h) 30 = false →
        Ends (.hdBindUnbind r h) s (fun b =>
          if a.frameOpen h then b.bound h = true ∧ b.bit (Reg.HD_BIND h) 30 = true ∧ b.core = a.core
          else b.bound h = false ∧ b.curPipe h = 31)))

/-- The coefficient banks. A switch is refused while calibration owns the inactive bank, waits for the frame boundary of
an open frame, and else makes the other bank active; CANCEL withdraws a waiting switch; DIG_GO starts the inactive
bank's digest of a head whose characteristics are loaded; a completed digest of a bank not written meanwhile is stored
as valid. -/
def Obligations.CoefficientBanks : Prop :=
  ∀ (s : State) (h : Hd) (j : DigJob),
    (Writes .host s →
      Ends (.hdBankSwitch h) s (fun b =>
        (s.blk.bit (Reg.HD_BANK h) 3 = true → b.bit (Reg.HD_BANK h) 7 = true ∧ b.core = s.blk.core ∧
          SameRegs s.blk b [Reg.HD_BANK h]) ∧
        (s.blk.bit (Reg.HD_BANK h) 3 = false → s.blk.bound h = true → s.blk.frameOpen h = true →
          b.bit (Reg.HD_BANK h) 1 = true ∧ b.activeBank h = s.blk.activeBank h ∧ b.core = s.blk.core ∧
          SameRegs s.blk b [Reg.HD_BANK h]) ∧
        (s.blk.bit (Reg.HD_BANK h) 3 = false → s.blk.bound h = false ∨ s.blk.frameOpen h = false →
          b.activeBank h = !s.blk.activeBank h ∧ b.bit (Reg.HD_BANK h) 1 = false)) ∧
      Ends (.hdBankCancel h) s (fun b => b.bit (Reg.HD_BANK h) 1 = false ∧ b.activeBank h = s.blk.activeBank h ∧
        b.core = { s.blk with heads := b.heads }.core ∧ SameRegs s.blk b [Reg.HD_BANK h]) ∧
      (s.blk.bit (Reg.HD_BANK h) 4 = false → (s.blk.port h).loaded = true →
        Ends (.digGo h) s (fun b => b.bit (Reg.HD_BANK h) 4 = true ∧
          (b.hd h).dig = some { bank := !s.blk.activeBank h, dirty := false, restore := false } ∧
          b.core = { s.blk with heads := b.heads }.core ∧ SameRegs s.blk b [Reg.HD_BANK h]))) ∧
    (s.blk.unitsOn = true → s.blk.digestRuns h = true → (s.blk.hd h).dig = some j → j.dirty = false → j.restore = false →
      s.blk.calState h ≠ 6 → (s.blk.hd h).digOwed = false →
      Ends (.digestDone h) s (fun b => b.bit (Reg.HD_BANK h) 4 = false ∧
        b.bit (Reg.HD_BANK h) (if j.bank then 6 else 5) = true ∧ (b.hd h).dig = none ∧
        (if j.bank then (b.hd h).digB else (b.hd h).digA) = s.blk.bankDigest h j.bank))

/-- Rotation and self-test. A request for a pipeline that is no head's, or retired, makes it wait for BIST; one for the
pipeline of a head with an open frame reserves the lowest spare for a move at the frame boundary, or fails for want of
one; one for a pipeline under test, or whose test only waits (log entry 147, DESIGN CHOICE), or with a move pending is
refused; of two requests in one cycle the one of the lower pipeline takes the lower spare; a cancelled move releases the
spare; BIST starts on a drained pipeline under the Class C grant, and ends with a pass or with the failing unit and the
pipeline retired; a pipeline reset leaves no line in flight. -/
def Obligations.RotationAndBist : Prop :=
  ∀ (s : State) (p : Pl) (unit : Fin 11),
    (Writes .host s →
      (s.blk.bit (Reg.PL_STAT p) 10 = false → (s.blk.pl p).bistWait = false → s.blk.bit (Reg.PL_STAT p) 12 = false →
        (∀ (h q u v : Nat), s.blk.bit (Reg.PL_STAT p) 11 = false → s.blk.bit (Reg.PL_STAT p) 8 = true →
          s.blk.headOf p = some h → s.blk.frameOpen h = true → s.blk.bit (Reg.HD_BIND (s.blk.fld (Reg.PL_STAT p) 4 0)) 30 = false →
          s.blk.laterMoves p = [q] → (s.blk.pl q).moveTo = u → u < 26 → s.blk.bit (Reg.PL_STAT u) 8 = false →
          s.blk.bit (Reg.PL_STAT u) 10 = false → s.blk.bit (Reg.PL_STAT u) 11 = false → (s.blk.pl u).bistWait = false →
          s.blk.bit (Reg.PL_STAT p) 9 = false → s.blk.lowestSpare = some v → u ≠ v → u ≠ p.val →
          Ends (.plBist p) s (fun b => (b.pl p).moveTo = min u v ∧ (b.pl p).moveTo < (b.pl q).moveTo ∧
            (u < v → (b.pl q).moveTo = v) ∧ b.rd (Reg.PL_ROT p) = BitVec.ofNat 32 (min u v * 256 + 1) ∧
            b.rd (Reg.PL_ROT q) = BitVec.ofNat 32 ((b.pl q).moveTo * 256 + 1))) ∧
        (s.blk.bit (Reg.PL_STAT p) 11 = true ∨ s.blk.bit (Reg.PL_STAT p) 8 = false →
          Ends (.plBist p) s (fun b => (b.pl p).bistWait = true ∧ b.rd (Reg.PL_ROT p) = 0x1F02 ∧
            b.bit (Reg.PL_STAT p) 9 = false ∧ b.core = { s.blk with pipes := b.pipes }.core ∧
            SameRegs s.blk b [Reg.PL_ROT p, Reg.PL_STAT p])) ∧
        (∀ h, s.blk.bit (Reg.PL_STAT p) 11 = false → s.blk.bit (Reg.PL_STAT p) 8 = true → s.blk.headOf p = some h →
          s.blk.frameOpen h = true → s.blk.bit (Reg.HD_BIND (s.blk.fld (Reg.PL_STAT p) 4 0)) 30 = false →
          s.blk.laterMoves p = [] →
          Ends (.plBist p) s (fun b => match s.blk.lowestSpare with
            | some q => b.bit (Reg.PL_STAT p) 12 = true ∧ b.rd (Reg.PL_ROT p) = BitVec.ofNat 32 (q * 256 + 1) ∧
              (b.pl q).reserved = true ∧ (b.pl p).moveTo = q ∧ b.core = { s.blk with pipes := b.pipes }.core
            | none => b.rd (Reg.PL_ROT p) = 0x1F05 ∧ b.core = s.blk.core ∧ SameRegs s.blk b [Reg.PL_ROT p]))) ∧
      (s.blk.bit (Reg.PL_STAT p) 10 = true ∨ (s.blk.pl p).bistWait = true ∨ s.blk.bit (Reg.PL_STAT p) 12 = true →
        (s.blk.bit (Reg.PL_STAT p) 12 = true → (s.blk.headOf p).all s.blk.frameOpen = true) →
        Ends (.plBist p) s (fun b => b.rd (Reg.PL_ROT p) = 0x1F07 ∧ b.core = s.blk.core ∧
          SameRegs s.blk b [Reg.PL_ROT p])) ∧
      (s.blk.bit (Reg.PL_STAT p) 12 = true →
        Ends (.bistCancel p) s (fun b => b.bit (Reg.PL_STAT p) 12 = false ∧ b.fld (Reg.PL_ROT p) 3 0 = 6 ∧
          (b.pl (s.blk.pl p).moveTo).reserved = false ∧
          b.core = { s.blk with pipes := b.pipes }.core)) ∧
      Ends (.preset p) s (fun b => (∀ h < 24, ∀ f ∈ (b.hd h).frames, f.pipe = p.val → f.lines.length ≤ f.emitted) ∧
        b.pos = s.blk.pos ∧ b.tim = s.blk.tim ∧ b.stk = s.blk.stk)) ∧
    (s.blk.unitsOn = true → s.blk.mayBist p = true →
      Ends (.bistStart p) s (fun b => b.bit (Reg.PL_STAT p) 10 = true ∧ b.bit (Reg.PL_STAT p) 9 = false ∧
        (b.pl p).bistWait = false ∧ b.bud.bistDone = true ∧ SameRegs s.blk b [Reg.PL_STAT p])) ∧
    (s.blk.unitsOn = true → s.blk.bit (Reg.PL_STAT p) 10 = true →
      Ends (.bistEnd p unit) s (fun b => b.bit (Reg.PL_STAT p) 10 = false ∧
        b.fld (Reg.PL_CNT_C p) 31 16 = min (s.blk.fld (Reg.PL_CNT_C p) 31 16 + 1) 0xFFFF ∧
        (unit = 0 → b.fld (Reg.PL_ROT p) 3 0 = 3 ∧ b.bit (Reg.PL_STAT p) 11 = s.blk.bit (Reg.PL_STAT p) 11) ∧
        (unit ≠ 0 → b.fld (Reg.PL_ROT p) 3 0 = 4 ∧ b.fld (Reg.PL_BIST_RES p) 3 0 = unit ∧
          b.bit (Reg.PL_STAT p) 11 = true ∧
          (b.pl p).retUnit = if s.blk.bit (Reg.PL_STAT p) 11 then (s.blk.pl p).retUnit else unit)))

/-- A line whose windows are complete leaves the pipeline, in the terms of the state `c` in which earlier frames that
needed its frame store slot have lapsed: its corrected pixels stand in the frame store, its frame has one more line
emitted and the residue mismatches of the pixels processed with it counted (mismatches are inputs: log entry 45, DESIGN
CHOICE; the last rows leave in the order of log entry 46, DESIGN CHOICE), its uncorrectable records, buffer words and
defect entries are reported, their pixels INVALID from stage 2 on (log entry 104, DEDUCED); in frame mode it waits at
the verdict engine. A frame is decided by the seal error of its measured temperature against SEAL_TOL: sealed, or queued
for a restrike; one without an emitted line has none, and EPS_LAST reads all ones (log entry 149, DEDUCED). Registers of
a pipeline are those that the head has, or had last (log entry 125, DESIGN CHOICE). A queued frame's restrike takes the
stage state in force, and at its end the frame is sealed and named in PL_SEAL_FRAME, and nothing at the verdict engine
waits for it. FC_RESET forgets readings, ε window and temporal plane of the pipeline's head. -/
def Obligations.LinesAndSeals : Prop :=
  ∀ (s : State) (h : Hd) (p : Pl) (mm : List Mismatch) (ue : List LostRecord) (bu : List PixelAt),
    (∀ (f : Frame) (l : RawLine) (sn : Snap) (row : Row), let c := frameSlotFreed h s.blk
      let ms := mm.filter (f.performs (c.mosaic h) l.y)
      let e := c.envOf h ((f.mark (ms ++ pixelMarks (c.lostRecords h f l.y ue) ++
        pixelMarks (c.lostBuffers h f l.y bu))).skipDefects (c.lostDefects h f l.y)) sn false (·.f)
      s.blk.unitsOn = true → (c.hd h).nextLine = some (f, l) → f.snap = some sn → e.run sn l.y = some row →
      Ends (.lineCorrection h mm ue bu) s (fun b =>
        (∀ (x : Nat) (q : Pix), (row.pixels (extraFlags (!(f.st == .sealed)) f.step) f.beta (e.cfg 0x9C).toNat)[x]? = some q →
          b.hbmNum (storeAddr h f.num f.cols x row.l.y) 4 = (q.v + q.flags.toNat * 2 ^ 24) % 2 ^ 32) ∧
        (c.lostReads h f l.y ue ≠ [] → b.bit Reg.FLT_SUM 13 = true) ∧
        (c.lostBuffers h f l.y bu ≠ [] ∨ f.lostPrefetch l.y ue ≠ [] → b.bit Reg.FLT_SUM 12 = true) ∧
        (∀ g ∈ (b.hd h).frames, g.id = f.id → g.emitted = f.emitted + 1 ∧ g.mism = f.mism + mismatched ms) ∧
        (f.decided = false → f.id ∈ (b.hd h).frames.map (·.id)) ∧
        (f.band = false → b.vrd.jobs.length = c.vrd.jobs.length + 1 ∧ b.vrd.pend = c.vrd.pend) ∧
        (f.band = true → b.vrd = c.vrd) ∧ Aside c b ∧ b.seam = c.seam)) ∧
    (∀ (f : Frame) (g : Reading), s.blk.unitsOn = true → s.blk.decisionDue h = some f → f.meas = some g →
      Ends (.sealDecision h) s (fun b =>
        (b.hd h).frames.map (·.id) = (s.blk.hd h).frames.map (·.id) ∧
        (∀ x ∈ (b.hd h).frames, x.id = f.id → x.eps = sealError f g ∧
          x.st = if (sealError f g).getD 0 ≤ fieldOf (s.blk.frameReg h f 0x8C) 15 0 then .sealed else .queued) ∧
        (s.blk.regPipe h < 26 → b.rd (Reg.PL_EPS_LAST (s.blk.regPipe h)) = BitVec.ofNat 32 ((sealError f g).getD 0xFFFFFFFF)) ∧
        Aside s.blk b)) ∧
    (∀ (f : Frame), s.blk.unitsOn = true → (s.blk.hd h).restriking = none →
      (s.blk.hd h).frames.find? (fun f => f.st == .queued) = some f →
      Ends (.restrikeStart h) s (fun b =>
        (b.hd h).frames.map (·.id) = (s.blk.hd h).frames.map (·.id) ∧
        (∀ x ∈ (b.hd h).frames, x.id = f.id → x.st = .restriking ∧
          x.snap = some (s.blk.takeSnap h (f.regsCopy.getD (s.blk.stageNow (s.blk.curPipe h))))) ∧
        b.core = { s.blk with heads := b.heads }.core)) ∧
    (∀ (f : Frame) (sn : Snap), s.blk.unitsOn = true → (s.blk.hd h).restriking = some f → f.snap = some sn →
      Ends (.restrikeEnd ⟨h, mm⟩) s (fun b =>
        (b.hd h).frames.map (·.id) = (s.blk.hd h).frames.map (·.id) ∧
        (∀ x ∈ (b.hd h).frames, x.id = f.id → x.st = .sealed ∧ x.restruck = true) ∧
        (s.blk.regPipe h < 26 → b.rd (Reg.PL_SEAL_FRAME (s.blk.regPipe h)) = f.num) ∧
        (∀ q ∈ b.vrd.pend, q.ln.of h f.id = false) ∧ (∀ q ∈ b.vrd.early, q.ln.of h f.id = false) ∧ Aside s.blk b)) ∧
    (Writes .host s → s.blk.headOf p = some h.val →
      Ends (.fcReset p) s (fun b => (b.hd h).readings = [] ∧ (b.hd h).eps = [] ∧ (b.hd h).plane = none ∧
        (b.hd h).frames = (s.blk.hd h).frames ∧ b.core = { s.blk with heads := b.heads }.core)) ∧
    (Writes .host s → s.blk.headOf p = none →
      Ends (.fcReset p) s (fun b => b.core = s.blk.core ∧ SameRegs s.blk b []))

/-- The defect table. A command with a key out of limits reads RESULT 5, one for a bound head RESULT 1 and is queued;
for an unbound head, with no edit in progress, it reads its result and is in progress. The edit in progress is applied
at its last cycle: INSERT puts or replaces the entry, DELETE removes it, CLEAR_HEAD removes the head's. Reading DEF_DATA
gives the entry at DEF_IDX, as the cycle began or as written in it, and advances DEF_IDX, unless it has been written in
the same cycle. -/
def Obligations.DefectTable : Prop :=
  ∀ (s : State) (r : Requester),
    (∀ (c : Instr) (k : Nat), (c, k) ∈ [(Instr.insert, 0), (.delete, 1), (.clearHead, 2)] → Writes .host s →
      s.blk.defQueue.length < 64 →
      Ends c s (fun b =>
        b.defTab = s.blk.defTab ∧ b.core = { s.blk with defQueue := b.defQueue, defEdit := b.defEdit }.core ∧
        SameRegs s.blk b [Reg.DEF_STAT] ∧
        (defBadKey k (s.blk.rd Reg.DEF_KEY) s.blk = true →
          b.fld Reg.DEF_STAT 3 0 = 5 ∧ b.defQueue = s.blk.defQueue ∧ b.defEdit = s.blk.defEdit) ∧
        (defBadKey k (s.blk.rd Reg.DEF_KEY) s.blk = false →
          s.blk.bound (defHead (s.blk.rd Reg.DEF_KEY)) = true ∨ s.blk.defEdit.isSome = true →
          b.fld Reg.DEF_STAT 3 0 = 1) ∧
        (defBadKey k (s.blk.rd Reg.DEF_KEY) s.blk = false → s.blk.bound (defHead (s.blk.rd Reg.DEF_KEY)) = false →
          s.blk.defEdit = none →
          b.fld Reg.DEF_STAT 3 0 = (defApply k (s.blk.rd Reg.DEF_KEY) s.blk.defTab).2 ∧
          b.defEdit = some (k, s.blk.rd Reg.DEF_KEY, false) ∧ b.bit Reg.DEF_STAT 31 = true))) ∧
    (∀ (k : Nat) (w : Word) (q : Bool), s.blk.unitsOn = true → s.blk.defEdit = some (k, w, q) →
      Ends .defEditDone s (fun b =>
        (k = 0 → (w ∈ b.defTab ∨ (b.defTab = s.blk.defTab ∧ defSize ≤ s.blk.defTab.length)) ∧
          ∀ v, defKey v ≠ defKey w → (v ∈ b.defTab ↔ v ∈ s.blk.defTab)) ∧
        (k = 1 → ∀ v, v ∈ b.defTab ↔ v ∈ s.blk.defTab ∧ defKey v ≠ defKey w) ∧
        (k = 2 → ∀ v, v ∈ b.defTab ↔ v ∈ s.blk.defTab ∧ defHead v ≠ defHead w) ∧
        b.core = { s.blk with defTab := b.defTab, defQueue := b.defQueue, defEdit := b.defEdit, bad := b.bad }.core ∧
        SameRegs s.blk b [Reg.DEF_STAT])) ∧
    (∀ c : Block, s.blk.reaches r = true → s.blk.bud.down = false →
      c = (if s.blk.freshWord Reg.DEF_DATA ∨ s.blk.stage_ ≠ s.prev.stage_ then s.blk else s.prev) →
      Ends (.defDataRead r) s (fun b =>
        .data r Reg.DEF_DATA (c.defAt (c.fld Reg.DEF_IDX 16 0) &&& readMask Reg.DEF_DATA) ∈ b.out ∧
        b.fld Reg.DEF_IDX 16 0 = (if s.blk.wroteNow Reg.DEF_IDX then s.blk.fld Reg.DEF_IDX 16 0
          else (s.blk.fld Reg.DEF_IDX 16 0 + 1) % 2 ^ 17) ∧
        b.core = s.blk.core ∧ SameRegs s.blk b [Reg.DEF_IDX]))

/-- Curves and tables. EMIS_SWITCH changes the emissivity copies over at once where the pipeline has no head or its head
has no open frame, and else waits with SWITCH_PEND; CURVE_LOAD starts a copy of the tables, whose residual curve goes
into the inactive copy at its end, and which takes effect then or, with a frame open, at the boundary; it is discarded
without a head or while a copy runs; an access to the table window reads or writes the entry at TBL_IDX and advances it
(a read not in the cycle of a write of it, and giving the entry as the cycle began or as written in it), an active
emissivity entry being read-only. -/
def Obligations.CurvesAndTables : Prop :=
  ∀ (s : State) (r : Requester) (p : Pl) (h : Hd) (val : Word),
    (Writes .host s →
      (s.blk.headOf p = none →
        Ends (.emisSwitch p) s (fun b =>
          b.bit (Reg.PL_LIN_CTL p) 4 = !s.blk.bit (Reg.PL_LIN_CTL p) 4 ∧ b.bit (Reg.PL_LIN_CTL p) 5 = false ∧
          b.core = s.blk.core ∧ SameRegs s.blk b [Reg.PL_LIN_CTL p])) ∧
      (s.blk.headOf p = some h.val → s.blk.frameOpen h = true →
        Ends (.emisSwitch p) s (fun b =>
          b.bit (Reg.PL_LIN_CTL p) 4 = s.blk.bit (Reg.PL_LIN_CTL p) 4 ∧ b.bit (Reg.PL_LIN_CTL p) 5 = true ∧
          b.core = s.blk.core ∧ SameRegs s.blk b [Reg.PL_LIN_CTL p])) ∧
      (s.blk.headOf p = some h.val → s.blk.curPipe h = p.val → s.blk.frameOpen h = false →
        Ends (.emisSwitch p) s (fun b =>
          b.bit (Reg.PL_LIN_CTL p) 4 = !s.blk.bit (Reg.PL_LIN_CTL p) 4 ∧ b.bit (Reg.PL_LIN_CTL p) 5 = false ∧
          b.core = { s.blk with heads := b.heads }.core ∧ SameRegs s.blk b [Reg.PL_LIN_CTL p])) ∧
      (s.blk.headOf p = some h.val →
        Ends (.curveLoad p) s (fun b => (b.hd h).curveBusy = true ∧ (b.hd h).curves = (s.blk.hd h).curves ∧
          b.core = { s.blk with heads := b.heads }.core ∧ SameRegs s.blk b [])) ∧
      (s.blk.headOf p = none ∨ (∃ k, s.blk.headOf p = some k ∧ (s.blk.hd k).curveBusy = true) →
        Ends (.curveLoad p) s (fun b => b.core = s.blk.core ∧ SameRegs s.blk b []))) ∧
    (let t := s.blk.hbmBytes (tablesAddr h) 0x50C0
      let c := (s.blk.hd h).curves.setList (fun _ => 0) (resAddr (!(s.blk.hd h).resAct)) ((t.drop 0x5000).take 128)
      s.blk.unitsOn = true → (s.blk.hd h).curveBusy = true →
      Ends (.curveLoadDone h) s (fun b => (b.hd h).curveBusy = false ∧
        b.core = { s.blk with heads := b.heads }.core ∧
        (s.blk.frameOpen h = true → (b.hd h).curves = c ∧ (b.hd h).resAct = (s.blk.hd h).resAct ∧
          (b.hd h).resPend = true ∧ (b.hd h).curveNew = some (t, curveParams t)) ∧
        (s.blk.frameOpen h = false → (b.hd h).curves = putCurves t [] c ∧ (b.hd h).resAct = (!(s.blk.hd h).resAct) ∧
          (b.hd h).resPend = false ∧ (b.hd h).par = curveParams t ∧ (b.hd h).curveNew = none))) ∧
    (Writes r s → Prevails r (Reg.PL_TBL_DATA p) s →
      Ends (.tblDataAccess r p (some val)) s (fun b =>
        b.fld (Reg.PL_TBL_IDX p) 12 0 = (s.blk.fld (Reg.PL_TBL_IDX p) 12 0 + 1) % 0x2000 ∧
        (∀ i, s.blk.fld (Reg.PL_TBL_IDX p) 12 0 = i →
          (0x1400 ≤ i → i < 0x1500 → tblRead p i b = val) ∧
          (0x1500 ≤ i → i < 0x1600 → (b.pl p).emis = (s.blk.pl p).emis) ∧
          (0x1800 ≤ i → i < 0x1C00 → tblRead p i b = val &&& 0xFFFF) ∧
          (0x1C00 ≤ i → i < 0x1D00 → tblRead p i b = val &&& 0xFFFFFF) ∧
          (i < 0x1400 → b.core = s.blk.core)) ∧
        b.core = { s.blk with pipes := b.pipes }.core ∧
        SameRegs s.blk b [Reg.PL_TBL_IDX p, Reg.PL_LIN_CNT2 p])) ∧
    (∀ c : Block, s.blk.reaches r = true → s.blk.bud.down = false →
      c = (if s.blk.freshWord (Reg.PL_TBL_DATA p) ∨ s.blk.stage_ ≠ s.prev.stage_ then s.blk else s.prev) →
      Ends (.tblDataAccess r p none) s (fun b =>
        .data r (Reg.PL_TBL_DATA p) (tblRead p (c.fld (Reg.PL_TBL_IDX p) 12 0) c) ∈ b.out ∧
        b.fld (Reg.PL_TBL_IDX p) 12 0 = (if s.blk.wroteNow (Reg.PL_TBL_IDX p) then s.blk.fld (Reg.PL_TBL_IDX p) 12 0
          else (s.blk.fld (Reg.PL_TBL_IDX p) 12 0 + 1) % 0x2000) ∧
        b.core = s.blk.core ∧ SameRegs s.blk b [Reg.PL_TBL_IDX p]))

/-- Merge runs. START of an unbound pipeline reads CAUSE 6, with an unusable state area 3, during a calibration run 7;
during a run it is discarded, and else sets up a run that waits for Class C; ABORT ends the run, whether it has begun or
still waits, with CAUSE 2 and sends TNORM; with the grant a waiting run begins: the temporal plane becomes none and
SET_LADDER is queued, which a standby takes as sent (log entry 126, the model's choice); the oldest pair of frames, both
sealed, is accumulated under the grant. -/
def Obligations.MergeRuns : Prop :=
  ∀ (s : State) (p : Pl) (h : Hd) (m : MergeRun),
    (Writes .host s →
      (s.blk.headOf p = none →
        Ends (.mgStart p) s (fun b => b.fld (Reg.PL_MG_STAT p) 7 4 = 6 ∧ b.core = s.blk.core ∧
          SameRegs s.blk b [Reg.PL_MG_STAT p])) ∧
      (s.blk.headOf p = some h.val → (s.blk.hd h).mg = none →
        Ends (.mgStart p) s (fun b =>
          (s.blk.tfBad h = true → b.fld (Reg.PL_MG_STAT p) 7 4 = 3 ∧ b.core = s.blk.core) ∧
          (s.blk.tfBad h = false → 2 ≤ s.blk.calState h ∧ s.blk.calState h ≤ 8 →
            b.fld (Reg.PL_MG_STAT p) 7 4 = 7 ∧ b.core = s.blk.core) ∧
          (s.blk.tfBad h = false → ¬(2 ≤ s.blk.calState h ∧ s.blk.calState h ≤ 8) →
            b.fld (Reg.PL_MG_STAT p) 7 4 = 0 ∧ b.fld (Reg.PL_MG_STAT p) 31 16 = 0 ∧
            (∃ x, (b.hd h).mg = some x ∧ x.begun = false ∧ x.n = s.blk.fld (Reg.PL_MG_CTL p) 1 0 + 1 ∧
              x.total = x.n * max 1 (s.blk.fld (Reg.PL_MG_CTL p) 15 8)) ∧
            b.core = { s.blk with heads := b.heads }.core) ∧
          SameRegs s.blk b [Reg.PL_MG_STAT p])) ∧
      (s.blk.headOf p = some h.val → (s.blk.hd h).mg = some m →
        Ends (.mgStart p) s (fun b => b.core = s.blk.core ∧ SameRegs s.blk b [])) ∧
      (s.blk.headOf p = some h.val → s.blk.curPipe h = p.val → (s.blk.hd h).mg = some m →
        Ends (.mgAbort p) s (fun b => (b.hd h).mg = none ∧ b.fld (Reg.PL_MG_STAT p) 7 4 = 2 ∧
          (∃ cs c, (b.port h).queue = cs ++ [c] ∧ c.opc = 0x05 ∧
            c.payload = 1 :: leBytes 4 (s.blk.num (Reg.PL_MG_TNORM p)) ∧
            cs.map (fun c => (c.opc, c.payload)) = (s.blk.port h).queue.map (fun c => (c.opc, c.payload))) ∧
          b.core = { s.blk with heads := b.heads, ports := b.ports }.core ∧ SameRegs s.blk b [Reg.PL_MG_STAT p]))) ∧
    (s.blk.unitsOn = true → (s.blk.hd h).mg = some m → m.begun = false → s.blk.mayMerge h = true →
      Ends (.mergeRunBegin h) s (fun b => (b.hd h).plane = none ∧ b.bud = { s.blk.bud with mergeDone := true } ∧
        (s.blk.standby = false → (b.hd h).mg = some { m with begun := true } ∧
          ∃ c, (b.port h).queue = (s.blk.port h).queue ++ [c] ∧ c.opc = 0x05 ∧ c.org = .ladder true) ∧
        (s.blk.standby = true → b.ports = s.blk.ports ∧
          ∃ x, (b.hd h).mg = some x ∧ { x with after := m.after } = { m with begun := true }) ∧
        b.core = { s.blk with heads := b.heads, ports := b.ports, bud := b.bud }.core ∧ SameRegs s.blk b [])) ∧
    (∀ (a c : Nat) (rest : List (Nat × Nat)), s.blk.unitsOn = true → (s.blk.hd h).mg = some m →
      m.pairs = (a, c) :: rest → s.blk.cBulk = true →
      (∀ f ∈ (s.blk.hd h).frames, f.merge = some a ∨ f.merge = some c → f.st = .sealed) →
      Ends (.mergeAccumulate h) s (fun b =>
        (m.closing = false ∨ rest ≠ [] → ∃ x, (b.hd h).mg = some x ∧ x.pairs = rest ∧ x.times = m.times) ∧
        (s.blk.bad = [] → b.ldg = s.blk.ldg) ∧ b.core = { s.blk with heads := b.heads, ldg := b.ldg }.core))

/-- Bands, strips and verdicts. The first ready band of a head is integrated once no earlier band waits for its
decision: where it is the head's first, each of its rows opens the line that the row's position gives, with the row's
pixels in it; a pixel is added to its word unless 15 have been. FLUSH closes every open line, which is numbered by
OUTSEQ and sent on; the next strip line is formed when every head has supplied or passed it, or when its wait has
expired, numbered by SEAM_SEQ and sent to the verdict engine; a relay update is counted and begins the next interval; a
write of a head's trim sets the fine value exactly, and undoes an update of its trims in the same cycle. The oldest
waiting line passes the verdict engine, and where one rule alone finds comparisons on it, that rule's verdict is issued,
early or sealed or lapsed, or waits pending or quiet. -/
def Obligations.BandsStripsVerdicts : Prop :=
  ∀ (s : State) (r : Requester) (p : Pl) (h : Hd) (val : Word),
    (∀ (id : Nat) (rest : List Nat), s.blk.unitsOn = true → (s.blk.hd h).tdi.ready = id :: rest →
      (s.blk.hd h).bandsBefore id = false →
      Ends (.bandIntegration h) s (fun b => (b.hd h).tdi.ready = rest ∧ (b.hd h).frames = (s.blk.hd h).frames ∧
        Aside s.blk b ∧ b.act = s.blk.act ∧
        (∀ (f : Frame) (at_ : Pos48), (s.blk.hd h).frames.find? (fun f => f.id == id) = some f →
          f.lines.head?.bind RawLine.pos = some at_ → f.slotLost = false →
          let c := s.blk.tdiNow (if s.blk.curPipe h < 26 then s.blk.curPipe h else f.pipe)
          let on (j : Int) (l : RawLine) : Bool := !l.crcBad && c.lineOf (c.rowAt at_ l.y) == j
          c.en = true → (s.blk.hd h).tdi.cfg = none → (s.blk.hd h).tdi.lines = [] → (s.blk.hd h).tdi.last = none →
          (b.hd h).tdi.cfg = some c ∧ (b.hd h).tdi.last = none ∧ b.vrd = s.blk.vrd ∧ b.seam = s.blk.seam ∧
          b.hbm = s.blk.hbm ∧
          (∀ j, (∃ o ∈ (b.hd h).tdi.lines, o.j = j) ↔ ∃ l ∈ f.lines, on j l = true) ∧
          (∀ (j : Int) (l : RawLine), f.lines.filter (on j) = [l] → s.blk.bad = [] →
            ∃ o ∈ (b.hd h).tdi.lines, o.j = j ∧ o.stamp = l.stamp ∧ o.time = l.time ∧ o.srcs = [(h.val, id)] ∧
              o.words = (List.range f.cols).map fun x =>
                let v := s.blk.hbmNum (storeAddr h f.num f.cols 0 l.y + 4 * x) 4
                if v / 2 ^ 24 % 2 = 1 then 0 else (accumulate 0 (v % 2 ^ 24)).1)))) ∧
    (∀ (w : Word) (v : Nat), fieldOf w 31 28 < 15 → fieldOf w 27 0 + v < 2 ^ 28 →
      fieldOf (accumulate w v).1 27 0 = fieldOf w 27 0 + v ∧ fieldOf (accumulate w v).1 31 28 = fieldOf w 31 28 + 1 ∧
      (accumulate w v).2 = false) ∧
    (Writes .host s →
      (s.blk.headOf p = some h.val → (s.blk.hd h).tdi.cfg ≠ none →
        Ends (.flush p) s (fun b => (b.hd h).tdi.lines = [] ∧ (b.hd h).tdi.ready = (s.blk.hd h).tdi.ready ∧
          (b.hd h).frames = (s.blk.hd h).frames ∧ Aside s.blk b ∧ b.act = s.blk.act ∧
          (∀ o, (s.blk.hd h).tdi.lines = [o] → (s.blk.hd h).tdi.last = none →
            (b.hd h).tdi.last = some o.j ∧ b.rdPos (Reg.PL_TDI_LAST_J_LO p) = toPos o.j ∧
            b.rd (Reg.PL_TDI_OUTSEQ p) = s.blk.rd (Reg.PL_TDI_OUTSEQ p) + 1 ∧
            (s.blk.stitchedAt h = none → b.vrd.jobs.length = s.blk.vrd.jobs.length + 1 ∧ b.seam = s.blk.seam) ∧
            ((s.blk.stitchedAt h).isSome = true →
              b.seam.lines.length = s.blk.seam.lines.length + 1 ∧ b.vrd = s.blk.vrd)))) ∧
      (s.blk.headOf p = none → Ends (.flush p) s (fun b => b.core = s.blk.core ∧ SameRegs s.blk b []))) ∧
    (∀ (c : Instr) (i : Int), s.blk.unitsOn = true → s.blk.stitching = true →
      (c = .stripLineForm ∧ s.blk.stripNext = some i ∧ s.blk.stripReady i = true) ∨
        (c = .seamWaitExpiry ∧ s.blk.stripLowest = some i ∧ s.blk.stripLate i = true) →
      Ends c s (fun b => b.rd Reg.SEAM_SEQ = s.blk.rd Reg.SEAM_SEQ + 1 ∧ b.seam.next = some (i + 1) ∧
        (∀ l, l ∈ b.seam.lines ↔ l ∈ s.blk.seam.lines ∧ i + 1 < s.blk.stripEnd l) ∧
        b.vrd.jobs.length = s.blk.vrd.jobs.length + 1 ∧ Aside s.blk b ∧ b.heads = s.blk.heads ∧ b.hbm = s.blk.hbm)) ∧
    (s.blk.unitsOn = true → s.blk.relayDue = true →
      Ends .relayUpdate s (fun b =>
        b.fld Reg.SEAM_RELAY_CNT 31 16 = min (s.blk.fld Reg.SEAM_RELAY_CNT 31 16 + 1) 0xFFFF ∧
        b.seam.updFrom = s.blk.ns ∧ b.seam.sums = [] ∧ b.seam.lines = s.blk.seam.lines ∧
        b.core = { s.blk with seam := b.seam, free := b.free }.core)) ∧
    (Writes r s → Prevails r (Reg.SEAM_H_RG h) s →
      Ends (.trimWrite r h true val) s (fun b =>
        b.fld (Reg.SEAM_H_RG h) 23 0 = fieldOf val 23 0 ∧
        b.rd (Reg.SEAM_H_RG_FINE h) = BitVec.ofNat 32 (fieldOf val 23 0 * 256) ∧
        (∀ t rg ro, s.blk.seam.updated.get (fun _ => none) h = some (t, rg, ro) → t = s.blk.now →
          b.rd (Reg.SEAM_H_RO_FINE h) = ro ∧
          b.fld Reg.SEAM_RELAY_CNT 15 0 = min (s.blk.fld Reg.SEAM_RELAY_CNT 15 0 + 1) 0xFFFF) ∧
        ((s.blk.seam.updated.get (fun _ => none) h).all (fun u => u.1 != s.blk.now) = true →
          SameRegs s.blk b [Reg.SEAM_H_RG h, Reg.SEAM_H_RG_FINE h]) ∧
        b.core = { s.blk with seam := b.seam }.core)) ∧
    (Writes r s → Prevails r (Reg.SEAM_H_RO h) s →
      Ends (.trimWrite r h false val) s (fun b =>
        b.fld (Reg.SEAM_H_RO h) 17 0 = fieldOf val 17 0 ∧
        b.rd (Reg.SEAM_H_RO_FINE h) = BitVec.ofInt 32 (sext 18 (fieldOf val 17 0) * 2 ^ 14) ∧
        (∀ t rg ro, s.blk.seam.updated.get (fun _ => none) h = some (t, rg, ro) → t = s.blk.now →
          b.rd (Reg.SEAM_H_RG_FINE h) = rg ∧
          b.fld Reg.SEAM_RELAY_CNT 15 0 = min (s.blk.fld Reg.SEAM_RELAY_CNT 15 0 + 1) 0xFFFF) ∧
        ((s.blk.seam.updated.get (fun _ => none) h).all (fun u => u.1 != s.blk.now) = true →
          SameRegs s.blk b [Reg.SEAM_H_RO h, Reg.SEAM_H_RO_FINE h]) ∧
        b.core = { s.blk with seam := b.seam }.core)) ∧
    (∀ (j : VJob) (js : List VJob), s.blk.unitsOn = true → s.blk.vrd.jobs = j :: js →
      Ends .verdictEvaluation s (fun b => b.vrd.jobs = js ∧ Aside s.blk b ∧ b.heads = s.blk.heads ∧
        (s.blk.bit Reg.VRD_CTL 0 = false → b.vrd = { s.blk.vrd with jobs := js } ∧ SameRegs s.blk b []) ∧
        (s.blk.bit Reg.VRD_CTL 0 = true → j.shuttered = true → j.ln.head ≠ 0x1F →
          b.vrd = { s.blk.vrd with jobs := js } ∧
          b.fld Reg.VRD_CNT_B 31 16 = min (s.blk.fld Reg.VRD_CNT_B 31 16 + 1) 0xFFFF) ∧
        (∀ (z k : Nat) (rs : RuleSet), s.blk.bit Reg.VRD_CTL 0 = true → j.shuttered = false ∨ j.ln.head = 0x1F →
          z < 256 → k < 4 → s.blk.zoneHas z j.ln.pos = true → s.blk.ruleSet z k j.x0 j.pix.length = some rs →
          (∀ z' < 256, ∀ k' < 4, s.blk.zoneHas z' j.ln.pos = true → z' = z ∧ k' = k ∨
            (s.blk.ruleSet z' k' j.x0 j.pix.length).all (fun rs' => (rs'.compare j.x0 j.pix).isEmpty) = true) →
          let cs := rs.compare j.x0 j.pix
          let m : JMode := if j.hold then .hold else .scruple
          let quiet := { s.blk.vrd with jobs := js }
          cs ≠ [] →
          (j.lapsed = true → b.vrd = quiet ∧ b.rd Reg.VRD_SEQ = s.blk.rd Reg.VRD_SEQ + 1 ∧
            b.fld Reg.VRD_CNT_B 15 0 = min (s.blk.fld Reg.VRD_CNT_B 15 0 + 1) 0xFFFF) ∧
          (j.lapsed = false → j.sealed = true →
            (rs.final cs = none → b.vrd = quiet ∧ SameRegs s.blk b []) ∧
            ((rs.final cs).isSome = true → b.vrd = quiet ∧ b.rd Reg.VRD_SEQ = s.blk.rd Reg.VRD_SEQ + 1 ∧
              b.fld Reg.VRD_CNT_A 15 0 = min (s.blk.fld Reg.VRD_CNT_A 15 0 + 1) 0xFFFF)) ∧
          (j.lapsed = false → j.sealed = false →
            (∀ d, decideOf (rs.mets m cs) = some d → b.rd Reg.VRD_SEQ = s.blk.rd Reg.VRD_SEQ + 1 ∧
              b.fld Reg.VRD_CNT_A 31 16 = min (s.blk.fld Reg.VRD_CNT_A 31 16 + 1) 0xFFFF ∧
              ∃ e : Early, b.vrd = { quiet with early := s.blk.vrd.early ++ [e] } ∧ e.ln = j.ln ∧ e.zone = z ∧
                e.rule = k ∧ e.vseq = s.blk.rd Reg.VRD_SEQ ∧ e.margin = d.margin) ∧
            (decideOf (rs.mets m cs) = none → (rs.pends m cs = true → s.blk.pendCount < 4096) →
              SameRegs s.blk b [] ∧ ∃ q : Pend, b.vrd = { quiet with pend := s.blk.vrd.pend ++ [q] } ∧ q.ln = j.ln ∧
                q.zone = z ∧ q.rule = k ∧ q.pending = rs.pends m cs ∧ q.ifSealed = rs.final cs) ∧
            (decideOf (rs.mets m cs) = none → rs.pends m cs = true → 4096 ≤ s.blk.pendCount →
              b.vrd = quiet ∧ b.bit Reg.VRD_STAT 16 = true ∧ b.rd Reg.VRD_SEQ = s.blk.rd Reg.VRD_SEQ + 1)))))

/-- Actions. ARM takes the words staged by the same requester into a free entry below SPLIT with a KIND and TARGET that
may be armed, and else is refused and counted; CANCEL frees an armed entry. An entry that the test of a tick has found
reached (TickAdvances) executes as its turn comes, in index order and at most 16 in a tick, and else keeps its place; an
uncorrectable entry is freed instead (log entry 102, DESIGN CHOICE: as it is read), reported, and an active-member fault
of cause 3. That the first waiting entry executes within its tick at KEY_REACHED, the others at ACTION_EXECUTE_DEFERRED,
is log entry 56 (DESIGN CHOICE). -/
def Obligations.ActionQueue : Prop :=
  ∀ (s : State) (r : Requester) (i : ActIx) (val : Word),
    (Writes r s →
      ((s.blk.actE i).st = 0 → i.val < s.blk.split →
        actOk ((s.blk.staged r i).ctrl &&& 0x001F07FF) (val.setWidth 24) = true →
        Ends (.actArm r i val) s (fun b =>
          (b.actE i).key = (s.blk.staged r i).key ∧ (b.actE i).ctrl = (s.blk.staged r i).ctrl &&& 0x001F07FF ∧
          (b.actE i).arg = val.setWidth 24 ∧ (b.actE i).writer = writerOf r ∧
          (b.actE i).st = 1 ∧ (b.actE i).reached = none ∧
          (∀ j, j ≠ i.val → b.actE j = s.blk.actE j) ∧
          b.core = { s.blk with act := b.act, stage := b.stage, bad := b.bad }.core)) ∧
      ((s.blk.actE i).st ≠ 0 ∨ s.blk.split ≤ i.val ∨
          actOk ((s.blk.staged r i).ctrl &&& 0x001F07FF) (val.setWidth 24) = false →
        Ends (.actArm r i val) s (fun b =>
          b.fld Reg.ACT_CNT_B 31 16 = min (s.blk.fld Reg.ACT_CNT_B 31 16 + 1) 0xFFFF ∧ b.bit Reg.ACT_STAT 17 = true ∧
          b.core = s.blk.core ∧ SameRegs s.blk b [Reg.ACT_CNT_B, Reg.ACT_STAT])) ∧
      ((s.blk.actE i).st = 1 →
        Ends (.actCancel r i) s (fun b => (b.actE i).st = 0 ∧ (b.actE i).jst = 5 ∧
          b.fld Reg.ACT_CNT_C 31 16 = min (s.blk.fld Reg.ACT_CNT_C 31 16 + 1) 0xFFFF ∧
          (∀ j, j ≠ i.val → b.actE j = s.blk.actE j) ∧
          b.core = { s.blk with act := b.act, vrd := b.vrd, stage := b.stage }.core)) ∧
      ((s.blk.actE i).st ≠ 1 →
        Ends (.actCancel r i) s (fun b => b.core = { s.blk with stage := b.stage }.core ∧ SameRegs s.blk b []))) ∧
    (s.blk.unitsOn = true → s.blk.act.backlog.head? ≠ some i.val ∨ 16 ≤ s.blk.act.done →
      Ends (.keyReached i) s (fun b => b.core = s.blk.core ∧ SameRegs s.blk b [])) ∧
    (∀ is : List Nat, s.blk.unitsOn = true → s.blk.act.backlog = i.val :: is → s.blk.act.done < 16 →
      (s.blk.isBad (.action i) = true →
        Ends (.keyReached i) s (fun b => b.act.done = s.blk.act.done + 1 ∧ b.act.backlog = is.filter (· != i.val) ∧
          (b.actE i).st = 0 ∧ (b.actE i).jst = 4 ∧ (∀ j, j ≠ i.val → (b.actE j).st = (s.blk.actE j).st) ∧
          b.isBad (.action i) = false ∧ b.rd Reg.FLT_ACTF_CAUSE = 3 ∧ b.bit Reg.FLT_SUM 12 = true ∧
          b.bit Reg.FLT_SUM 17 = true ∧ b.pos = s.blk.pos ∧ b.tim = s.blk.tim)) ∧
      (s.blk.isBad (.action i) = false → (s.blk.actE i).reached.isSome = true → s.blk.standby = false →
        Ends (.keyReached i) s (fun b => b.act.done = s.blk.act.done + 1 ∧ b.act.backlog = is ∧
          ((s.blk.actE i).kind ≠ 4 → (s.blk.actE i).kind ≠ 5 → (b.actE i).st = 0 ∧ (b.actE i).jst = 3) ∧
          ((s.blk.actE i).kind = 1 → b.bit Reg.ACT_EO_LEVEL (s.blk.actE i).target = true) ∧
          ((s.blk.actE i).kind = 2 → b.bit Reg.ACT_EO_LEVEL (s.blk.actE i).target = false) ∧
          ((s.blk.actE i).kind = 9 → (s.blk.actE i).target < 4 →
            b.rd (Reg.SEQ_T_WAKE (s.blk.actE i).target) =
              s.blk.rd (Reg.SEQ_T_WAKE (s.blk.actE i).target) ||| BitVec.ofNat 32 ((s.blk.actE i).arg.toNat % 256)) ∧
          b.pos = s.blk.pos ∧ b.tim = s.blk.tim))) ∧
    (s.blk.unitsOn = true → (∀ j ∈ s.blk.act.backlog, s.blk.isBad (.action (Fin.ofNat 4096 j)) = false) →
      Ends .actionExecuteDeferred s (fun b =>
        b.act.backlog = s.blk.act.backlog.drop (16 - s.blk.act.done) ∧
        b.act.done = s.blk.act.done + min s.blk.act.backlog.length (16 - s.blk.act.done) ∧
        b.pos = s.blk.pos ∧ b.tim = s.blk.tim))

/-- Event lines. EO_SET and EO_CLR set and clear the written outputs' levels and end their pulses; a pulse that has run
its width clears its output; a level change at an input starts or ends its filter's hold, with the positions at its
crossing, and before the units run only its ball's level is kept (log entry 11, DESIGN CHOICE); a held level that is
accepted with capture enabled is captured with its time and position. -/
def Obligations.EventLines : Prop :=
  ∀ (s : State) (r : Requester) (val : Word) (k : Fin 16) (i : Fin 8) (level : Bool) (sub : Sub),
    (Writes r s →
      Ends (.eoSet r val) s (fun b =>
        (∀ j < 16, b.bit Reg.ACT_EO_LEVEL j = (s.blk.bit Reg.ACT_EO_LEVEL j || val.getLsbD j)) ∧
        (∀ j < 16, b.pulse j = if val.getLsbD j then none else s.blk.pulse j) ∧
        b.core = { s.blk with act := b.act }.core ∧ SameRegs s.blk b [Reg.ACT_EO_LEVEL]) ∧
      Ends (.eoClr r val) s (fun b =>
        (∀ j < 16, b.bit Reg.ACT_EO_LEVEL j = (s.blk.bit Reg.ACT_EO_LEVEL j && !val.getLsbD j)) ∧
        (∀ j < 16, b.pulse j = if val.getLsbD j then none else s.blk.pulse j) ∧
        b.core = { s.blk with act := b.act }.core ∧ SameRegs s.blk b [Reg.ACT_EO_LEVEL])) ∧
    (∀ p : Pulse, s.blk.unitsOn = true → s.blk.pulse k = some p → p.ends ≤ s.blk.inst.t16 →
      Ends (.eoPulseEnd k) s (fun b => b.bit Reg.ACT_EO_LEVEL k = false ∧ b.pulse k = none ∧
        (∀ j < 16, j ≠ k.val → b.bit Reg.ACT_EO_LEVEL j = s.blk.bit Reg.ACT_EO_LEVEL j ∧ b.pulse j = s.blk.pulse j) ∧
        b.core = { s.blk with act := b.act }.core ∧ SameRegs s.blk b [Reg.ACT_EO_LEVEL])) ∧
    Ends (.eventInputChange i level sub) s (fun b => (b.eiCh i).raw = level ∧
      (s.blk.unitsOn = true → (b.eiCh i).hold = if level = s.blk.bit Reg.ACT_EI_STAT i then none
        else some { level := level, cross := s.blk.instAt sub, due := s.blk.now + sub + s.blk.eiFilt }) ∧
      (s.blk.unitsOn = true → (b.eiCh i).at_ = (List.range 8).map fun n => (s.blk.ch n).at_ (s.blk.instAt sub).ref) ∧
      (s.blk.unitsOn = false → (b.eiCh i).hold = (s.blk.eiCh i).hold) ∧
      (∀ j, j ≠ i.val → b.eiCh j = s.blk.eiCh j) ∧
      b.core = { s.blk with act := b.act }.core ∧ SameRegs s.blk b []) ∧
    (∀ h : Hold, s.blk.unitsOn = true → s.blk.eiDue i true = some h →
      Ends (.eiEdge i) s (fun b => (b.eiCh i).hold = none ∧ b.bit Reg.ACT_EI_STAT i = h.level ∧
        b.bit Reg.ACT_EI_STAT (8 + i.val) = true ∧
        b.rd64 (Reg.ACT_EI_TIME_LO i) = BitVec.ofNat 64 h.cross.t1 ∧
        b.rd (Reg.ACT_EI_POS_LO i) = posLo ((s.blk.eiCh i).at_.getD (s.blk.fld Reg.ACT_EI_CTL 18 16) 0) ∧
        b.core = { s.blk with act := b.act, ports := b.ports, heads := b.heads }.core))

/-- Requests for a calibration run. A request for an unbound head reads CAUSE 10; one for a head without a run, or
waiting for a retry, makes a run pending with the requester's trigger; one during a run leaves its state, and REQ_FORCE
makes it forced. ABORT ends a run with CAUSE 10, STOP_RETRY a retry wait with RETRIES; RESTORE is refused during a run,
a switch or a digest and else digests the inactive bank. Age (all ones before any accepted run: log entry 58, DESIGN
CHOICE) and retry timer make a run pending by themselves. -/
def Obligations.CalibrationRequests : Prop :=
  ∀ (s : State) (r : Requester) (h : Hd),
    (∀ (c : Instr) (force : Bool), (c, force) ∈ [(Instr.req r h, false), (.reqForce r h, true)] → Writes r s →
      Ends c s (fun b =>
        (s.blk.bound h = false → b.fld (Reg.CAL_H_STAT h) 19 16 = 10 ∧ b.calState h = s.blk.calState h ∧
          b.core = s.blk.core) ∧
        (s.blk.bound h = true → s.blk.calState h = 0 ∨ s.blk.calState h = 9 →
          b.calState h = 1 ∧ b.fld (Reg.CAL_H_STAT h) 15 12 = calTrigger r ∧ (b.hd h).cal.pendAt = s.blk.now) ∧
        (s.blk.bound h = true → s.blk.calState h ≠ 0 → s.blk.calState h ≠ 9 → b.calState h = s.blk.calState h) ∧
        (s.blk.bound h = true → (b.hd h).cal.stopped = false ∧ (force = true → (b.hd h).cal.forced = true)) ∧
        b.core = { s.blk with heads := b.heads }.core ∧ SameRegs s.blk b [Reg.CAL_H_STAT h])) ∧
    (Writes .host s →
      (1 ≤ s.blk.calState h → s.blk.calState h ≤ 8 →
        Ends (.calAbort h) s (fun b => b.calState h = 0 ∧ b.fld (Reg.CAL_H_STAT h) 19 16 = 10 ∧
          (b.hd h).cal.retryAt = none ∧ b.bit (Reg.HD_BANK h) 3 = false ∧
          (s.blk.calState h = 7 → s.blk.bit (Reg.HD_BANK h) 3 = true → b.bit (Reg.HD_BANK h) 1 = false) ∧
          b.core = { s.blk with heads := b.heads, ports := b.ports, hbm := b.hbm, bad := b.bad }.core ∧
          SameRegs s.blk b [Reg.CAL_H_STAT h, Reg.HD_BANK h])) ∧
      (s.blk.calState h = 0 ∨ 9 ≤ s.blk.calState h →
        Ends (.calAbort h) s (fun b => b.core = s.blk.core ∧ SameRegs s.blk b [])) ∧
      Ends (.stopRetry h) s (fun b => (b.hd h).cal.retryAt = none ∧ b.fld (Reg.CAL_H_STAT h) 31 24 = 0 ∧
        b.calState h = (if s.blk.calState h = 9 then 0 else s.blk.calState h) ∧
        b.core = { s.blk with heads := b.heads }.core ∧ SameRegs s.blk b [Reg.CAL_H_STAT h]) ∧
      (s.blk.calState h ≠ 0 ∨ s.blk.bit (Reg.HD_BANK h) 2 = true ∨ s.blk.bit (Reg.HD_BANK h) 1 = true ∨
          s.blk.bit (Reg.HD_BANK h) 4 = true →
        Ends (.restore h) s (fun b => b.fld (Reg.CAL_H_STAT h) 23 20 = 3 ∧ b.core = s.blk.core ∧
          SameRegs s.blk b [Reg.CAL_H_STAT h])) ∧
      (s.blk.calState h = 0 → s.blk.bit (Reg.HD_BANK h) 2 = false → s.blk.bit (Reg.HD_BANK h) 1 = false →
        s.blk.bit (Reg.HD_BANK h) 4 = false →
        Ends (.restore h) s (fun b => b.bit (Reg.HD_BANK h) 4 = true ∧
          (b.hd h).dig = some { bank := !s.blk.activeBank h, dirty := false, restore := true } ∧
          b.core = { s.blk with heads := b.heads }.core ∧ SameRegs s.blk b [Reg.HD_BANK h]))) ∧
    (s.blk.unitsOn = true → s.blk.bit Reg.CAL_CTL 0 = true → s.blk.bound h = true → s.blk.calState h = 0 →
      (s.blk.hd h).cal.stopped = false →
      max 1 (s.blk.num Reg.CAL_RECAL_MAX) < (s.blk.calAge h).getD 0xFFFFFFFF →
      Ends (.calAgeTrigger h) s (fun b => b.calState h = 1 ∧ b.fld (Reg.CAL_H_STAT h) 15 12 = 2 ∧
        (b.hd h).cal.forced = s.blk.bit Reg.CAL_CTL 2 ∧
        b.core = { s.blk with heads := b.heads }.core ∧ SameRegs s.blk b [Reg.CAL_H_STAT h])) ∧
    (∀ t, s.blk.unitsOn = true → s.blk.calState h = 9 → s.blk.bit Reg.CAL_CTL 0 = true → s.blk.bound h = true →
      (s.blk.hd h).cal.retryAt = some t → t ≤ s.blk.now →
      Ends (.calRetryTimer h) s (fun b => b.calState h = 1 ∧ b.fld (Reg.CAL_H_STAT h) 15 12 = 7 ∧
        (b.hd h).cal.forced = (s.blk.hd h).cal.forced ∧ (b.hd h).cal.retryAt = none ∧
        b.core = { s.blk with heads := b.heads }.core ∧ SameRegs s.blk b [Reg.CAL_H_STAT h]))

/-- The record of pixel (x, y) that a calibration run writes, `cc` columns in a row (R226): that of the active bank with
the Δs of its result inside the window. -/
abbrev NewRecord (a : Block) (h cc y x : Nat) : Nat :=
  let wx := a.fld (Reg.HD_BIND h) 11 6 * 32
  let wy := a.fld (Reg.HD_BIND h) 21 12 * 2
  let old := a.hbmNum (bankAddr h (a.activeBank h) + (y * cc + x) * 16) 16
  calRecord old (if wx ≤ x ∧ x < wx + a.colsOf h ∧ wy ≤ y ∧ y < wy + a.rowsOf h then
    ((a.calRes h (dtOf (a.hd h).cal.tref (a.anchor h)) (x - wx) (y - wy)).newDs (a.snum (Reg.CAL_H_CMEAN h))).1 else none)

/-- A calibration run. A pending run that may start, before all others pending, waits for Class C, or is refused with
CAUSE 10 (unbound) or 11 (state area not usable) and counted; with the grant the run of the lowest head that waits
closes the shutter; after SETTLE it collects; an accepted run writes the inactive bank, which it owns, with every record
of the geometry, Δs and RCHK new inside the window, and leaves the active one as it is; after SETTLE_OPEN it has ended. -/
def Obligations.CalibrationRuns : Prop :=
  ∀ (s : State) (h : Hd), s.blk.unitsOn = true →
    (s.blk.calState h = 1 → s.blk.standby = false → s.blk.calMayStart h = true →
      (∀ g < 24, ¬(s.blk.calState g = 1 ∧ s.blk.calMayStart g = true ∧ s.blk.pendsBefore g h = true)) →
      Ends (.calRunStart h) s (fun b =>
        (s.blk.bound h = true → s.blk.tfBad h = false → b.calState h = 2 ∧ b.core = s.blk.core ∧
          SameRegs s.blk b [Reg.CAL_H_STAT h]) ∧
        (s.blk.bound h = false → b.fld (Reg.CAL_H_STAT h) 19 16 = 10 ∧
          b.fld (Reg.CAL_H_CNT h) 15 0 = min (s.blk.fld (Reg.CAL_H_CNT h) 15 0 + 1) 0xFFFF) ∧
        (s.blk.bound h = true → s.blk.tfBad h = true → b.fld (Reg.CAL_H_STAT h) 19 16 = 11 ∧
          b.fld (Reg.CAL_H_CNT h) 15 0 = min (s.blk.fld (Reg.CAL_H_CNT h) 15 0 + 1) 0xFFFF) ∧
        b.core = { s.blk with heads := b.heads, ports := b.ports, ldg := b.ldg }.core)) ∧
    (s.blk.mayCal h = true →
      Ends (.calGrant h) s (fun b => b.calState h = 3 ∧ (b.hd h).plane = none ∧ (b.hd h).cal.closed = true ∧
        b.bud = { s.blk.bud with calDone := true } ∧
        (s.blk.standby = false → ∃ c, (b.port h).queue = (s.blk.port h).queue ++ [c] ∧ c.opc = 0x03 ∧ c.payload = [1]) ∧
        b.core = { s.blk with heads := b.heads, ports := b.ports, bud := b.bud }.core ∧
        SameRegs s.blk b [Reg.CAL_H_STAT h, Reg.CAL_H_FRAMES h])) ∧
    (∀ t, (s.blk.hd h).cal.settleAt = some t → t ≤ s.blk.now →
      (s.blk.calState h = 4 →
        Ends (.calSettleEnd h) s (fun b => b.calState h = 5 ∧ (b.hd h).cal.settleAt = none ∧
          b.core = { s.blk with heads := b.heads, hbm := b.hbm, bad := b.bad }.core ∧
          SameRegs s.blk b [Reg.CAL_H_STAT h])) ∧
      (s.blk.calState h = 8 →
        Ends (.calOpenSettleEnd h) s (fun b =>
          b.calState h = (if (s.blk.hd h).cal.retryAt.isSome then 9 else 0) ∧ (b.hd h).cal.closed = false ∧
          b.core = { s.blk with heads := b.heads }.core ∧ SameRegs s.blk b [Reg.CAL_H_STAT h]))) ∧
    (s.blk.calState h = 6 → (s.blk.hd h).cal.pass = true → (s.blk.hd h).cal.written = false →
      s.blk.bit (Reg.HD_BANK h) 2 = false → s.blk.bit (Reg.HD_BANK h) 1 = false →
      Ends (.calBankWrite h) s (fun b => (b.hd h).cal.written = true ∧ b.bit (Reg.HD_BANK h) 3 = true ∧
        b.bit (Reg.HD_BANK h) (if s.blk.activeBank h then 5 else 6) = false ∧ b.activeBank h = s.blk.activeBank h ∧
        (∀ x, (s.blk.port h).hdr = some x → x.cols * x.rows * 16 ≤ 0x03000000 →
          ∀ a < x.cols * x.rows * 16,
            b.hbmByte (bankAddr h (s.blk.activeBank h) + a) = s.blk.hbmByte (bankAddr h (s.blk.activeBank h) + a)) ∧
        (∀ c, (s.blk.port h).hdr = some c → c.cols * c.rows * 16 ≤ 0x03000000 → ∀ y < c.rows, ∀ x < c.cols, ∀ k < 16,
          b.hbmByte (bankAddr h (!s.blk.activeBank h) + (y * c.cols + x) * 16 + k) =
            BitVec.ofNat 8 (NewRecord s.blk h c.cols y x / 256 ^ k)) ∧
        b.core = { s.blk with heads := b.heads, hbm := b.hbm, bad := b.bad }.core ∧
        SameRegs s.blk b [Reg.HD_BANK h, Reg.CAL_H_CNT2 h]))

/-- The Troek instructions that only compute: each writes its result to rd, which g0 discards, and goes on in the next
cycle, BUDG in the eighth; nothing else changes. That an instruction of several cycles gives its result as it issues,
and only the next issue is delayed, is log entry 60 (DESIGN CHOICE). -/
def Obligations.TroekComputes : Prop :=
  ∀ (s : State) (t : Thr) (rd ra rb : GReg) (imm : BitVec 16) (n : BitVec 6) (q : Fin 4) (c : Chan) (hwm : Bool),
    (∀ (i : Instr) (v : BitVec 64),
      (i, v) ∈ [
        (.add t rd ra rb, s.blk.greg t ra + s.blk.greg t rb),
        (.sub t rd ra rb, s.blk.greg t ra - s.blk.greg t rb),
        (.and t rd ra rb, s.blk.greg t ra &&& s.blk.greg t rb),
        (.or t rd ra rb, s.blk.greg t ra ||| s.blk.greg t rb),
        (.xor t rd ra rb, s.blk.greg t ra ^^^ s.blk.greg t rb),
        (.shl t rd ra rb, s.blk.greg t ra <<< ((s.blk.greg t rb).toNat % 64)),
        (.shr t rd ra rb, s.blk.greg t ra >>> ((s.blk.greg t rb).toNat % 64)),
        (.sar t rd ra rb, (s.blk.greg t ra).sshiftRight ((s.blk.greg t rb).toNat % 64)),
        (.mul t rd ra rb, s.blk.greg t ra * s.blk.greg t rb),
        (.slt t rd ra rb, if (s.blk.greg t ra).toInt < (s.blk.greg t rb).toInt then 1 else 0),
        (.sltu t rd ra rb, if (s.blk.greg t ra).toNat < (s.blk.greg t rb).toNat then 1 else 0),
        (.addi t rd ra imm, s.blk.greg t ra + imm.signExtend 64),
        (.andi t rd ra imm, s.blk.greg t ra &&& imm.setWidth 64),
        (.ori t rd ra imm, s.blk.greg t ra ||| imm.setWidth 64),
        (.xori t rd ra imm, s.blk.greg t ra ^^^ imm.setWidth 64),
        (.slti t rd ra imm, if (s.blk.greg t ra).toInt < imm.toInt then 1 else 0),
        (.shli t rd ra n, s.blk.greg t ra <<< n.toNat),
        (.shri t rd ra n, s.blk.greg t ra >>> n.toNat),
        (.sari t rd ra n, (s.blk.greg t ra).sshiftRight n.toNat),
        (.ins t rd q imm, BitVec.ofNat 64 ((s.blk.greg t rd).toNat -
          (s.blk.greg t rd).toNat / 2 ^ (16 * q.val) % 2 ^ 16 * 2 ^ (16 * q.val) + imm.toNat * 2 ^ (16 * q.val))),
        (.time t rd, s.blk.tim.ns),
        (.pos t rd c hwm, (if hwm then s.blk.hwmNow c else s.blk.posNow c).signExtend 64)] →
      Issues t i s →
      Ends i s fun b => Result s.blk b t rd v ∧ GoesOn s.blk b t (s.blk.tPc t + 1) 1 ∧ OnlyThread s.blk b t []) ∧
    (Issues t (.nop t) s →
      Ends (.nop t) s fun b => (∀ r, b.greg t r = s.blk.greg t r) ∧ GoesOn s.blk b t (s.blk.tPc t + 1) 1 ∧
        OnlyThread s.blk b t []) ∧
    (Issues t (.budg t rd) s →
      Ends (.budg t rd) s fun b => Result s.blk b t rd s.blk.budget ∧ GoesOn s.blk b t (s.blk.tPc t + 1) 8 ∧
        OnlyThread s.blk b t [])

/-- Troek control flow: a branch goes to PC + 1 + off16 where its condition holds, else on to PC + 1; J, JAL and JR go
to their target, JAL with the return address in rd; HALT halts with PC on the next instruction; a word that is no
instruction faults with cause 1 and the word in FADDR. -/
def Obligations.TroekControlFlow : Prop :=
  ∀ (s : State) (t : Thr) (rd ra rb : GReg) (off : BitVec 16) (target : BitVec 14),
    (∀ (i : Instr) (taken : Prop),
      (i, taken) ∈ [
        (Instr.beq t ra rb off, s.blk.greg t ra = s.blk.greg t rb),
        (.bne t ra rb off, s.blk.greg t ra ≠ s.blk.greg t rb),
        (.blt t ra rb off, (s.blk.greg t ra).toInt < (s.blk.greg t rb).toInt),
        (.bge t ra rb off, (s.blk.greg t rb).toInt ≤ (s.blk.greg t ra).toInt),
        (.bltu t ra rb off, (s.blk.greg t ra).toNat < (s.blk.greg t rb).toNat),
        (.bgeu t ra rb off, (s.blk.greg t rb).toNat ≤ (s.blk.greg t ra).toNat)] →
      Issues t i s →
      Ends i s fun b => (∀ r, b.greg t r = s.blk.greg t r) ∧
        (taken → GoesOn s.blk b t (((s.blk.tPc t : Int) + 1 + off.toInt) % 2 ^ 14).toNat 1) ∧
        (¬taken → GoesOn s.blk b t (s.blk.tPc t + 1) 1) ∧ OnlyThread s.blk b t []) ∧
    (Issues t (.j t target) s →
      Ends (.j t target) s fun b => (∀ r, b.greg t r = s.blk.greg t r) ∧ GoesOn s.blk b t target.toNat 1 ∧
        OnlyThread s.blk b t []) ∧
    (Issues t (.jal t rd target) s →
      Ends (.jal t rd target) s fun b => Result s.blk b t rd (BitVec.ofNat 64 (s.blk.tPc t + 1)) ∧
        GoesOn s.blk b t target.toNat 1 ∧ OnlyThread s.blk b t []) ∧
    (Issues t (.jr t ra) s →
      Ends (.jr t ra) s fun b => (∀ r, b.greg t r = s.blk.greg t r) ∧
        GoesOn s.blk b t ((s.blk.greg t ra).toNat % 2 ^ 14) 1 ∧ OnlyThread s.blk b t []) ∧
    (Issues t (.halt t) s →
      Ends (.halt t) s fun b => b.tState t = 0 ∧ b.tPc t = (s.blk.tPc t + 1) % 2 ^ 14 ∧
        (∀ r, b.greg t r = s.blk.greg t r) ∧ OnlyThread s.blk b t [Reg.SEQ_STAT]) ∧
    (s.blk.canIssue t = true → s.blk.instrAt t = none →
      Ends (.illegalOpcode t) s fun b => Faulted s.blk b t 1 (s.blk.fetch t))

/-- Troek memory instructions. A load of an aligned address in data memory gives the bytes zero-extended; a store writes
the register's low bytes there and no others, but for those that a later thread of the same cycle has written, and what
a read in that cycle gives is as it was; LDC and LDCD give registers, the pair's HI word as the LO read leaves it; STC
writes a register in its last cycle (that loads read as they issue and STC acts in its last cycle is log entry 60,
DESIGN CHOICE); each stalls on a ledger hold; an address outside the space or not aligned faults with cause 3 (data
memory) or 2 (control space), an uncorrectable word of data memory with cause 3, and the register of the address in
FADDR (for LDCD log entry 92, DEDUCED). -/
def Obligations.TroekMemory : Prop :=
  ∀ (s : State) (t : Thr) (rd ra : GReg) (imm : BitVec 16) (a : BitVec 64), s.blk.greg t ra + imm.signExtend 64 = a →
    (∀ (i : Instr) (n : Nat), (i, n) ∈ [(Instr.ld t rd ra imm, 8), (.ldw t rd ra imm, 4)] → Issues t i s →
      (a.toNat < 0x10000 → a.toNat % n = 0 → s.blk.dmemSpoilt a.toNat n = false →
        Ends i s fun b => Result s.blk b t rd (BitVec.ofNat 64 (s.blk.dmemNum a.toNat n)) ∧
          GoesOn s.blk b t (s.blk.tPc t + 1) 2 ∧ OnlyThread s.blk b t []) ∧
      (0x10000 ≤ a.toNat ∨ a.toNat % n ≠ 0 ∨ s.blk.dmemSpoilt a.toNat n = true →
        Ends i s fun b => Faulted s.blk b t 3 (a.setWidth 32))) ∧
    (∀ (i : Instr) (n : Nat), (i, n) ∈ [(Instr.st t rd ra imm, 8), (.stw t rd ra imm, 4)] → Issues t i s →
      (a.toNat < 0x10000 → a.toNat % n = 0 →
        Ends i s fun b =>
          (∀ k < n, (∀ y, s.blk.seq.dmemOld.get (fun _ => none) (a.toNat + k) = some y → y.2 ≤ 1 + t.val) →
            b.seq.dmem.get (fun _ => 0) (a.toNat + k) = BitVec.ofNat 8 ((s.blk.greg t rd).toNat / 256 ^ k)) ∧
          (∀ k < n, ∀ y, s.blk.seq.dmemOld.get (fun _ => none) (a.toNat + k) = some y → 1 + t.val < y.2 →
            b.seq.dmem.get (fun _ => 0) (a.toNat + k) = s.blk.seq.dmem.get (fun _ => 0) (a.toNat + k)) ∧
          (∀ x, b.dmemRead x = s.blk.dmemRead x) ∧
          (∀ x, x < a.toNat ∨ a.toNat + n ≤ x → b.seq.dmem.get (fun _ => 0) x = s.blk.seq.dmem.get (fun _ => 0) x) ∧
          (∀ r, b.greg t r = s.blk.greg t r) ∧ GoesOn s.blk b t (s.blk.tPc t + 1) 1 ∧
          b.dmemSpoilt a.toNat n = false ∧
          b.core = { s.blk with seq := { s.blk.seq with
            thr := b.seq.thr, dmem := b.seq.dmem, dmemOld := b.seq.dmemOld }, bad := b.bad }.core ∧
          SameRegs s.blk b [Reg.SEQ_T_STAT t]) ∧
      (0x10000 ≤ a.toNat ∨ a.toNat % n ≠ 0 → Ends i s fun b => Faulted s.blk b t 3 (a.setWidth 32))) ∧
    (Issues t (.ldc t rd ra imm) s →
      (ctrlBad a = false → s.blk.readHeld a.toNat = false →
        Ends (.ldc t rd ra imm) s fun b => Result s.blk b t rd ((s.blk.readReg s.prev (.thread t) a.toNat).setWidth 64) ∧
          GoesOn s.blk b t (s.blk.tPc t + 1) 8 ∧ (s.blk.journalLost a.toNat = false → b.ldg = s.blk.ldg) ∧
          b.core = { s.blk with seq := { s.blk.seq with thr := b.seq.thr }, shadow := b.shadow, ldg := b.ldg }.core) ∧
      (ctrlBad a = false → s.blk.readHeld a.toNat = true →
        Ends (.ldc t rd ra imm) s fun b => (b.thr t).stall = some (.hold (.ldc t rd ra imm) (s.blk.now + s.blk.ltmo)) ∧
          b.tPc t = s.blk.tPc t ∧ .thread t ∈ b.ldg.held ∧ b.fld (Reg.SEQ_T_STAT t) 6 4 = 4) ∧
      (ctrlBad a = true → Ends (.ldc t rd ra imm) s fun b => Faulted s.blk b t 2 (a.setWidth 32))) ∧
    (Issues t (.ldcd t rd ra imm) s →
      (ctrlBad a = false → ctrlBad (a + 4) = false → s.blk.readHeld a.toNat = false →
        s.blk.readHeld (a.toNat + 4) = false →
        Ends (.ldcd t rd ra imm) s fun b =>
          Result s.blk b t rd (u64 (s.blk.readReg s.prev (.thread t) a.toNat)
            ((sampleRead s.prev (.thread t) a.toNat s.blk).readReg s.prev (.thread t) (a.toNat + 4))) ∧
          GoesOn s.blk b t (s.blk.tPc t + 1) 10 ∧
          (s.blk.journalLost a.toNat = false → s.blk.journalLost (a.toNat + 4) = false → b.ldg = s.blk.ldg) ∧
          b.core = { s.blk with seq := { s.blk.seq with thr := b.seq.thr }, shadow := b.shadow, ldg := b.ldg }.core) ∧
      (ctrlBad a = false → ctrlBad (a + 4) = false → s.blk.readHeld a.toNat = true ∨ s.blk.readHeld (a.toNat + 4) = true →
        Ends (.ldcd t rd ra imm) s fun b => (b.thr t).stall = some (.hold (.ldcd t rd ra imm) (s.blk.now + s.blk.ltmo)) ∧
          b.tPc t = s.blk.tPc t ∧ .thread t ∈ b.ldg.held ∧ b.fld (Reg.SEQ_T_STAT t) 6 4 = 4) ∧
      (ctrlBad a = true ∨ ctrlBad (a + 4) = true →
        Ends (.ldcd t rd ra imm) s fun b => Faulted s.blk b t 2 (a.setWidth 32))) ∧
    (s.blk.issuesLate t (.stc t rd ra imm) = true →
      (a.toNat ∈ [Reg.GLB_IEN, Reg.GLB_BADACC, Reg.TIM_STEP, Reg.TIM_STAT, Reg.TIM_CNT, Reg.VRD_CNT_A] ∨
          (∃ n : Fin 8, a.toNat = Reg.POS_FILT n.val) ∨ (∃ p : Fin 26, a.toNat = Reg.PL_RES p.val) →
        s.blk.standby = false →
        Ends (.stc t rd ra imm) s fun b =>
          b.rd a.toNat = written a.toNat (s.blk.rd a.toNat) (s.blk.upd a.toNat) ((s.blk.greg t rd).setWidth 32) ∧
          (∀ r, b.greg t r = s.blk.greg t r) ∧ GoesOn s.blk b t (s.blk.tPc t + 1) 1 ∧ OnlyThread s.blk b t [a.toNat]) ∧
      (inLedger a.toNat = true → a.toNat % 4 = 0 → s.blk.writeHeld a.toNat = true →
        Ends (.stc t rd ra imm) s fun b => (b.thr t).stall = some (.hold (.stc t rd ra imm) (s.blk.now + s.blk.ltmo)) ∧
          b.tPc t = s.blk.tPc t ∧ .thread t ∈ b.ldg.held ∧ b.fld (Reg.SEQ_T_STAT t) 6 4 = 4) ∧
      (ctrlBad a = true → Ends (.stc t rd ra imm) s fun b => Faulted s.blk b t 2 (a.setWidth 32)))

/-- Waits and wakes. A WAITT or WAITE whose condition or deadline holds ends with its answer and consumes its wake bits,
the next instruction issuing in the second cycle; else the thread waits, or halts on it under STEP, and resumes once it
holds. WAITP waits for the test of its tick, which TIME_TICK makes as the tick ends: it resumes the thread, halts it
under STEP, or leaves it waiting. WAITT answers how far past its time the clock is; WAITP 0 at its mark, 1 at its
deadline; WAITE the bits that hit, of the wake bits, of the event inputs at 1 (S = 1) or at 0 (S = 2), and 0x100 at its
deadline; only wake bits are consumed. SIG and WAKESET set wake bits. -/
def Obligations.TroekWaits : Prop :=
  ∀ (s : State) (t : Thr) (rd ra rb : GReg) (c : Chan) (sel : BitVec 3) (m bits : Byte) (r : Requester),
    (∀ (i : Instr), i ∈ [Instr.waitt t rd ra, .waite t rd rb sel m] →
      (Issues t i s →
        (∀ v, s.blk.waitMet i = some v →
          Ends i s fun b => Result s.blk b t rd v.1 ∧ GoesOn s.blk b t (s.blk.tPc t + 1) 2 ∧
            b.rd (Reg.SEQ_T_WAKE t) = s.blk.rd (Reg.SEQ_T_WAKE t) &&& ~~~ BitVec.ofNat 32 v.2 ∧
            OnlyThread s.blk b t [Reg.SEQ_T_WAKE t]) ∧
        (s.blk.waitMet i = none → (s.blk.thr t).stepping = false →
          Ends i s fun b => b.tState t = 2 ∧ (b.thr t).wait = some i ∧ b.tPc t = s.blk.tPc t ∧
            b.fld (Reg.SEQ_T_STAT t) 6 4 = (waitDest i).2 ∧ (∀ r, b.greg t r = s.blk.greg t r) ∧
            OnlyThread s.blk b t [Reg.SEQ_STAT]) ∧
        (s.blk.waitMet i = none → (s.blk.thr t).stepping = true →
          Ends i s fun b => b.tState t = 0 ∧ b.tPc t = s.blk.tPc t ∧ (∀ r, b.greg t r = s.blk.greg t r) ∧
            OnlyThread s.blk b t [Reg.SEQ_STAT])) ∧
      (s.blk.seqOn = true → s.blk.tState t = 2 → (s.blk.thr t).wait = some i → (s.blk.thr t).stall = none →
        (∀ v, s.blk.waitMet i = some v →
          Ends (.waitResume t) s fun b => Result s.blk b t rd v.1 ∧ GoesOn s.blk b t (s.blk.tPc t + 1) 2 ∧
            (b.thr t).wait = none ∧ OnlyThread s.blk b t [Reg.SEQ_T_WAKE t, Reg.SEQ_STAT]) ∧
        (s.blk.waitMet i = none → Ends (.waitResume t) s fun b => b.core = s.blk.core ∧ SameRegs s.blk b []))) ∧
    (∀ (i : Instr), i = .waitp t rd ra rb c →
      (Issues t i s →
        Ends i s fun b => b.tState t = 2 ∧ (b.thr t).wait = some i ∧ b.tPc t = s.blk.tPc t ∧
          b.fld (Reg.SEQ_T_STAT t) 6 4 = 2 ∧ (∀ r, b.greg t r = s.blk.greg t r) ∧ OnlyThread s.blk b t [Reg.SEQ_STAT]) ∧
      (s.blk.seqOn = true → s.blk.tState t = 2 → (s.blk.thr t).wait = some i → s.blk.pair.handAt = none → s.blk.standby = false →
        ∀ votes sramCe hbmCe upsets,
        ∃ u, exec (.timeTick votes sramCe hbmCe upsets) s = .next u ∧
          (∀ v, s.blk.waitMet i = some v → Result s.blk u.blk t rd v.1 ∧ u.blk.tPc t = (s.blk.tPc t + 1) % 2 ^ 14 ∧
            u.blk.tState t = 1 ∧ (u.blk.thr t).wait = none ∧ (u.blk.thr t).ready = s.blk.now + 64) ∧
          (s.blk.waitMet i = none → (s.blk.thr t).stepping = false → u.blk.tState t = 2 ∧ (u.blk.thr t).wait = some i) ∧
          (s.blk.waitMet i = none → (s.blk.thr t).stepping = true → u.blk.tState t = 0 ∧ u.blk.tPc t = s.blk.tPc t)) ∧
      ((s.blk.thr t).wait = some i → Ends (.waitResume t) s fun b => b.core = s.blk.core ∧ SameRegs s.blk b [])) ∧
    (s.blk.waitMet (.waitt t rd ra) =
      if (s.blk.greg t ra).toNat ≤ s.blk.ns then some (s.blk.tim.ns - s.blk.greg t ra, 0) else none) ∧
    (0 ≤ posDiff (s.blk.hwmNow c) ((s.blk.greg t ra).setWidth 48) →
      s.blk.waitMet (.waitp t rd ra rb c) = some (0, 0)) ∧
    (posDiff (s.blk.hwmNow c) ((s.blk.greg t ra).setWidth 48) < 0 →
      s.blk.waitMet (.waitp t rd ra rb c) =
        if rb ≠ 0 ∧ (s.blk.greg t rb).toNat ≤ s.blk.ns then some (1, 0) else none) ∧
    (∀ (hit : Byte),
      hit = m &&& BitVec.ofNat 8 (if sel = 1 ∨ sel = 2 then s.blk.fld Reg.ACT_EI_STAT 7 0 ^^^ (if sel = 2 then 0xFF else 0)
        else s.blk.fld (Reg.SEQ_T_WAKE t) 7 0) →
      s.blk.waitMet (.waite t rd rb sel m) =
        if hit ≠ 0 then some (hit.setWidth 64, if sel = 1 ∨ sel = 2 then 0 else hit.toNat)
        else if rb ≠ 0 ∧ (s.blk.greg t rb).toNat ≤ s.blk.ns then some (0x100, 0) else none) ∧
    (Issues t (.sig t ra bits) s →
      Ends (.sig t ra bits) s fun b =>
        b.rd (Reg.SEQ_T_WAKE ((s.blk.greg t ra).toNat % 4)) =
          s.blk.rd (Reg.SEQ_T_WAKE ((s.blk.greg t ra).toNat % 4)) ||| bits.setWidth 32 ∧
        (∀ r, b.greg t r = s.blk.greg t r) ∧ GoesOn s.blk b t (s.blk.tPc t + 1) 1 ∧
        OnlyThread s.blk b t [Reg.SEQ_T_WAKE ((s.blk.greg t ra).toNat % 4)]) ∧
    (Writes r s →
      Ends (.wakeset r t bits) s fun b =>
        b.rd (Reg.SEQ_T_WAKE t) = s.blk.rd (Reg.SEQ_T_WAKE t) ||| bits.setWidth 32 ∧ b.core = s.blk.core ∧
        SameRegs s.blk b [Reg.SEQ_T_WAKE t])

/-- Troek instructions on the units. ARM takes the lowest free entry below SPLIT, a position key being ra[47:0], and
answers its number, -1 with none free, -2 where the arm is refused; CANA answers 0 where it frees an armed entry, 1
where there is none, 2 at or above SPLIT; BIND answers the admission code, 4 for no head; UNBIND 1 for an unbound head,
2 where one is pending, else 0; TEMP waits for an evaluation; LWR answers 1 for a bad length or kind, 2 without room,
and else waits for its write; LOG queues an entry and answers 0, also where the queue is full and the entry is dropped
and counted, or 1 where the rate rule drops it. The choices: LWR's test for room (log entry 64, DEDUCED), BIND and
UNBIND evaluated as they issue (113, DESIGN CHOICE), ARM and CANA acting in their last cycle (60, DESIGN CHOICE). The
codes of BIND are those of Binding. -/
def Obligations.TroekUnits : Prop :=
  ∀ (s : State) (t : Thr) (rd ra rb : GReg) (imm : BitVec 16) (w : Word), (s.blk.greg t rb).setWidth 32 = w →
    (s.blk.issuesLate t (.arm t rd ra rb) = true →
      (s.blk.freeEntry 0 s.blk.split = none →
        Ends (.arm t rd ra rb) s fun b => Result s.blk b t rd (-1) ∧ GoesOn s.blk b t (s.blk.tPc t + 1) 1 ∧
          OnlyThread s.blk b t []) ∧
      (∀ e, s.blk.freeEntry 0 s.blk.split = some e →
        Ends (.arm t rd ra rb) s fun b => GoesOn s.blk b t (s.blk.tPc t + 1) 1 ∧
          (actOk (w &&& 0x001F07FF) ((s.blk.greg t rb >>> 32).setWidth 24) = true →
            Result s.blk b t rd (BitVec.ofNat 64 e) ∧
            (b.actE e).key = (if w.getLsbD 4 then ((s.blk.greg t ra).setWidth 48).setWidth 64 else s.blk.greg t ra) ∧
            (b.actE e).ctrl = w &&& 0x001F07FF ∧ (b.actE e).arg = (s.blk.greg t rb >>> 32).setWidth 24 ∧
            (b.actE e).writer = t.val + 1) ∧
          (actOk (w &&& 0x001F07FF) ((s.blk.greg t rb >>> 32).setWidth 24) = false →
            Result s.blk b t rd (-2) ∧ b.act = s.blk.act) ∧
          b.core = { s.blk with seq := { s.blk.seq with thr := b.seq.thr }, act := b.act, bad := b.bad }.core)) ∧
    (s.blk.issuesLate t (.cana t rd ra) = true →
      Ends (.cana t rd ra) s fun b => GoesOn s.blk b t (s.blk.tPc t + 1) 1 ∧
        (∀ e, (s.blk.greg t ra).toNat % 4096 = e →
          (s.blk.split ≤ e → Result s.blk b t rd 2 ∧ b.act = s.blk.act) ∧
          (e < s.blk.split → (s.blk.actE e).st ≠ 1 → Result s.blk b t rd 1 ∧ b.act = s.blk.act) ∧
          (e < s.blk.split → (s.blk.actE e).st = 1 → Result s.blk b t rd 0 ∧ (b.actE e).st = 0)) ∧
        b.core = { s.blk with seq := { s.blk.seq with thr := b.seq.thr }, act := b.act, vrd := b.vrd }.core) ∧
    (Issues t (.bind t rd ra rb) s →
      Ends (.bind t rd ra rb) s fun b => GoesOn s.blk b t (s.blk.tPc t + 1) 8 ∧ Aside { s.blk with seq := b.seq } b ∧
        (23 < (s.blk.greg t ra).toNat → Result s.blk b t rd 4 ∧ OnlyThread s.blk b t []) ∧
        (∀ h : Hd, (s.blk.greg t ra).toNat = h.val →
          Result s.blk b t rd (BitVec.ofNat 64
            (admission h (fieldOf w 4 0) (fieldOf w 11 6) (fieldOf w 21 12) s.blk)) ∧
          (admission h (fieldOf w 4 0) (fieldOf w 11 6) (fieldOf w 21 12) s.blk = 0 →
            b.bound h = true ∧ b.curPipe h = fieldOf w 4 0))) ∧
    (Issues t (.unbind t rd ra) s →
      Ends (.unbind t rd ra) s fun b => GoesOn s.blk b t (s.blk.tPc t + 1) 8 ∧ Aside { s.blk with seq := b.seq } b ∧
        (23 < (s.blk.greg t ra).toNat → Result s.blk b t rd 1 ∧ OnlyThread s.blk b t []) ∧
        (∀ h : Hd, (s.blk.greg t ra).toNat = h.val →
          (s.blk.bound h = false → Result s.blk b t rd 1 ∧ OnlyThread s.blk b t []) ∧
          (s.blk.bound h = true → s.blk.bit (Reg.HD_BIND h) 30 = true → Result s.blk b t rd 2 ∧
            OnlyThread s.blk b t []) ∧
          (s.blk.bound h = true → s.blk.bit (Reg.HD_BIND h) 30 = false → Result s.blk b t rd 0 ∧
            b.bound h = s.blk.frameOpen h))) ∧
    (Issues t (.temp t rd) s →
      Ends (.temp t rd) s fun b => (b.thr t).stall = some (.temp rd) ∧ b.tState t = 1 ∧ b.tPc t = s.blk.tPc t ∧
        b.bud.evalAt.isSome = true ∧ b.bit Reg.THM_STAT 5 = (s.blk.bud.evalAt.isNone || s.blk.bit Reg.THM_STAT 5) ∧
        b.core = { s.blk with seq := { s.blk.seq with thr := b.seq.thr }, bud := b.bud }.core) ∧
    (Issues t (.lwr t rd ra rb) s →
      ∀ (a len kind : Nat), (s.blk.greg t ra).toNat = a → (s.blk.greg t rb).toNat % 65536 = len →
        (s.blk.greg t rb).toNat / 65536 % 256 = kind →
        (65536 ≤ a ∨ a % 8 ≠ 0 →
          Ends (.lwr t rd ra rb) s fun b => Faulted s.blk b t 3 ((s.blk.greg t ra).setWidth 32)) ∧
        (a < 65536 → a % 8 = 0 → len = 0 ∨ 512 < len ∨ kind < 0x80 ∨ 0xBF < kind →
          Ends (.lwr t rd ra rb) s fun b => Result s.blk b t rd 1 ∧ GoesOn s.blk b t (s.blk.tPc t + 1) 8 ∧
            OnlyThread s.blk b t []) ∧
        (a < 65536 → a % 8 = 0 → 1 ≤ len → len ≤ 512 → 0x80 ≤ kind → kind ≤ 0xBF →
          65536 < a + len ∨ s.blk.dmemSpoilt a len = true →
          Ends (.lwr t rd ra rb) s fun b => Faulted s.blk b t 3 ((s.blk.greg t ra).setWidth 32)) ∧
        (a < 65536 → a + len ≤ 65536 → a % 8 = 0 → 1 ≤ len → len ≤ 512 → 0x80 ≤ kind → kind ≤ 0xBF →
          s.blk.dmemSpoilt a len = false →
          (userBytes (BitVec.ofNat 8 kind) (s.blk.dmemReads a len) 1 s.blk).1 = none →
          Ends (.lwr t rd ra rb) s fun b => Result s.blk b t rd 2 ∧ GoesOn s.blk b t (s.blk.tPc t + 1) 8 ∧
            OnlyThread s.blk b t []) ∧
        (a < 65536 → a + len ≤ 65536 → a % 8 = 0 → 1 ≤ len → len ≤ 512 → 0x80 ≤ kind → kind ≤ 0xBF →
          s.blk.dmemSpoilt a len = false →
          (userBytes (BitVec.ofNat 8 kind) (s.blk.dmemReads a len) 1 s.blk).1 ≠ none →
          Ends (.lwr t rd ra rb) s fun b => (b.thr t).stall = some (.lwr rd (some (s.blk.now + s.blk.ltmo))) ∧
            b.ldg.queue = s.blk.ldg.queue ++
              [.user t (BitVec.ofNat 8 kind) (s.blk.dmemReads a len)] ∧
            b.tPc t = s.blk.tPc t ∧ b.fld (Reg.SEQ_T_STAT t) 6 4 = 4)) ∧
    (Issues t (.log t rd ra imm) s →
      (∀ a, (s.blk.greg t ra).toNat = a →
        (a % 8 ≠ 0 ∨ 65536 < a + 32 ∨ s.blk.dmemSpoilt a 32 = true →
          Ends (.log t rd ra imm) s fun b => Faulted s.blk b t 3 ((s.blk.greg t ra).setWidth 32)) ∧
        (a % 8 = 0 → a + 32 ≤ 65536 → s.blk.dmemSpoilt a 32 = false → imm.getLsbD 0 = false → s.blk.logTooSoon = true →
          Ends (.log t rd ra imm) s fun b => Result s.blk b t rd 1 ∧ GoesOn s.blk b t (s.blk.tPc t + 1) 8 ∧
            b.fld Reg.SEQ_CNT 15 0 = min (s.blk.fld Reg.SEQ_CNT 15 0 + 1) 0xFFFF ∧
            OnlyThread s.blk b t [Reg.SEQ_CNT]) ∧
        (a % 8 = 0 → a + 32 ≤ 65536 → s.blk.dmemSpoilt a 32 = false → imm.getLsbD 0 = true ∨ s.blk.logTooSoon = false →
          s.blk.ldg.queue.length < 32 →
          Ends (.log t rd ra imm) s fun b => Result s.blk b t rd 0 ∧ GoesOn s.blk b t (s.blk.tPc t + 1) 8 ∧
            b.ldg.queue = s.blk.ldg.queue ++
              [.log (BitVec.ofNat 16 (ofLe ((s.blk.dmemReads a 32).take 2)))
                (BitVec.ofNat 8 (2 + t.val)) (imm.getLsbD 0) (BitVec.ofNat 64 s.blk.ns)
                (((s.blk.dmemReads a 32).drop 16).take 12)]) ∧
        (a % 8 = 0 → a + 32 ≤ 65536 → s.blk.dmemSpoilt a 32 = false → imm.getLsbD 0 = true ∨ s.blk.logTooSoon = false →
          32 ≤ s.blk.ldg.queue.length →
          Ends (.log t rd ra imm) s fun b => Result s.blk b t rd 0 ∧ GoesOn s.blk b t (s.blk.tPc t + 1) 8 ∧
            b.fld Reg.LDG_CNT_B 31 16 = min (s.blk.fld Reg.LDG_CNT_B 31 16 + 1) 0xFFFF ∧
            OnlyThread s.blk b t [Reg.LDG_CNT_B])))

/-- Threads. START runs a halted or faulted thread from its entry, RESUME and STEP a halted one from its PC; STOP halts
a waiting thread at once and a running one after the instruction it has in progress; TRESET halts it and zeroes its
registers; a ledger hold that lasts longer than LTMO faults with cause 4. SAVE queues the standing program's record
(LEN, ENTRY, zeros and the instructions), ERASE an empty one, and SAVE_BUSY clears when it has been written; one with a
bad LEN or ENTRY only sets SAVE_FAIL, and one made meanwhile is discarded. STOP acting on the instruction in progress is
log entry 61, the mark of STEP log entry 62 (both DESIGN CHOICE). -/
def Obligations.Threads : Prop :=
  ∀ (s : State) (t : Thr),
    (Writes .host s →
      (s.blk.seqOn = true → s.blk.tState t = 0 ∨ s.blk.tState t = 3 →
        Ends (.threadStart t) s fun b => b.tState t = 1 ∧ b.tPc t = s.blk.fld (Reg.SEQ_T_ENTRY t) 13 0 ∧
          (b.thr t).ready = s.blk.now + 32 ∧ (∀ r, b.greg t r = s.blk.greg t r) ∧ OnlyThread s.blk b t [Reg.SEQ_STAT]) ∧
      (∀ (c : Instr) (step : Bool), (c, step) ∈ [(Instr.resume t, false), (.threadStep t, true)] →
        s.blk.seqOn = true → s.blk.tState t = 0 →
        Ends c s fun b => b.tState t = 1 ∧ b.tPc t = s.blk.tPc t ∧ (b.thr t).stepping = step ∧
          (b.thr t).ready = s.blk.now + 32 ∧ (∀ r, b.greg t r = s.blk.greg t r) ∧ OnlyThread s.blk b t [Reg.SEQ_STAT]) ∧
      Ends (.stop t) s (fun b => (s.blk.tState t = 2 → b.tState t = 0) ∧
        (s.blk.tState t = 0 ∨ s.blk.tState t = 3 → b.tState t = s.blk.tState t ∧ b.core = s.blk.core) ∧
        (s.blk.tState t = 1 → (s.blk.thr t).stall = none → s.blk.now < (s.blk.thr t).ready →
          b.tState t = 1 ∧ (b.thr t).halting = true) ∧
        (s.blk.tState t = 1 → (s.blk.thr t).stall ≠ none ∨ (s.blk.thr t).ready ≤ s.blk.now ∧ (s.blk.thr t).late ≠ none →
          b.tState t = 1 ∧ (b.thr t).stepping = true) ∧
        (s.blk.tState t = 1 → (s.blk.thr t).stall = none → (s.blk.thr t).late = none → (s.blk.thr t).ready ≤ s.blk.now →
          b.tState t = 0) ∧
        b.tPc t = s.blk.tPc t ∧ (∀ r, b.greg t r = s.blk.greg t r) ∧ OnlyThread s.blk b t [Reg.SEQ_STAT]) ∧
      Ends (.treset t) s (fun b => b.tState t = 0 ∧ b.tPc t = s.blk.fld (Reg.SEQ_T_ENTRY t) 13 0 ∧
        (∀ r, b.greg t r = 0) ∧ b.fld (Reg.SEQ_T_WAKE t) 7 0 = 0 ∧
        SameRegs s.blk b [Reg.SEQ_T_STAT t, Reg.SEQ_STAT, Reg.SEQ_T_WAKE t]) ∧
      (s.blk.bit Reg.SEQ_STAT 11 = false →
        (1 ≤ s.blk.fld Reg.SEQ_SP 13 0 → s.blk.fld Reg.SEQ_SP 13 0 ≤ 12288 →
          s.blk.fld Reg.SEQ_SP 29 16 < s.blk.fld Reg.SEQ_SP 13 0 →
          Ends .save s fun b => b.bit Reg.SEQ_STAT 11 = true ∧
            (∃ body : List Byte, b.ldg.queue = s.blk.ldg.queue ++ [.twin 0x30 0 body] ∧
              body.length = 8 + 4 * s.blk.fld Reg.SEQ_SP 13 0 ∧
              body.take 8 = leBytes 2 (s.blk.fld Reg.SEQ_SP 13 0) ++ leBytes 2 (s.blk.fld Reg.SEQ_SP 29 16) ++ [0, 0, 0, 0] ∧
              ∀ i < s.blk.fld Reg.SEQ_SP 13 0, ∀ k < 4, body.getD (8 + 4 * i + k) 0 =
                BitVec.ofNat 8 ((s.blk.seq.imem.get (fun _ => 0) i).toNat / 256 ^ k)) ∧
            b.core = { s.blk with ldg := b.ldg }.core ∧ SameRegs s.blk b [Reg.SEQ_STAT, Reg.LDG_CNT_C]) ∧
        (s.blk.fld Reg.SEQ_SP 13 0 = 0 ∨ 12288 < s.blk.fld Reg.SEQ_SP 13 0 ∨
            s.blk.fld Reg.SEQ_SP 13 0 ≤ s.blk.fld Reg.SEQ_SP 29 16 →
          Ends .save s fun b => b.bit Reg.SEQ_STAT 12 = true ∧ b.core = s.blk.core ∧
            SameRegs s.blk b [Reg.SEQ_STAT]) ∧
        Ends .erase s (fun b => b.bit Reg.SEQ_STAT 11 = true ∧
          b.ldg.queue = s.blk.ldg.queue ++ [.twin 0x30 0 []] ∧
          b.core = { s.blk with ldg := b.ldg }.core ∧ SameRegs s.blk b [Reg.SEQ_STAT, Reg.LDG_CNT_C]))) ∧
    (s.blk.bit Reg.SEQ_STAT 11 = true → Writes .host s → ∀ c : Instr, c = .save ∨ c = .erase →
      Ends c s fun b => b.core = s.blk.core ∧ SameRegs s.blk b []) ∧
    (s.blk.bit Reg.SEQ_STAT 11 = true → s.blk.ldg.prog = none → (∀ q ∈ s.blk.ldg.queue, q.isProgram = false) →
      Ends .saveDone s fun b => b.bit Reg.SEQ_STAT 11 = false ∧ b.core = s.blk.core ∧
        SameRegs s.blk b [Reg.SEQ_STAT]) ∧
    (∀ i d, (s.blk.thr t).stall = some (.hold i d) → d < s.blk.now →
      Ends (.ledgerHoldTimeout t) s fun b => b.tState t = 3 ∧ b.fld (Reg.SEQ_T_STAT t) 11 8 = 4 ∧
        b.tPc t = s.blk.tPc t ∧ (∀ r, b.greg t r = s.blk.greg t r) ∧ b.bit Reg.SEQ_STAT t = true ∧
        .thread t ∉ b.ldg.held)

/-- Every Troek instruction, with every operand at every value, is decoded from its word as it was encoded. -/
def Obligations.TroekDecodeEncode : Prop :=
  ∀ (t : Thr) (i : Instr), i.threadOf = some t → decodeTroek t (encodeTroek i) = some i

/-- Words written out bit by bit from the formats of the instruction table decode to the instructions they stand for,
and words the table does not list are none. -/
def Obligations.TroekSampleWords : Prop :=
  ∀ p ∈ [
      (0b00000100000000000000000000000000#32, some (Instr.nop 2)),
      (0b00001000000000000000000000000000#32, some (.halt 2)),
      (0b00010000101000110010000000000001#32, some (.sub 2 5 3 4)),
      (0b00010011111000010111100000000111#32, some (.sar 2 31 1 15)),
      (0b00010000001000100001100000001011#32, none),
      (0b00100000001000101111111111111110#32, some (.addi 2 1 2 0xFFFE)),
      (0b00110000100001010000000000111111#32, some (.shli 2 4 5 63)),
      (0b00111100011000101011111011101111#32, some (.ins 2 3 2 0xBEEF)),
      (0b01000100001000100000000000001000#32, some (.ld 2 1 2 8)),
      (0b01011100110001110000000000010000#32, some (.stc 2 6 7 16)),
      (0b01101000001000101111111111111111#32, some (.blt 2 1 2 0xFFFF)),
      (0b01111100001000000011111111111111#32, some (.jal 2 1 0x3FFF)),
      (0b10001000001000000000000000001111#32, some (.pos 2 1 7 true)),
      (0b10010000001000100001101100000000#32, some (.waitp 2 1 2 3 3)),
      (0b10010100001000000001100111110000#32, some (.waite 2 1 3 1 0xF0)),
      (0b10011100001000100001100000000000#32, some (.arm 2 1 2 3)),
      (0b10111000001000100000000000000001#32, some (.log 2 1 2 1)),
      (0b10111100000000000000000000000000#32, none),
      (0b00000000000000000000000000000000#32, none)],
    decodeTroek 2 p.1 = p.2

/-- TIME_TICK ends the register cycle with its tests (log entry 8, DESIGN CHOICE: they are made as it ends) and moves
the clock by one tick. Where the units run, an armed entry whose key is reached or late (keyDue) is discarded where its
LATE policy says so, freed and reported where it is uncorrectable, and else executes, or waits for its turn behind 16
others; a stream's descriptors whose launch key is reached are released, a late one discarded by its policy. The strike
tests of a tick are StrikeTests. From POWER_OK on the device time gains the increment in force, or takes the value SET;
corrected memory errors of the tick are counted (log entry 85, DESIGN CHOICE), and its uncorrectable words of
instruction and data memory are kept (log entry 98, DESIGN CHOICE); no position changes, but where the three copies of
it disagree; the next tick's budget of executed actions is empty again, and a running thread counts a cycle, up to all
ones. -/
def Obligations.TickAdvances : Prop :=
  ∀ (s : State) (votes : List Vote) (sramCe hbmCe : Nat) (upsets : List Upset),
    ∃ t, exec (.timeTick votes sramCe hbmCe upsets) s = .next t ∧ t.pending = s.pending ∧ t.blk.now = s.blk.now + 32 ∧
      (s.blk.stage_ = 0 → t.blk.core = { s.blk with now := s.blk.now + 32 }.core ∧ SameRegs s.blk t.blk []) ∧
      (1 ≤ s.blk.stage_ →
        t.blk.tim.ns = (takeInc s.blk).tim.advance.ns ∧ t.blk.tim.fr = (takeInc s.blk).tim.advance.fr ∧
        t.blk.tim.inc = (takeInc s.blk).tim.inc ∧ t.blk.tim.set = none ∧ t.blk.tim.steps = [] ∧
        (s.blk.tim.incWritten = false → s.blk.tim.set = none → s.blk.tim.steps = [] →
          t.blk.tim.ns.toNat * 2 ^ 32 + t.blk.tim.fr.toNat =
            (s.blk.tim.ns.toNat * 2 ^ 32 + s.blk.tim.fr.toNat + s.blk.tim.inc.toNat) % 2 ^ 96) ∧
        (∀ v, s.blk.tim.set = some v → t.blk.tim.ns = v ∧ t.blk.tim.fr = 0) ∧
        t.blk.fld Reg.FLT_CNT_A 31 16 = min (s.blk.fld Reg.FLT_CNT_A 31 16 + sramCe) 0xFFFF ∧
        t.blk.fld Reg.FLT_CNT_B 31 16 = min (s.blk.fld Reg.FLT_CNT_B 31 16 + hbmCe) 0xFFFF ∧
        (∀ a, .dmem a ∈ upsets → t.blk.dmemSpoilt a.toNat 1 = true) ∧
        (∀ a, .imem a ∈ upsets → t.blk.isBad (.imem a) = true) ∧
        (s.blk.unitsOn = true → t.blk.act.done = 0) ∧
        (s.blk.unitsOn = true → ∀ k : Thr,
          t.blk.rd64 (Reg.SEQ_T_CYC_LO k) = s.blk.rd64 (Reg.SEQ_T_CYC_LO k) +
            (if s.blk.tState k = 1 ∧ s.blk.rd64 (Reg.SEQ_T_CYC_LO k) ≠ -1 then 1 else 0)) ∧
        ((∀ v ∈ votes, ∃ u k, v = .minority u k) →
          ∀ n : Chan, t.blk.ch n = { s.blk.ch n with evals := [], jump := none }) ∧
        t.blk.svc = s.blk.svc ∧ t.blk.bud = s.blk.bud ∧ t.blk.stage_ = s.blk.stage_) ∧
      (∀ (i : ActIx) (x : Inst × Option Int), s.blk.unitsOn = true → s.blk.keyDue i = some x →
        let e := s.blk.actE i
        let grace : Nat := if e.position then s.blk.fld Reg.ACT_GRACE_P 23 0 else s.blk.num Reg.ACT_GRACE_T
        (s.blk.isBad (.action i) = true → (t.blk.actE i).st = 0 ∧ (t.blk.actE i).jst = 4 ∧ t.blk.bit Reg.FLT_SUM 17 = true) ∧
        (∀ l, s.blk.isBad (.action i) = false → e.reached = none → x.2 = some l → e.policy = 1 ∨ e.policy = 2 ∧ (grace : Int) < l →
          (t.blk.actE i).st = 0 ∧ (t.blk.actE i).jst = 4 ∧ t.blk.bit Reg.ACT_STAT 18 = true) ∧
        (s.blk.isBad (.action i) = false → s.blk.standby = false → e.reached ≠ none ∨ x.2 = none ∨
            (∃ l, x.2 = some l ∧ (e.policy = 0 ∨ e.policy = 2 ∧ l ≤ grace)) →
          ((t.blk.actE i).st = 1 → i.val ∈ t.blk.act.backlog ∧ (t.blk.actE i).reached.isSome = true) ∧
          (s.blk.act.backlog = [] → s.blk.act.done = 0 → (∀ y ∈ s.blk.act.entries, y.1 ≠ i.val → s.blk.keyDue y.1 = none) →
            e.kind ≠ 4 → e.kind ≠ 5 → (t.blk.actE i).st = 0 ∧ (t.blk.actE i).jst = 3 ∧
              (e.kind = 1 → t.blk.bit Reg.ACT_EO_LEVEL e.target = true) ∧
              (e.kind = 2 → t.blk.bit Reg.ACT_EO_LEVEL e.target = false)))) ∧
      (∀ (st : Strm) (k : Nat) (d : Desc), s.blk.unitsOn = true → (∀ y ∈ s.blk.act.entries, s.blk.keyDue y.1 = none) → s.blk.act.backlog = [] →
        (s.blk.str st).descs[k]? = some d → d.launched = false → (∀ n, Upset.staged st n ∉ upsets) →
        (∀ l, launchHit d.d s.blk = some l → (∀ x ∈ l, s.blk.keepsLate d.d x = true) →
          ∃ e, (t.blk.str st).descs[k]? = some e ∧ e.launched = true ∧
            (d.st = .held → e.st = .writing ∧ e.items = d.items ∧ e.outcome = if l.isSome then 1 else d.outcome)) ∧
        (∀ x, launchHit d.d s.blk = some (some x) → s.blk.keepsLate d.d x = false → (t.blk.str st).descs[k]? = some d.discard) ∧
        (launchHit d.d s.blk = none → d.st = .held → (t.blk.str st).descs[k]? = some d))

/-- BAR2. A read gives the bytes of HBM at B2_BASE + offset and changes nothing; one that meets an uncorrectable error
is answered poisoned, counted and reported; in shutdown it reads zeros. A write is performed byte by byte where the
byte's area allows it, and counted once where any byte is discarded; the bank descriptors follow the banks written; a
poisoned write, and every write at a standby, is discarded and counted. Before HBM is zeroed after a cold reset requests
are held. While PERST# holds the host block in reset B2_BASE cannot be written. The choices: a poisoned answer carries
no bytes (log entry 66), and HBM_UE counts once for each request (log entry 85; both DESIGN CHOICE). -/
def Obligations.HostMemory : Prop :=
  ∀ (s : State) (r : Requester) (o len : Nat) (ue hi : Bool) (data : List (Option Byte)) (val : Word),
    (s.blk.perst = false ∨ s.blk.bud.down = true → s.blk.stage_ ≠ 0 → s.blk.b2Waits = false →
      (s.blk.bud.down = false →
        (s.blk.spoiltRead (s.blk.b2Addr o) len = false → Ends (.bar2Read o len false) s (fun b =>
          .bar2 (s.blk.b2Addr o) ((List.range len).map fun i => s.blk.hbmByte ((s.blk.b2Addr o + i) % 2 ^ 34)) false
            ∈ b.out ∧
          b.core = s.blk.core ∧ SameRegs s.blk b [])) ∧
        (ue = true ∨ s.blk.spoiltRead (s.blk.b2Addr o) len = true →
          Ends (.bar2Read o len ue) s (fun b => .bar2 (s.blk.b2Addr o) [] true ∈ b.out ∧
          b.fld Reg.HOST_CNT 31 16 = min (s.blk.fld Reg.HOST_CNT 31 16 + 1) 0xFFFF ∧
          b.fld Reg.FLT_CNT_B 15 0 = min (s.blk.fld Reg.FLT_CNT_B 15 0 + 1) 0xFFFF ∧ b.bit Reg.FLT_SUM 13 = true ∧
          b.hbm = s.blk.hbm ∧ b.core = { s.blk with ldg := b.ldg }.core))) ∧
      (s.blk.bud.down = true →
        Ends (.bar2Read o len ue) s (fun b => .bar2 (s.blk.b2Addr o) (List.replicate len 0) false ∈ b.out ∧
          b.core = s.blk.core ∧ SameRegs s.blk b [])) ∧
      (s.blk.bud.down = false → s.blk.standby = false → data.length ≤ 2 ^ 34 →
        Ends (.bar2Write o (.bytes data)) s (fun b =>
          (∀ i < data.length, ∀ x, data.getD i none = some x →
            s.blk.b2Denied ((s.blk.b2Addr o + i) % 2 ^ 34) = false →
            b.hbmByte ((s.blk.b2Addr o + i) % 2 ^ 34) = x) ∧
          (∀ a, (∀ i < data.length, (s.blk.b2Addr o + i) % 2 ^ 34 = a →
              data.getD i none = none ∨ s.blk.b2Denied a = true) →
            ¬(0xAE000000 ≤ a ∧ a < 0xAE000600) → b.hbmByte a = s.blk.hbmByte a) ∧
          b.rd Reg.HOST_B2DENY =
            (if (enabledBytes (s.blk.b2Addr o) data).any (fun x => s.blk.b2Denied x.1) then
              BitVec.ofNat 32 (min ((s.blk.rd Reg.HOST_B2DENY).toNat + 1) 0xFFFFFFFF)
            else s.blk.rd Reg.HOST_B2DENY) ∧
          b.core = { s.blk with hbm := b.hbm, heads := b.heads, bad := b.bad }.core ∧
          SameRegs s.blk b (Reg.HOST_B2DENY :: (List.range 24).map Reg.HD_BANK))) ∧
      (s.blk.bud.down = false → s.blk.standby = true → (enabledBytes (s.blk.b2Addr o) data).isEmpty = false →
        Ends (.bar2Write o (.bytes data)) s (fun b =>
          b.fld Reg.PAIR_CNT_C 15 0 = min (s.blk.fld Reg.PAIR_CNT_C 15 0 + 1) 0xFFFF ∧
          b.core = s.blk.core ∧ SameRegs s.blk b [Reg.PAIR_CNT_C]))) ∧
    (s.blk.perst = false → s.blk.stage_ ≠ 0 → s.blk.bud.down = false →
      Ends (.bar2Write o .poisoned) s (fun b => b.fld Reg.HOST_CNT 15 0 = min (s.blk.fld Reg.HOST_CNT 15 0 + 1) 0xFFFF ∧
        .poisonedTlp ∈ b.host.aer ∧ b.core = s.blk.core ∧ SameRegs s.blk b [Reg.HOST_CNT])) ∧
    (s.blk.perst = false ∨ s.blk.bud.down = true → s.blk.stage_ ≠ 0 → s.blk.b2Waits = true →
      Ends (.bar2Read o len ue) s (fun b =>
        b.core = { s.blk with held := s.blk.held ++ [(s.blk.b2Addr o, none, len)] }.core ∧ SameRegs s.blk b []) ∧
      Ends (.bar2Write o (.bytes data)) s (fun b =>
        b.core = { s.blk with held := s.blk.held ++ [(s.blk.b2Addr o, some data, 0)] }.core ∧ SameRegs s.blk b [])) ∧
    (s.blk.reaches r = true → s.blk.bud.down = false →
      ∀ off, off = (if hi then Reg.HOST_B2_BASE_HI else Reg.HOST_B2_BASE_LO) → Prevails r off s →
        Ends (.b2BaseWrite r hi val) s (fun b => b.core = s.blk.core ∧ SameRegs s.blk b [off] ∧
          b.rd off = if s.blk.hostHeld then s.blk.rd off else written off (s.blk.rd off) (s.blk.upd off) val))

/-- `bytes` go to host memory from address `addr`, in posted writes as R276 has them. -/
abbrev Delivers (a b : Block) (addr : Nat) (bytes : List Byte) : Prop :=
  ∀ x ∈ splitWrite (128 * 2 ^ a.host.mps.val) bytes.length addr bytes, .hostWrite x.1 x.2 ∈ b.out

/-- Egress. A posted write carries at most Max_Payload_Size bytes and crosses no 4 KB boundary. A tail beyond the ring
is discarded; setting EN begins the ring at HEAD 0 and abandons what is still in flight, clearing it drops what is
staged and, where egress may write, completes every fetched descriptor; descriptors are fetched in ring order from their
32 bytes, a failed fetch stops the ring, one whose key has passed is late by its policy; they close after their time,
are released by their launch keys (a time key at DESC_LAUNCH, a position key as the tick ends: TickAdvances) and
complete in order with their eight bytes, the shadow index and HEAD; a record ring writes its batch, the first record at
WRIDX, and the index; a round of stream data moves at most 128 KB, and something where a stream is ready. A read whose
ring has stopped or begun anew stays outstanding, and its end is none of the ring's. The choices: EN set abandons what
is in flight (log entry 110), a round serves only where no record ring and no completion waits (69; both DESIGN CHOICE). -/
def Obligations.StreamsAndRings : Prop :=
  ∀ (s : State) (r : Requester) (st : Strm) (ring : Fin 2) (val : Word),
    (∀ (addr : Nat) (bytes : List Byte),
      ((splitWrite (128 * 2 ^ s.blk.host.mps.val) bytes.length addr bytes).flatMap fun x => x.2) = bytes ∧
      ∀ x ∈ splitWrite (128 * 2 ^ s.blk.host.mps.val) bytes.length addr bytes,
        0 < x.2.length ∧ x.2.length ≤ 128 * 2 ^ s.blk.host.mps.val ∧ x.1 % 4096 + x.2.length ≤ 4096) ∧
    (s.blk.reaches r = true → s.blk.bud.down = false → s.blk.hostHeld = true →
      ∀ c ∈ [Instr.strTailWrite r st val, .streamEnable r st val, .streamDisable r st val, .rdidxWrite r ring val],
        Ends c s (fun b => b.host = s.blk.host ∧ b.core = s.blk.core ∧ SameRegs s.blk b [])) ∧
    (s.blk.reaches r = true → s.blk.bud.down = false → s.blk.hostHeld = false → isStream st = true →
      (fieldOf val 11 0 < s.blk.ringSize st → Prevails r (Reg.STR_TAIL st) s →
        Ends (.strTailWrite r st val) s (fun b => b.fld (Reg.STR_TAIL st) 11 0 = fieldOf val 11 0 ∧
          b.host.strs = s.blk.host.strs ∧ b.core = s.blk.core ∧ SameRegs s.blk b [Reg.STR_TAIL st])) ∧
      (s.blk.ringSize st ≤ fieldOf val 11 0 →
        Ends (.strTailWrite r st val) s (fun b => b.bit (Reg.STR_STAT st) 2 = true ∧
          b.host.strs = s.blk.host.strs ∧ b.core = s.blk.core ∧ SameRegs s.blk b [Reg.STR_STAT st])) ∧
      (s.blk.strEn st = false → Prevails r (Reg.STR_CTL st) s →
        Ends (.streamEnable r st val) s (fun b => b.strEn st = true ∧ b.fld (Reg.STR_HEAD st) 11 0 = 0 ∧
          b.bit (Reg.STR_STAT st) 1 = false ∧
          b.str st = { s.blk.str st with
            descs := [], fetch := 0, fetching := 0, stale := (s.blk.str st).stale + (s.blk.str st).fetching, stopped := false } ∧
          (∀ d ∈ (s.blk.str st).descs, (b.host.slots.get (fun _ => {}) d.slot).abandoned = true) ∧
          (∀ u, u ≠ st.val → b.str u = s.blk.str u) ∧ b.core = s.blk.core ∧
          SameRegs s.blk b [Reg.STR_CTL st, Reg.STR_HEAD st, Reg.STR_STAT st])) ∧
      (s.blk.strEn st = true → Prevails r (Reg.STR_CTL st) s →
        Ends (.streamDisable r st val) s (fun b => b.strEn st = false ∧ (b.str st).items = [] ∧
          (b.str st).fetching = 0 ∧ (b.str st).stale = (s.blk.str st).stale + (s.blk.str st).fetching ∧ (b.str st).drops = none ∧ (b.str st).withheld = none ∧
          b.fld (Reg.STR_CNT st) 31 16 =
            min (s.blk.fld (Reg.STR_CNT st) 31 16 + (s.blk.str st).items.length) 0xFFFF ∧
          (s.blk.egressOn = true → (s.blk.str st).stopped = false → (b.str st).descs = [] ∧
            ∀ d ∈ (s.blk.str st).descs, d.st = .fetched ∨ d.st = .filling ∨ d.st = .held →
              Delivers s.blk b ((s.blk.rd64 (Reg.STR_BASE_LO st)).toNat + 32 * d.idx + 24)
                (leBytes 4 (itemsLen d.items) ++ [4, 1] ++ leBytes 2 d.items.length)) ∧
          b.core = s.blk.core ∧
          SameRegs s.blk b [Reg.STR_CTL st, Reg.STR_HEAD st, Reg.STR_CNT st, Reg.MSIX_PBA 1])) ∧
      (Prevails r (Reg.HOST_RING_RDIDX ring) s → Ends (.rdidxWrite r ring val) s (fun b => b.fld (Reg.HOST_RING_RDIDX ring) 15 0 = fieldOf val 15 0 ∧
        b.host.rings = s.blk.host.rings ∧ b.core = s.blk.core ∧ SameRegs s.blk b [Reg.HOST_RING_RDIDX ring]))) ∧
    (s.blk.mayFetch st = true →
      Ends (.descFetch st) s (fun b =>
        b.str st = { s.blk.str st with fetch := ((s.blk.str st).fetch + 1) % s.blk.ringSize st,
                                       fetching := (s.blk.str st).fetching + 1 } ∧
        .hostRead ((s.blk.rd64 (Reg.STR_BASE_LO st)).toNat + 32 * (s.blk.str st).fetch) 32 ∈ b.out ∧
        b.core = s.blk.core ∧ SameRegs s.blk b [])) ∧
    (s.blk.host.cplDisable = true →
      Ends (.descFetchDone st .timeout) s (fun b => b.host = s.blk.host ∧ b.core = s.blk.core ∧ SameRegs s.blk b [])) ∧
    (∀ e : FetchEnd, (s.blk.str st).stale ≠ 0 → e ≠ .timeout ∨ s.blk.host.cplDisable = false →
      Ends (.descFetchDone st e) s (fun b => b.str st = { s.blk.str st with stale := (s.blk.str st).stale - 1 } ∧
        (e = .timeout → .completionTimeout ∈ b.host.aer) ∧ (e ≠ .timeout → b.host.aer = s.blk.host.aer) ∧
        b.core = s.blk.core ∧ SameRegs s.blk b [])) ∧
    ((s.blk.str st).fetching ≠ 0 → (s.blk.str st).stale = 0 → s.blk.strEn st = true →
      (∀ (e : FetchEnd), e = .timeout ∧ s.blk.host.cplDisable = false ∨ e = .error →
        Ends (.descFetchDone st e) s (fun b =>
          b.str st = { s.blk.str st with fetching := 0, stale := (s.blk.str st).fetching - 1, stopped := true } ∧
          b.bit (Reg.STR_STAT st) 1 = true ∧ b.bit Reg.HOST_STAT 9 = true ∧
          (e = .timeout → .completionTimeout ∈ b.host.aer) ∧ b.core = s.blk.core ∧
          SameRegs s.blk b [Reg.STR_STAT st, Reg.HOST_STAT])) ∧
      ∀ (bytes : List Byte) (d : Descriptor), Descriptor.ofBytes bytes = d →
        Ends (.descFetchDone st (.data bytes)) s (fun b =>
          (b.str st).fetching = (s.blk.str st).fetching - 1 ∧
          (b.str st).descs.length = (s.blk.str st).descs.length + 1 ∧
          (∃ e, (b.str st).descs.getLast? = some e ∧ e.d = d ∧
            (d.addr.toNat % 64 ≠ 0 ∨ d.len.toNat / 64 = 0 → e.outcome = 5 ∧ e.st = .writing ∧ e.items = []) ∧
            (∀ l, d.addr.toNat % 64 = 0 → d.len.toNat / 64 ≠ 0 → launchLate d s.blk = some l →
              b.fld (Reg.STR_CNT st) 15 0 = min (s.blk.fld (Reg.STR_CNT st) 15 0 + 1) 0xFFFF ∧ e.launched = true ∧
              (s.blk.keepsLate d l = false → e.outcome = 2 ∧ e.st = .writing ∧ e.items = []))) ∧
          b.core = s.blk.core ∧ SameRegs s.blk b [Reg.STR_CNT st])) ∧
    ((s.blk.str st).fetching = 0 → (s.blk.str st).stale = 0 → ∀ e : FetchEnd, e ≠ .timeout →
      Ends (.descFetchDone st e) s (fun b => .unexpectedCompletion ∈ b.host.aer ∧ b.host.strs = s.blk.host.strs ∧
        b.core = s.blk.core ∧ SameRegs s.blk b [])) ∧
    Ends (.descCloseTimeout st) s (fun b =>
      (∀ (i : Nat) (d : Desc) (t : Nat), (s.blk.str st).descs[i]? = some d → d.st = .filling → d.openAt = some t →
        s.blk.fld (Reg.STR_CTL st) 31 16 ≠ 0 → t + s.blk.fld (Reg.STR_CTL st) 31 16 * tuUs ≤ s.blk.now →
        (b.str st).descs[i]? = some d.close) ∧
      b.core = s.blk.core ∧ SameRegs s.blk b []) ∧
    Ends (.descLaunch st) s (fun b =>
      (∀ (i : Nat) (d : Desc), (s.blk.str st).descs[i]? = some d → d.launched = false → d.d.lkind.val ≠ 2 →
        (∀ l, launchHit d.d s.blk = some l → (∀ x, l = some x → s.blk.keepsLate d.d x = true) →
          ∃ e, (b.str st).descs[i]? = some e ∧ e.launched = true ∧
            (d.st = .held → e.st = .writing ∧ e.items = d.items ∧
              e.outcome = if l.isSome then 1 else d.outcome)) ∧
        (∀ x, launchHit d.d s.blk = some (some x) → s.blk.keepsLate d.d x = false →
          (b.str st).descs[i]? = some d.discard)) ∧
      (∀ (i : Nat) (d : Desc), (s.blk.str st).descs[i]? = some d → d.launched = true ∨ d.d.lkind.val = 2 ∨
        launchHit d.d s.blk = none → d.st = .held → (b.str st).descs[i]? = some d) ∧
      b.fld (Reg.STR_CNT st) 15 0 = min (s.blk.fld (Reg.STR_CNT st) 15 0 + ((s.blk.str st).descs.filter fun d =>
        !d.launched && d.d.lkind.val != 2 && ((launchHit d.d s.blk).bind id).isSome).length) 0xFFFF ∧
      b.core = s.blk.core ∧ SameRegs s.blk b [Reg.STR_CNT st]) ∧
    (∀ (d : Desc) (ds : List Desc), s.blk.mayComplete st = true → s.blk.ringReady 0 = false →
      s.blk.ringReady 1 = false → (s.blk.str st).descs = d :: ds →
      Ends (.descComplete st) s (fun b => (b.str st).descs = ds ∧
        b.rd (Reg.STR_HEAD st) = BitVec.ofNat 32 ((d.idx + 1) % s.blk.ringSize st) ∧
        Delivers s.blk b ((s.blk.rd64 (Reg.STR_BASE_LO st)).toNat + 32 * d.idx + 24)
          (leBytes 4 (itemsLen d.items) ++ [d.outcome, 1] ++ leBytes 2 d.items.length) ∧
        (s.blk.bit (Reg.STR_CTL st) 3 = true →
          Delivers s.blk b ((s.blk.rd64 (Reg.STR_BASE_LO st)).toNat + 32 * s.blk.ringSize st)
            (leBytes 4 ((d.idx + 1) % s.blk.ringSize st))) ∧
        b.core = s.blk.core ∧ SameRegs s.blk b [Reg.STR_HEAD st, Reg.MSIX_PBA 1])) ∧
    (s.blk.ringReady ring = true → ring = 0 ∨ s.blk.ringReady 0 = false →
      Ends (.recordRingWrite ring) s (fun b => b.ringReady ring = false ∧
        Delivers s.blk b ((s.blk.rd64 (Reg.HOST_RING_BASE_LO ring)).toNat + 64 * s.blk.ringSlots ring)
          (leBytes 4 (b.fld (Reg.HOST_RING_WRIDX ring) 15 0)) ∧
        (∀ (bytes : List Byte) (g : RecRing), (s.blk.host.rings.get (fun _ => {}) ring).next = some (bytes, g) →
          Delivers s.blk b
            ((s.blk.rd64 (Reg.HOST_RING_BASE_LO ring)).toNat + 64 * s.blk.fld (Reg.HOST_RING_WRIDX ring) 15 0) bytes) ∧
        b.core = s.blk.core ∧ SameRegs s.blk b [Reg.HOST_RING_WRIDX ring])) ∧
    (s.blk.egressOn = true → s.blk.ringReady 0 = false → s.blk.ringReady 1 = false →
      (s.blk.host.strs.any fun e => s.blk.mayComplete e.1) = false →
      Ends .egressRound s (fun b => s.blk.host.loadBytes ≤ b.host.loadBytes ∧
        b.host.loadBytes ≤ s.blk.host.loadBytes + 131072 ∧
        (0 < (s.blk.str st).ready → s.blk.host.loadBytes < b.host.loadBytes) ∧
        b.core = s.blk.core ∧ SameRegs s.blk b []))

/-- Interrupt moderation, configuration writes, link down. At the end of a source's interval the events within it make
one message on its vector, or its pending bit where it is masked, and a new interval begins; a configuration write sets
its field and finds the link up (log entry 158, DESIGN CHOICE), and before requests are accepted it is answered with a
retry; a link down without PERST# resets the host block alone, the BAR2 requests it holds with it (log entry 159, DESIGN
CHOICE). -/
def Obligations.InterruptsAndConfiguration : Prop :=
  ∀ (s : State) (src : Fin 201) (m : Moder) (on off : Bool) (n : Fin 7) (k : Fin 3) (c : Fin 16) (g : Byte) (e : AerError),
    (∀ t, s.blk.host.vecs.get (fun _ => {}) src = m → m.ends = some t → t ≤ s.blk.now →
      (m.again = false →
        Ends (.msixModerationExpiry src) s (fun b => b.host.vecs.get (fun _ => {}) src = {} ∧ b.out = s.blk.out ∧
          b.core = s.blk.core ∧ SameRegs s.blk b [])) ∧
      (m.again = true → s.blk.host.msixEn = true → s.blk.hostHeld = false → ∀ v, s.blk.vecOf src = v →
        Ends (.msixModerationExpiry src) s (fun b =>
          b.host.vecs.get (fun _ => {}) src =
            (if m.imod = 0 then {} else { ends := some (s.blk.now + m.imod * tuUs), again := false, imod := m.imod }) ∧
          (s.blk.host.msixMask = true ∨ s.blk.bit (Reg.MSIX_TABLE_CTRL v) 0 = true →
            b.bit (Reg.MSIX_PBA (v / 32)) (v % 32) = true) ∧
          (s.blk.host.msixMask = false → s.blk.bit (Reg.MSIX_TABLE_CTRL v) 0 = false → s.blk.host.bme = true →
            s.blk.host.d3hot = false → s.blk.host.dlUp = true →
            .msix v (s.blk.rd64 (Reg.MSIX_TABLE_ADDR_LO v)) (s.blk.rd (Reg.MSIX_TABLE_DATA v)) ∈ b.out) ∧
          b.core = s.blk.core ∧ SameRegs s.blk b [Reg.MSIX_PBA 1]))) ∧
    (∀ w : CfgWrite, s.blk.cfgReady = false → Ends (.configurationWrite w) s (fun b => b.host = s.blk.host ∧
      (s.blk.perst = false → s.blk.stage_ ≠ 0 → .configRetry ∈ b.out) ∧ b.core = s.blk.core ∧ SameRegs s.blk b [])) ∧
    (s.blk.cfgReady = true →
      (∀ (w : CfgWrite) (h : HostIf),
        (w, h) ∈ [(CfgWrite.busMasterEnable on, { s.blk.host with bme := on, dlUp := true }),
          (.d3hot on, { s.blk.host with d3hot := on, dlUp := true }),
          (.ptmControl on off g, { s.blk.host with ptmEn := on, ptmRootSel := off, ptmEffGran := g, dlUp := true }),
          (.msixEnable on, { s.blk.host with msixEn := on, dlUp := true }),
          (.msixMask on, { s.blk.host with msixMask := on, dlUp := true }),
          (.maxPayload k, { s.blk.host with mps := k, dlUp := true }),
          (.cplTimeout c off, { s.blk.host with cplTimeout := c, cplDisable := off, dlUp := true }),
          (.aerClear e, { s.blk.host with aer := s.blk.host.aer.filter (· != e), dlUp := true }),
          (.bar2Size n, { s.blk.host with bar2 := n, dlUp := true })] →
        Ends (.configurationWrite w) s (fun b => b.host = h ∧ b.core = s.blk.core ∧
          SameRegs s.blk b [Reg.MSIX_PBA 1])) ∧
      (s.blk.host.dlUp = true →
        Ends .pcieLinkDown s (fun b =>
          b.host = { rings := s.blk.host.rings, slots := b.host.slots } ∧ b.host.dlUp = false ∧
          (∀ off, 0x60000 ≤ off → off < 0x70000 → b.rd off = resetOf off) ∧
          (∀ off, off < 0x60000 ∨ 0x70000 ≤ off → b.rd off = s.blk.rd off) ∧
          b.core = { s.blk with held := [] }.core)))

/-- Budget and thermal model. A power sample fills the power registers, the deferral of HBM work with its hysteresis and
the link load, and decides; STEP_MIN and C_HOLD act as BUD_CTL is written; THM_EVAL, the staleness guard start an
evaluation; an evaluation steps the six nodes from the ambient and the mean powers, gives the estimate and decides;
entering SHUT freezes the journal, queues the shutdown record alone and begins the shutdown; the ambient arrives and
ages out; when the record is written the device stops. That STEP_MIN and C_HOLD act as BUD_CTL is written is log entry
70, that an evaluation's elapsed time is device time log entry 73 (both DESIGN CHOICE). -/
def Obligations.BudgetAndShutdown : Prop :=
  ∀ (s : State) (r : Requester) (mw : List (BitVec 24)) (util : Byte) (val : Word),
    (1 ≤ s.blk.stage_ → s.blk.bud.calcStep ≤ 4 →
      Ends (.powerSample mw util) s (fun b =>
        (∀ d < 8, b.rd (Reg.BUD_PWR d) = (mw.getD d 0).setWidth 32) ∧
        b.rd Reg.BUD_PTOT = BitVec.ofNat 32 ((List.range 8).map fun d => (mw.getD d 0).toNat).sum ∧
        b.fld Reg.BUD_HBM_UTIL 7 0 = util.toNat ∧
        b.bit Reg.BUD_STAT 6 =
          (if 80 < util.toNat then true else if util.toNat < 75 then false else s.blk.bit Reg.BUD_STAT 6) ∧
        b.fld Reg.HOST_LOAD 7 0 = min 255 (s.blk.host.loadBytes * 100 / 1310000) ∧
        (b.fld Reg.BUD_STAT 25 16 : Int) = min b.allowTh b.allowCap ∧
        b.fld Reg.BUD_STAT 2 0 = max (stepNext s.blk.bud.calcStep (b.fld Reg.BUD_STAT 25 16)) s.blk.stepMin ∧
        (b.bit Reg.BUD_STAT 3 = true → b.fld Reg.BUD_STAT 25 16 = 1000) ∧
        ((∀ h < 24, s.blk.calState h ≠ 5) →
          b.core = { s.blk with bud := b.bud, seam := b.seam }.core ∧
          SameRegs s.blk b ([Reg.BUD_PTOT, Reg.BUD_HBM_UTIL, Reg.BUD_STAT, Reg.BUD_CNT, Reg.HOST_LOAD]
            ++ (List.range 8).map Reg.BUD_PWR)))) ∧
    (s.blk.reaches r = true → s.blk.bud.down = false → s.blk.bud.calcStep ≤ 4 →
      ∀ off : BitVec 21, off.toNat = Reg.BUD_CTL → Prevails r Reg.BUD_CTL s →
        Ends (.registerWrite r off val (.bytes 0xF)) s (fun b =>
          b.rd Reg.BUD_CTL = written Reg.BUD_CTL (s.blk.rd Reg.BUD_CTL) (s.blk.upd Reg.BUD_CTL) val ∧
          b.fld Reg.BUD_STAT 2 0 = max s.blk.bud.calcStep (min 4 (b.fld Reg.BUD_CTL 10 8)) ∧
          (b.bit Reg.BUD_CTL 0 = true → b.bit Reg.BUD_STAT 3 = false) ∧
          b.core = { s.blk with seam := b.seam }.core ∧ SameRegs s.blk b [Reg.BUD_CTL, Reg.BUD_STAT, Reg.BUD_CNT])) ∧
    (s.blk.reaches .host = true →
      Ends .evalGo s (fun b =>
        b.bud.evalAt = (match s.blk.bud.evalAt with
          | some t => some t
          | none => some (s.blk.now + 80 * tuNs)) ∧
        (s.blk.bud.evalAt = none → b.bit Reg.THM_STAT 5 = true) ∧
        b.core = { s.blk with bud := b.bud }.core ∧ SameRegs s.blk b [Reg.THM_STAT])) ∧
    (s.blk.reaches r = true → Prevails r Reg.THM_AMB s →
      Ends (.thmAmbWrite r val) s (fun b =>
        b.bud = { s.blk.bud with amb := some (val.toInt, s.blk.now), ambHost := some s.blk.now } ∧
        b.bit Reg.THM_STAT 4 = false ∧
        b.rd Reg.THM_AMB = written Reg.THM_AMB (s.blk.rd Reg.THM_AMB) (s.blk.upd Reg.THM_AMB) val ∧
        b.core = { s.blk with bud := b.bud }.core ∧ SameRegs s.blk b [Reg.THM_AMB, Reg.THM_STAT])) ∧
    (2 ≤ s.blk.stage_ →
      Ends .ambientAgeOut s (fun b => b.bit Reg.THM_STAT 4 = (s.blk.bit Reg.THM_STAT 4 || s.blk.ambStale) ∧
        b.core = s.blk.core ∧ SameRegs s.blk b [Reg.THM_STAT]) ∧
      (s.blk.bud.evalAt = none → s.blk.bud.lastRef + s.blk.staleTu ≤ s.blk.now →
        Ends .stalenessGuard s (fun b => b.bud.evalAt = some (s.blk.now + 80 * tuNs) ∧
          b.bit Reg.THM_STAT 3 = true ∧ b.bit Reg.THM_STAT 5 = true ∧
          b.fld Reg.THM_CNT 31 16 = min (s.blk.fld Reg.THM_CNT 31 16 + 1) 0xFFFF ∧
          b.core = { s.blk with bud := b.bud }.core ∧ SameRegs s.blk b [Reg.THM_STAT, Reg.THM_CNT])) ∧
      (∀ t, s.blk.bud.evalAt = some t → t ≤ s.blk.now →
        Ends .thermalEvaluation s (fun b => b.bud.evalAt = none ∧ b.bud.lastRef = s.blk.now ∧
          b.bit Reg.THM_STAT 5 = false ∧ b.rd64 Reg.THM_EVTIME_LO = s.blk.tim.ns ∧
          b.bud.nodes = (List.range 6).map (fun i =>
            nodeStep s.blk.ambient (s.blk.meanPower (s.blk.ns - s.blk.bud.prev)) (s.blk.ns - s.blk.bud.prev) i
              (s.blk.bud.nodes.getD i 0)) ∧
          (∀ i < 6, b.rd (Reg.THM_NODE i) = BitVec.ofInt 32 (satS 32 (roundRat (b.bud.nodes.getD i 0)))) ∧
          (∃ i < 6, b.rd Reg.THM_EST = BitVec.ofInt 32 (satS 32 (roundRat (b.bud.nodes.getD i 0))) ∧
            b.fld Reg.THM_HOTNODE 2 0 = i ∧
            ∀ j < 6, satS 32 (roundRat (b.bud.nodes.getD j 0)) ≤ satS 32 (roundRat (b.bud.nodes.getD i 0))) ∧
          (b.fld Reg.BUD_STAT 25 16 : Int) = min b.allowTh b.allowCap ∧
          (s.blk.bud.shutting = false → s.blk.bit Reg.THM_STAT 2 = false → b.bit Reg.THM_STAT 2 = true →
            b.bud.shutting = true ∧ b.bit Reg.FLT_SUM 17 = true ∧ b.frozen.isSome = true ∧
            ∃ body, b.ldg.queue = [.shutdown body]) ∧
          b.pos = s.blk.pos ∧ b.tim = s.blk.tim ∧ b.hbm = s.blk.hbm ∧ b.stage_ = s.blk.stage_))) ∧
    (s.blk.mayStop = true →
      Ends .shutdownStop s (fun b => b.bud.down = true ∧ b.ldg.queue = [] ∧ b.sched = [] ∧
        (∀ h < 24, (b.port h).queue = [] ∧ (b.port h).outs = []) ∧
        b.core = { s.blk with bud := { s.blk.bud with down := true }, ldg := { s.blk.ldg with queue := [] },
                              ports := b.ports, sched := [] }.core ∧
        SameRegs s.blk b []))

/-- The ledger's requests with `q` queued last; while the core supply is low all that are queued wait (R317). -/
abbrev Queued (a : Block) (q : LdgReq) : Ldg :=
  { a.ldg with queue := a.ldg.queue ++ [q], delayed := if a.coreLow then a.ldg.queue ++ [q] else a.ldg.delayed }

/-- The ledger's requests without `q`, which `p` programs (R303). -/
abbrev Started (a : Block) (q : LdgReq) (p : LdgProg) : Ldg :=
  { a.ldg with queue := a.ldg.queue.erase q, delayed := a.ldg.delayed.erase q, prog := some p }

/-- The ledger. A window write is held while a page is programmed, or where it would enter a full queue; else one
outside the user area is discarded and counted, and one inside it is queued. The oldest request starts next, a shutdown
record first and alone once SHUT is entered, a log entry taking the next place and number, a record the slot without its
winner; a page that completes has programmed its bytes, and once SHUT is entered the rest of its record is abandoned.
UFREE queues the release of an allocated kind (of another kind it changes nothing: log entry 65, DESIGN CHOICE), and the
counters and the journal summary are queued at their times. -/
def Obligations.LedgerWrites : Prop :=
  ∀ (s : State) (r : Requester) (addr : BitVec 18) (val : Word) (be : BitVec 4),
    (s.blk.reaches r = true → s.blk.bud.down = false →
      ∀ a, a = addr.toNat / 4 * 4 →
        (be = 0 → Ends (.ledgerWindowWrite r addr val be) s (fun b => b.core = s.blk.core ∧ SameRegs s.blk b [])) ∧
        (be ≠ 0 → s.blk.writeHeld (0x080000 + a) = true →
          Ends (.ledgerWindowWrite r addr val be) s (fun b =>
            b.core = { s.blk with ldg := { s.blk.ldg with
              held := s.blk.ldg.held ++ [Held.write r (0x080000 + a) val be] } }.core ∧
            SameRegs s.blk b [])) ∧
        (be ≠ 0 → s.blk.writeHeld (0x080000 + a) = false → inUserArea a = false →
          Ends (.ledgerWindowWrite r addr val be) s (fun b =>
            b.fld Reg.LDG_CNT_A 15 0 = min (s.blk.fld Reg.LDG_CNT_A 15 0 + 1) 0xFFFF ∧ b.core = s.blk.core ∧
            SameRegs s.blk b [Reg.LDG_CNT_A])) ∧
        (be ≠ 0 → s.blk.writeHeld (0x080000 + a) = false → inUserArea a = true →
          Ends (.ledgerWindowWrite r addr val be) s (fun b =>
            b.core = { s.blk with ldg := Queued s.blk (.raw (windowBytes a val be)) }.core ∧
            SameRegs s.blk b [Reg.LDG_CNT_C]))) ∧
    (3 ≤ s.blk.stage_ → s.blk.ldg.prog = none → s.blk.coreLow = false → s.blk.bud.down = false →
      (∀ xs, s.blk.bud.shutting = false → s.blk.nextWrite = some (.raw xs) →
        Ends .ledgerWriteStart s (fun b =>
          b.core = { s.blk with ldg := Started s.blk (.raw xs) { req := .raw xs, seq := 0, pages := toPages xs } }.core ∧
          SameRegs s.blk b [])) ∧
      (∀ body, s.blk.nextWrite = some (.shutdown body) → ∀ p : LdgProg,
        p = { req := .shutdown body, seq := LdgReq.seqAt s.blk (.shutdown body), pages := toPages (shutdownBytes body s.blk) } →
        Ends .ledgerWriteStart s (fun b => b.core = { s.blk with ldg := Started s.blk (.shutdown body) p }.core ∧
          SameRegs s.blk b [Reg.LDG_CNT_B])) ∧
      (∀ kind head body, s.blk.bud.shutting = false → s.blk.nextWrite = some (.twin kind head body) →
        ∀ (a : Nat) (seq : Word) (b' : Block), twinTarget kind head s.blk = (a, seq, b') →
          Ends .ledgerWriteStart s (fun b =>
            b.ldg.prog = some { req := .twin kind head body, seq := seq,
                                pages := toPages (spanFrom a (recordBytes kind seq body)) } ∧
            b.ldg.bytes = s.blk.ldg.bytes ∧ b.core = { s.blk with ldg := b.ldg }.core)) ∧
      (s.blk.bud.shutting = true → s.blk.ldg.queue.any LdgReq.isShutdown = false →
        Ends .ledgerWriteStart s (fun b => b.core = s.blk.core ∧ SameRegs s.blk b [])) ∧
      (∀ code src urgent time data, s.blk.bud.shutting = false → s.blk.nextWrite = some (.log code src urgent time data) →
        Ends .ledgerWriteStart s (fun b =>
          b.ldg.queue = s.blk.ldg.queue.erase (.log code src urgent time data) ∧
          b.ldg.prog = some { req := .log code src urgent time data, seq := s.blk.rd Reg.LDG_LOGSEQ,
                              pages := toPages (spanFrom (0x4000 + s.blk.fld Reg.LDG_LOG 10 0 * 32)
                                (logBytes code src urgent (s.blk.rd Reg.LDG_LOGSEQ) time data)) } ∧
          b.fld Reg.LDG_LOG 10 0 = (s.blk.fld Reg.LDG_LOG 10 0 + 1) % 2048 ∧
          b.rd Reg.LDG_LOGSEQ = s.blk.rd Reg.LDG_LOGSEQ + 1 ∧
          b.core = { s.blk with ldg := b.ldg }.core ∧ SameRegs s.blk b [Reg.LDG_LOG, Reg.LDG_LOGSEQ]))) ∧
    (∀ p, 1 ≤ s.blk.stage_ → s.blk.ldg.prog = some p →
      Ends .ledgerPageDone s (fun b =>
        b.ldg.bytes = (programBytes (p.pages.headD []) s.blk).ldg.bytes ∧
        (s.blk.bud.shutting = false → s.blk.ldg.held = [] →
          b.ldg.prog = (if p.pages.length ≤ 1 then none else some { p with pages := p.pages.drop 1 })) ∧
        (s.blk.bud.shutting = true → s.blk.ldg.held = [] → p.req.isShutdown = false → 1 < p.pages.length →
          b.ldg.prog = none ∧ b.ldg.queue = s.blk.ldg.queue.filter LdgReq.isShutdown ∧
          b.fld Reg.LDG_CNT_C 15 0 = min (s.blk.fld Reg.LDG_CNT_C 15 0 + 1) 0xFFFF) ∧
        b.rd Reg.LDG_UPAGES = BitVec.ofNat 32 (freePages (udirOf b).1) ∧
        b.core = { s.blk with ldg := b.ldg, seq := b.seq, svc := b.svc }.core)) ∧
    (s.blk.reaches .host = true → s.blk.bud.down = false →
      ∀ k, k = s.blk.fld Reg.LDG_UKIND 7 0 →
        (0x80 ≤ k → k ≤ 0xBF → (udirEntry (udirOf s.blk).1 k).2.2 = true →
          Ends .ufree s (fun b =>
            b.core = { s.blk with ldg := Queued s.blk (.ufree (BitVec.ofNat 8 k)) }.core ∧
            SameRegs s.blk b [Reg.LDG_CNT_C])) ∧
        (k < 0x80 ∨ 0xBF < k ∨ (udirEntry (udirOf s.blk).1 k).2.2 = false →
          Ends .ufree s (fun b => b.core = s.blk.core ∧ SameRegs s.blk b []))) ∧
    (3 ≤ s.blk.stage_ →
      (s.blk.countersDue = true →
        Ends .countersPeriod s (fun b =>
          b.core = { s.blk with ldg :=
            { Queued s.blk (.twin 0x02 0 (countersBody s.blk)) with lastCounters := s.blk.now } }.core ∧
          SameRegs s.blk b [Reg.LDG_CNT_C])) ∧
      (s.blk.ldg.wantJsum = true → s.blk.jsumDue = true →
        Ends .jsumWrite s (fun b =>
          b.core = { s.blk with ldg :=
            { Queued s.blk (.twin 0x04 0 (jsumBody s.blk)) with lastJsum := some s.blk.now, wantJsum := false } }.core ∧
          SameRegs s.blk b [Reg.LDG_CNT_C])))

/-- The service port as a target. SSEL0 falling begins a transaction; a header with reserved bits set is bad and
counted, another sets direction, increment and offset; a written word is a register write of the service port; a read
word is shifted out and the next one fetched, or ones where it is not ready, which is counted; SSEL0 rising ends the
transaction and counts a partial word or header, and TGT_EN cleared ends one without counting. Before the clocks run
only the ball's level is kept. -/
def Obligations.ServiceTarget : Prop :=
  ∀ (s : State) (r : Requester) (sck inc : Bool) (w : Word) (n : Fin 32) (g : Tgt) (off ctl : BitVec 21),
    (s.blk.stage_ < 2 → ∀ (c : Instr) (low : Bool), (c, low) ∈ [(Instr.ssel0Fall sck, true), (.ssel0Rise n, false)] →
      Ends c s (fun b => b.core = { s.blk with
        svc := { s.blk.svc with sel := low, tgt := none, idleFrom := s.blk.now } }.core ∧ SameRegs s.blk b [])) ∧
    (s.blk.reaches r = true → s.blk.bud.down = false → ctl.toNat = Reg.SVC_CTL → Prevails r Reg.SVC_CTL s →
      Ends (.registerWrite r ctl w (.bytes 0xF)) s (fun b => b.rd Reg.SVC_CTL = written Reg.SVC_CTL (s.blk.rd Reg.SVC_CTL)
          (s.blk.upd Reg.SVC_CTL) w ∧
        b.svc.tgt = (if bitOf w 0 then s.blk.svc.tgt else none) ∧ b.svc.sel = s.blk.svc.sel ∧
        b.core = { s.blk with svc := b.svc, ldg := b.ldg }.core ∧ SameRegs s.blk b [Reg.SVC_CTL])) ∧
    (2 ≤ s.blk.stage_ →
    (s.blk.svc.sel = false →
      Ends (.ssel0Fall sck) s (fun b => b.svc.sel = true ∧ b.svc.mode3 = sck ∧ b.bit Reg.SVC_STAT 4 = true ∧
        b.svc.tgt = (if s.blk.bit Reg.SVC_CTL 0 = true ∧ s.blk.svc.quietTo ≤ s.blk.now then some {} else none) ∧
        b.core = { s.blk with svc := b.svc }.core ∧ SameRegs s.blk b [Reg.SVC_STAT])) ∧
    (s.blk.svc.tgt = some g → g.hdr = none → g.bad = false →
      (fieldOf w 29 21 = 0 → fieldOf w 1 0 = 0 →
        Ends (.targetHeader w) s (fun b => .sdo 0 ∈ b.out ∧
          b.svc.tgt = some { g with
            hdr := some (bitOf w 31, bitOf w 30, fieldOf w 20 0)
            next := some (BitVec.ofNat 32 (0x5A000000 + (s.blk.wordAt .svc Reg.SVC_STAT).toNat % 256)) } ∧
          b.core = { s.blk with svc := b.svc }.core ∧ SameRegs s.blk b [])) ∧
      (fieldOf w 29 21 ≠ 0 ∨ fieldOf w 1 0 ≠ 0 →
        Ends (.targetHeader w) s (fun b => .sdo 0 ∈ b.out ∧ b.svc.tgt = some { g with bad := true } ∧
          b.bit Reg.SVC_STAT 5 = true ∧
          b.fld Reg.SVC_CNT_B 31 16 = min (s.blk.fld Reg.SVC_CNT_B 31 16 + 1) 0xFFFF ∧
          b.core = { s.blk with svc := b.svc }.core ∧ SameRegs s.blk b [Reg.SVC_STAT, Reg.SVC_CNT_B]))) ∧
    (s.blk.svc.tgt = some g → g.bad = true →
      ∀ c ∈ [Instr.targetWriteWord w, .targetReadWord],
        Ends c s (fun b => .sdo 0 ∈ b.out ∧ b.core = s.blk.core ∧ SameRegs s.blk b [])) ∧
    (s.blk.svc.tgt = some g → g.bad = false → g.hdr = some (false, inc, off.toNat) →
      (∃ t, exec (.targetWriteWord w) s = .next t ∧ t.pending = s.pending ∧
        exec (.registerWrite .svc off w (.bytes 0xF)) { s with
          blk := setTgt { g with hdr := some (false, inc, nextOff inc off.toNat) } (s.blk.emit (.sdo 0)) } = .next t) ∧
      (off.toNat = Reg.SVC_AMB_CMD → s.blk.bud.down = false →
        Ends (.targetWriteWord w) s (fun b => .sdo 0 ∈ b.out ∧
          b.rd Reg.SVC_AMB_CMD = written Reg.SVC_AMB_CMD (s.blk.rd Reg.SVC_AMB_CMD) (s.blk.upd Reg.SVC_AMB_CMD) w ∧
          b.svc.tgt = some { g with hdr := some (false, inc, nextOff inc off.toNat) } ∧
          b.core = { s.blk with svc := b.svc }.core ∧ SameRegs s.blk b [Reg.SVC_AMB_CMD]))) ∧
    (s.blk.svc.tgt = some g → g.bad = false → g.hdr = some (true, inc, off.toNat) →
      (∀ v, g.next = some v → (inLedger off.toNat && s.blk.ldg.prog.isSome) = false →
        Ends .targetReadWord s (fun b => .sdo v ∈ b.out ∧
          b.svc.tgt = some { g with hdr := some (true, inc, nextOff inc off.toNat),
                                    next := some (s.blk.readReg s.prev .svc off.toNat) } ∧
          (s.blk.journalLost off.toNat = false → b.ldg = s.blk.ldg) ∧
          b.core = { s.blk with svc := b.svc, shadow := b.shadow, ldg := b.ldg }.core)) ∧
      (∀ v, g.next = some v → (inLedger off.toNat && s.blk.ldg.prog.isSome) = true →
        Ends .targetReadWord s (fun b => .sdo v ∈ b.out ∧
          b.svc.tgt = some { g with hdr := some (true, inc, nextOff inc off.toNat), next := none } ∧
          b.core = { s.blk with svc := b.svc, ldg := { s.blk.ldg with
            held := s.blk.ldg.held ++ [Held.read .svc off.toNat] } }.core ∧ SameRegs s.blk b [])) ∧
      (g.next = none →
        Ends .targetReadWord s (fun b => .sdo 0xFFFFFFFF ∈ b.out ∧ b.bit Reg.SVC_STAT 6 = true ∧
          b.fld Reg.SVC_CNT_B 15 0 = min (s.blk.fld Reg.SVC_CNT_B 15 0 + 1) 0xFFFF ∧
          b.svc.tgt = some { g with late := true } ∧
          b.core = { s.blk with svc := b.svc }.core ∧ SameRegs s.blk b [Reg.SVC_STAT, Reg.SVC_CNT_B]))) ∧
    (s.blk.svc.sel = true →
      Ends (.ssel0Rise n) s (fun b => b.svc.sel = false ∧ b.svc.tgt = none ∧ b.svc.idleFrom = s.blk.now ∧
        b.bit Reg.SVC_STAT 4 = false ∧
        (s.blk.svc.tgt = none → b.rd Reg.SVC_CNT_A = s.blk.rd Reg.SVC_CNT_A) ∧
        (s.blk.svc.tgt = some g → b.fld Reg.SVC_CNT_A 15 0 =
          (if n.val ≠ 0 ∨ (g.hdr = none ∧ g.bad = false) then min (s.blk.fld Reg.SVC_CNT_A 15 0 + 1) 0xFFFF
          else s.blk.fld Reg.SVC_CNT_A 15 0)) ∧
        b.ldg.queue = s.blk.ldg.queue ∧ b.ldg.bytes = s.blk.ldg.bytes ∧
        b.core = { s.blk with svc := b.svc, ldg := b.ldg }.core ∧ SameRegs s.blk b [Reg.SVC_STAT, Reg.SVC_CNT_A])))

/-- The transfer that GO asks for (R326). -/
abbrev GoTransfer (a : Block) : Xfer :=
  let n := wlenOf (a.fld Reg.SVC_MCTL 13 8)
  { poll := false, st := .waiting, collisions := 0, sel := a.fld Reg.SVC_MCTL 1 0, mode := a.fld Reg.SVC_MCTL 3 2, wlen := n,
    div := max 4 (a.fld Reg.SVC_MCTL 31 24),
    words := (List.range (a.fld Reg.SVC_MCTL 19 16 + 1)).map fun k => lowBits n (a.rd (Reg.SVC_MTX k)) }

/-- The transfer of an ambient poll (R328, R329): the sensor's select, 0 acting as 1, its mode and word length, the
command and a word of zeros, at the controller's divider. -/
abbrev PollTransfer (a : Block) : Xfer :=
  let n := wlenOf (a.fld Reg.SVC_AMB_CTL 13 8)
  { poll := true, st := .waiting, collisions := 0, sel := max 1 (a.fld Reg.SVC_AMB_CTL 2 1), mode := a.fld Reg.SVC_AMB_CTL 4 3,
    wlen := n, div := max 4 (a.fld Reg.SVC_MCTL 31 24), words := [lowBits n (a.rd Reg.SVC_AMB_CMD), 0] }

/-- The service port as a controller. GO without a target is an error, and starts or queues a transfer where the role is
on and none is under way; a waiting transfer takes the bus after its idle time, a collided one after its back-off too; a
collision is counted, and ends the transfer at RETRY_MAX; a transfer's words are received, and the transfer that waits
begins, a poll first; the ambient sensor is polled at its interval, before a GO that still waits for the bus, and
delivers its reading, unless all bits are alike; a host's value of the same cycle stands. That GO with SSEL 0 sets MFAIL
always, and that a transfer is that of the registers as it is asked for, is log entry 76 (DEDUCED); words no device
drives read as ones is 75 (DESIGN CHOICE). -/
def Obligations.ServiceController : Prop :=
  ∀ (s : State) (words : List Word) (x : Xfer),
    (s.blk.reaches .host = true → s.blk.bud.down = false →
      (s.blk.fld Reg.SVC_MCTL 1 0 = 0 →
        Ends .go s (fun b => b.bit Reg.SVC_STAT 2 = true ∧ b.core = s.blk.core ∧ SameRegs s.blk b [Reg.SVC_STAT])) ∧
      (s.blk.fld Reg.SVC_MCTL 1 0 ≠ 0 → s.blk.bit Reg.SVC_STAT 0 = true ∨ s.blk.bit Reg.SVC_CTL 1 = false →
        Ends .go s (fun b => b.core = s.blk.core ∧ SameRegs s.blk b [])) ∧
      (s.blk.fld Reg.SVC_MCTL 1 0 ≠ 0 → s.blk.bit Reg.SVC_STAT 0 = false → s.blk.bit Reg.SVC_CTL 1 = true →
        Ends .go s (fun b => b.bit Reg.SVC_STAT 0 = true ∧
          b.svc = (if s.blk.svc.xfer.isSome then { s.blk.svc with goWaits := some (GoTransfer s.blk) }
            else { s.blk.svc with xfer := some (GoTransfer s.blk) }) ∧
          b.core = { s.blk with svc := b.svc }.core ∧ SameRegs s.blk b [Reg.SVC_STAT]))) ∧
    (2 ≤ s.blk.stage_ → s.blk.svc.xfer = some x →
      (∀ (c : Instr) (extra : Nat),
        (c = .busIdleExpiry ∧ x.st = .waiting ∧ extra = 0) ∨
          (c = .backoffExpiry ∧ x.st = .backoff ∧ extra = s.blk.fld Reg.SVC_CTL 23 16) →
        s.blk.busIdle extra = true →
        Ends c s (fun b => b.svc = { s.blk.svc with xfer := some { x with st := .driving } } ∧
          .spi x.sel x.mode x.wlen x.div x.words ∈ b.out ∧
          b.core = { s.blk with svc := b.svc }.core ∧ SameRegs s.blk b [])) ∧
      (x.st = .driving → s.blk.svc.sel = true →
        Ends .collision s (fun b => b.bit Reg.SVC_STAT 3 = true ∧
          b.fld Reg.SVC_CNT_A 31 16 = min (s.blk.fld Reg.SVC_CNT_A 31 16 + 1) 0xFFFF ∧
          (x.collisions + 1 < max 1 (s.blk.fld Reg.SVC_CTL 31 28) →
            b.svc = { s.blk.svc with xfer := some { x with st := .backoff, collisions := x.collisions + 1 } } ∧
            b.core = { s.blk with svc := b.svc }.core ∧ SameRegs s.blk b [Reg.SVC_STAT, Reg.SVC_CNT_A]) ∧
          (max 1 (s.blk.fld Reg.SVC_CTL 31 28) ≤ x.collisions + 1 →
            b.bit Reg.SVC_STAT 2 = true ∧ (x.poll = false → b.bit Reg.SVC_STAT 0 = false) ∧
            (x.poll = true → b.fld Reg.SVC_CNT_C 15 0 = min (s.blk.fld Reg.SVC_CNT_C 15 0 + 1) 0xFFFF) ∧
            b.svc.idleFrom = s.blk.now ∧ b.core = { s.blk with svc := b.svc, free := b.free }.core))) ∧
      (x.st = .driving → s.blk.svc.sel = false →
        Ends (.transferDone words) s (fun b =>
          b.svc = (match s.blk.svc.pollWaits, s.blk.svc.goWaits with
            | some p, _ => { s.blk.svc with xfer := some p, pollWaits := none, idleFrom := s.blk.now }
            | none, g => { s.blk.svc with xfer := g, goWaits := none, idleFrom := s.blk.now }) ∧
          (x.poll = false → x.words.length ≤ 16 → b.bit Reg.SVC_STAT 0 = false ∧ b.bit Reg.SVC_STAT 1 = true ∧
            (∀ k < x.words.length, b.rd (Reg.SVC_MRX k) = lowBits x.wlen (words.getD k 0xFFFFFFFF)) ∧
            (∀ k, x.words.length ≤ k → k < 16 → b.rd (Reg.SVC_MRX k) = s.blk.rd (Reg.SVC_MRX k)) ∧
            b.bud = s.blk.bud ∧ SameRegs s.blk b (Reg.SVC_STAT :: (List.range 16).map Reg.SVC_MRX)) ∧
          (x.poll = true →
            ∀ v, v = (words.getD 1 0xFFFFFFFF).toNat % 2 ^ x.wlen →
              (v = 0 ∨ v = 2 ^ x.wlen - 1 →
                b.bit Reg.SVC_STAT 7 = true ∧
                b.fld Reg.SVC_CNT_C 15 0 = min (s.blk.fld Reg.SVC_CNT_C 15 0 + 1) 0xFFFF ∧ b.bud = s.blk.bud ∧
                SameRegs s.blk b [Reg.SVC_STAT, Reg.SVC_CNT_C]) ∧
              (v ≠ 0 → v ≠ 2 ^ x.wlen - 1 →
                ∀ e, e = ambientOf x.wlen (s.blk.fld Reg.SVC_AMB_CTL 19 16) v →
                  b.rd Reg.SVC_AMB_LAST = BitVec.ofInt 32 e ∧
                  (s.blk.bud.ambHost ≠ some s.blk.now →
                    b.bud = { s.blk.bud with amb := some (e, s.blk.now) } ∧ b.bit Reg.THM_STAT 4 = false) ∧
                  (s.blk.bud.ambHost = some s.blk.now →
                    b.bud = s.blk.bud ∧ b.rd Reg.THM_STAT = s.blk.rd Reg.THM_STAT) ∧
                  b.fld Reg.SVC_CNT_C 31 16 = min (s.blk.fld Reg.SVC_CNT_C 31 16 + 1) 0xFFFF ∧
                  SameRegs s.blk b [Reg.SVC_AMB_LAST, Reg.SVC_CNT_C, Reg.THM_STAT])) ∧
          b.core = { s.blk with svc := b.svc, bud := b.bud }.core))) ∧
    (2 ≤ s.blk.stage_ → s.blk.bit Reg.SVC_AMB_CTL 0 = true → s.blk.bit Reg.SVC_CTL 1 = true →
      ∀ due, due = s.blk.svc.pollFrom + max 1 (s.blk.fld Reg.SVC_AMB_CTL 31 20) * tuMs → due ≤ s.blk.now →
      Ends .ambientPoll s (fun b =>
        (s.blk.svc.xfer = none → b.svc = { s.blk.svc with pollFrom := due, xfer := some (PollTransfer s.blk) }) ∧
        (s.blk.svc.xfer = some x → x.poll = true → b.svc = { s.blk.svc with pollFrom := due }) ∧
        (s.blk.svc.xfer = some x → x.poll = false → x.st = .waiting →
          b.svc = { s.blk.svc with pollFrom := due, xfer := some (PollTransfer s.blk), goWaits := some x }) ∧
        (s.blk.svc.xfer = some x → x.poll = false → x.st ≠ .waiting →
          b.svc = { s.blk.svc with pollFrom := due, pollWaits := some (PollTransfer s.blk) }) ∧
        b.core = { s.blk with svc := b.svc }.core ∧ SameRegs s.blk b []))

/-- Frames of a pair. A heartbeat leaves every 10 µs; any frame heard counts as one; a heartbeat gives the round trip
and the partner's join state; at a standby a WRITE applies the write, ARM, CANCEL and EXEC arm, free and confirm an
entry, a BULK item copies its part, HANDOVER sets the boundaries, and a FAULT takes over; a digest or line CRCs that
differ are reported; a bad frame is counted and answered by NAK. Frames carry SEQ and ACK, in a header of 16 bytes
before the body, a CRC-32C and zeros to whole groups of 16; a NAK replays those not acknowledged, and after 4 replays
takes the link down (log entry 132, DESIGN CHOICE: how replays count). A WRITE applies as it arrives, in the order in
which its tick's writes were made (log entry 150, DEDUCED); that a FAULT frame counts DARK from half the round trip
before it is log entry 154 (DEDUCED); what a copied position and strike group hold is log entry 153 (DESIGN CHOICE). -/
def Obligations.PairFrames : Prop :=
  ∀ (s : State) (n : Fin 8) (val : Word) (ns : Byte) (a : Nat) (x : Byte) (i : ActIx) (af : ArmFrame) (f : HbFrame)
    (d : DigestFrame) (lc : LineCrcFrame) (bs : List (BitVec 16)) (th tk : BitVec 64) (sq : BitVec 16) (r : Requester) (base hwm : Pos48)
    (frozen : Option Int) (slip : Int) (last idle : Option Nat),
    s.blk.unitsOn = true →
    (s.blk.member = true → s.blk.bit Reg.PAIR_STAT 4 = true →
      (s.blk.pair.lastHb + 10 * tuUs ≤ s.blk.now →
        Ends .heartbeatSend s (fun b =>
          (∃ g : HbFrame, ∃ h : PairHdr, h = s.blk.trail.link.header (.heartbeat g) s.blk.tim.ns ∧
            .pairFrame h (.heartbeat g) (h.groups (hbBody g)) ∈ b.out ∧ h.type = 1 ∧ h.len = 32 ∧
            h.seq = s.blk.trail.link.last + 1 ∧ h.ack = s.blk.trail.link.heard ∧ h.bytes.length = 16 ∧
            (h.groups (hbBody g)).length = 4 ∧ (∀ x ∈ h.groups (hbBody g), x.length = 16) ∧
            b.trail.link = s.blk.trail.link.sent (.heartbeat g) ∧
            g.nak = s.blk.trail.link.nak ∧ g.ack = s.blk.trail.link.heard ∧ g.role.val = s.blk.role ∧
            g.join.val = s.blk.joinSt ∧ g.step.val = s.blk.budStep % 5 ∧ g.sent = s.blk.tim.ns ∧
              g.seqs = (List.range 8).map s.blk.lastSeq ∧
            (s.blk.pair.peerSent = none → g.echo = 0)) ∧
          b.core = { s.blk with pair := { s.blk.pair with lastHb := s.blk.now } }.core ∧
          SameRegs s.blk b [])) ∧
      Ends .pairFrameError s (fun b =>
        b.fld Reg.PAIR_CNT_B 31 16 = min (s.blk.fld Reg.PAIR_CNT_B 31 16 + 1) 0xFFFF ∧
        b.trail.link = { s.blk.trail.link with nak := true } ∧ b.core = s.blk.core ∧
        SameRegs s.blk b [Reg.PAIR_CNT_B])) ∧
    (s.blk.hears = true →
      Ends (.heartbeat f) s (fun b => b.pair.lastRx = s.blk.now ∧ b.bit Reg.PAIR_STAT 5 = true ∧
        b.pair.peerRole = f.role.val ∧ b.pair.peerStep = f.step.val ∧
          b.pair.peerSent = some (f.sent.toNat, (s.blk.instAt f.sub.val).t1) ∧
        (let l := s.blk.trail.link.acked f.ack
         b.fld Reg.PAIR_CNT_B 15 0 = (if f.nak && !l.spent then min (s.blk.fld Reg.PAIR_CNT_B 15 0 + 1) 0xFFFF
            else s.blk.fld Reg.PAIR_CNT_B 15 0) ∧
         (f.nak = false → b.trail.link = { l with heard := l.heard + 1 }) ∧
         (f.nak = true → l.spent = false → ∀ x ∈ l.waiting, ∃ h : PairHdr,
           h = { type := x.frame.type, replayed := true, nak := l.nak, len := BitVec.ofNat 16 x.body.length, seq := x.seq,
                 ack := l.heard + 1, sent := s.blk.tim.ns } ∧
           .pairFrame h x.frame (h.groups x.body) ∈ b.out) ∧
         (f.nak = true → l.spent = true → b.bit Reg.PAIR_STAT 4 = false)) ∧
        (f.echo ≠ 0 → b.rd Reg.PAIR_RTT = BitVec.ofInt 32 (satS 32 (((s.blk.instAt f.sub.val).t1 : Int) - f.echo.toNat))) ∧
        b.pair.peerJoin = f.join.val ∧
        (s.blk.role = 1 → s.blk.pair.recover = none → s.blk.released = false →
          b.role = 1 ∧ b.joinSt =
            (if s.blk.joinSt = 1 ∧ f.join.val = 2 then 2
            else if s.blk.joinSt ≠ 0 ∧ f.join.val = 0 ∧ (s.blk.pair.peerJoin ≠ 0 ∨ s.blk.joinSt = 2) then 0
            else s.blk.joinSt)) ∧
        (s.blk.pair.recover = none → s.blk.role = 0 ∨ (s.blk.role = 2 ∧ s.blk.joinSt = 0) → f.role.val = 1 → f.join.val = 1 →
          s.blk.pair.joinOver = false → b.role = 2 ∧ b.joinSt = 1 ∧ b.pair.bulkDone = false) ∧
        (s.blk.pair.recover = none → s.blk.role = 2 → f.role.val = 1 → f.join.val = 0 → b.role = 2 ∧ b.joinSt = 0) ∧
        b.pos = s.blk.pos ∧ b.stk = s.blk.stk ∧ b.act = s.blk.act ∧ b.hbm = s.blk.hbm ∧ b.heads = s.blk.heads) ∧
      (∀ o, s.blk.pair.own.find? (sameSubject d) = some o → o.value ≠ d.value → s.blk.bit Reg.PAIR_STAT 8 = false →
        Ends (.digest d) s (fun b => b.bit Reg.PAIR_STAT 8 = true ∧ b.bit Reg.FLT_SUM 14 = true ∧
          b.rd Reg.PAIR_DIV = BitVec.ofNat 32 (o.kind.val * 256 + o.head.toNat) ∧
          b.rd Reg.PAIR_DIV_FRAME = o.frame ∧ b.rd Reg.PAIR_DIV_LINE = 0xFFFF ∧
          b.pair.theirs = (d :: s.blk.pair.theirs).take 64 ∧
          b.core = { s.blk with pair := b.pair, ldg := b.ldg }.core)) ∧
      (s.blk.pair.own.find? (sameSubject d) = none ∨
          (∃ o, s.blk.pair.own.find? (sameSubject d) = some o ∧ o.value = d.value) →
        Ends (.digest d) s (fun b => b.pair.theirs = (d :: s.blk.pair.theirs).take 64 ∧
          b.core = { s.blk with pair := b.pair }.core ∧ SameRegs s.blk b [Reg.PAIR_STAT])) ∧
      (∀ o l, s.blk.bit Reg.PAIR_STAT 8 = true → s.blk.num Reg.PAIR_DIV = lc.kind.val * 256 + lc.head.toNat →
        s.blk.rd Reg.PAIR_DIV_FRAME = lc.frame →
        (s.blk.pair.ownCrcs.find? fun o => o.kind == lc.kind && o.head == lc.head && o.frame == lc.frame) = some o →
        firstDiffer o.crcs lc.crcs = some l → s.blk.fld Reg.PAIR_DIV_LINE 15 0 = 0xFFFF →
        Ends (.linecrc lc) s (fun b => b.rd Reg.PAIR_DIV_LINE = l.setWidth 32 ∧
          b.core = { s.blk with pair := { s.blk.pair with lastRx := s.blk.now } }.core ∧
          SameRegs s.blk b [Reg.PAIR_DIV_LINE, Reg.PAIR_STAT]))) ∧
    (s.blk.hears = true → s.blk.standby = true →
      ∀ p, p = { s.blk.pair with lastRx := s.blk.now } →
      (Prevails r (Reg.POS_FILT n.val) s →
        Ends (.write (.reg r tk (BitVec.ofNat 21 (Reg.POS_FILT n.val)) val)) s (fun b =>
          b.rd (Reg.POS_FILT n.val) = written (Reg.POS_FILT n.val) (s.blk.rd (Reg.POS_FILT n.val))
            (s.blk.upd (Reg.POS_FILT n.val)) val ∧
          b.bit Reg.PAIR_STAT 5 = true ∧ b.core = { s.blk with pair := p }.core ∧
          SameRegs s.blk b [Reg.POS_FILT n.val, Reg.PAIR_STAT])) ∧
      Ends (.write (.increment ns val)) s (fun b => b.fld Reg.TIM_INC_NS 7 0 = ns.toNat ∧ b.rd Reg.TIM_INC_FR = val ∧
        b.core = { s.blk with pair := p, tim := { s.blk.tim with incWritten := true } }.core ∧
        SameRegs s.blk b [Reg.TIM_INC_NS, Reg.TIM_INC_FR, Reg.PAIR_STAT]) ∧
      (a < 2 ^ 34 → s.blk.b2Denied a = false →
        Ends (.write (.hbm a [some x])) s (fun b => b.hbmByte a = x ∧
          b.core = { s.blk with pair := p, hbm := b.hbm, heads := b.heads, bad := b.bad }.core)) ∧
      Ends (.bulk (.reg (BitVec.ofNat 21 (Reg.POS_FILT n.val)) val)) s (fun b =>
        b.rd (Reg.POS_FILT n.val) = val ∧ b.core = { s.blk with pair := p }.core ∧
        SameRegs s.blk b [Reg.POS_FILT n.val, Reg.PAIR_STAT]) ∧
      Ends (.bulk (.hbm a [x])) s (fun b => b.hbmByte a = x ∧ (∀ c, c ≠ a → b.hbmByte c = s.blk.hbmByte c) ∧
        b.core = { s.blk with pair := p, hbm := b.hbm, bad := b.bad }.core ∧ SameRegs s.blk b [Reg.PAIR_STAT]) ∧
      Ends (.bulk (.group n sq last idle)) s (fun b =>
        b.grp n = { s.blk.grp n with seq := sq, recs := (if (s.blk.grp n).seq = sq then (s.blk.grp n).recs else []),
                                     last := last.map s.blk.refNear, idle := idle.map s.blk.refNear } ∧
        (∀ g, g ≠ n.val → b.grp g = s.blk.grp g) ∧
        b.core = { s.blk with pair := p, stk := b.stk }.core ∧ SameRegs s.blk b [Reg.PAIR_STAT]) ∧
      (∀ newer : Nat, newer = (match last with
          | some t => ((s.blk.ch n).run.filter fun x => decide (t + 128 < (s.blk.instOf x).t16)).length
          | none => 0) → ∀ d : Int, d = (if (s.blk.ch n).fwd then (newer : Int) * 256 else -((newer : Int) * 256)) →
        Ends (.bulk (.position n base frozen slip hwm last)) s (fun b =>
          (b.ch n).base = base + BitVec.ofInt 48 d ∧ (b.ch n).slip = slip + d ∧ (b.ch n).carried = 0 ∧
          (b.ch n).hwm = (if 0 < posDiff (base + BitVec.ofInt 48 d) hwm then base + BitVec.ofInt 48 d else hwm) ∧
          (∀ k : Chan, k ≠ n → b.ch k = s.blk.ch k) ∧
          b.core = { s.blk with pair := p, pos := b.pos }.core ∧ SameRegs s.blk b [Reg.PAIR_STAT])) ∧
      Ends (.bulk .done) s (fun b => b.core = { s.blk with pair := { p with bulkDone := true } }.core ∧
        SameRegs s.blk b [Reg.PAIR_STAT]) ∧
      (∀ c ∈ [Instr.armFrame af, .bulk (.action af)], (s.blk.actE af.i).st = 0 →
        Ends c s (fun b => (b.actE af.i).st = 1 ∧ (b.actE af.i).key = af.key ∧ (b.actE af.i).ctrl = af.ctrl ∧
          (b.actE af.i).arg = af.arg ∧ (b.actE af.i).writer = af.writer.val ∧ (b.actE af.i).start = some af.start ∧
          (∀ j, j ≠ af.i.val → b.actE j = s.blk.actE j) ∧
          b.core = { s.blk with pair := p, act := b.act, bad := b.bad }.core ∧ SameRegs s.blk b [Reg.PAIR_STAT])) ∧
      ((s.blk.actE i).st = 1 →
        Ends (.cancelFrame i) s (fun b => (b.actE i).st = 0 ∧ (b.actE i).jst = 5 ∧
          (∀ j, j ≠ i.val → b.actE j = s.blk.actE j) ∧
          b.core = { s.blk with pair := p, act := b.act, vrd := b.vrd }.core) ∧
        ((s.blk.actE i).held = false →
          Ends (.exec i) s (fun b => (b.actE i).st = 1 ∧ (b.actE i).conf = true ∧
            (∀ j, j ≠ i.val → b.actE j = s.blk.actE j) ∧
            b.core = { s.blk with pair := p, act := b.act }.core ∧ SameRegs s.blk b [Reg.PAIR_STAT])) ∧
        ((s.blk.actE i).held = true → (s.blk.actE i).reached.isSome = true →
          (s.blk.actE i).kind = 1 ∨ (s.blk.actE i).kind = 2 →
          Ends (.exec i) s (fun b => (b.actE i).st = 0 ∧
            b.bit Reg.ACT_EO_LEVEL (s.blk.actE i).target = decide ((s.blk.actE i).kind = 1) ∧
            b.core = { s.blk with pair := p, act := b.act, vrd := b.vrd }.core))) ∧
      Ends (.handoverFrame bs th) s (fun b =>
        b.core = { s.blk with pair := { p with handAt := some th.toNat }, bounds := some (bs.map some),
                              giver := false }.core ∧
        SameRegs s.blk b [Reg.PAIR_STAT]) ∧
      (s.blk.mayTakeOver = true →
        Ends .faultFrame s (fun b => b.role = 1 ∧ b.joinSt = 0 ∧ b.rd Reg.PAIR_TO_CAUSE = 3 ∧
          b.bit Reg.PAIR_STAT 12 = true ∧ b.bit Reg.FLT_SUM 16 = true ∧ b.bounds = none ∧ b.released = false ∧
          b.fld Reg.PAIR_CNT_A 31 16 = min (s.blk.fld Reg.PAIR_CNT_A 31 16 + 1) 0xFFFF ∧
          b.fld Reg.PAIR_CNT_A 15 0 = min (s.blk.fld Reg.PAIR_CNT_A 15 0 + ((List.range 8).map fun g =>
            s.blk.strikesAfter g (s.blk.ns - (s.blk.snum Reg.PAIR_DEST / 2).toNat)).sum) 0xFFFF ∧
          b.pos = s.blk.pos ∧ b.stk = s.blk.stk ∧ b.hbm = s.blk.hbm)) ∧
      (s.blk.mayTakeOver = false →
        Ends .faultFrame s (fun b => b.core = { s.blk with pair := p }.core ∧ SameRegs s.blk b [Reg.PAIR_STAT])))

/-- Roles of a pair. A link that comes up with the pair's other member gives a member without a role the active or the
standby role; a member alone for 1 s is active unless the fence forbids it; a lost heartbeat makes a standby in step
take over; a handover changes the roles at its time; a join, its completion and a leave set JOIN; the standby steps its
time toward the partner's every 1 ms; the identity is saved in the ledger with its body's fields. That a member without
a role becomes active where its partner reports ROLE 2 is log entry 160 (DEDUCED). -/
def Obligations.PairRoles : Prop :=
  ∀ (s : State) (f : PartnerId),
    (s.blk.unitsOn = true → s.blk.member = true →
      Ends .pairLinkDown s (fun b => b.bit Reg.PAIR_STAT 4 = false ∧
        b.core = { s.blk with pair := { s.blk.pair with peerStep := 0 } }.core ∧ SameRegs s.blk b [Reg.PAIR_STAT]) ∧
      (s.blk.validPartner f = false →
        Ends (.pairLinkUp f) s (fun b => b.bit Reg.PAIR_STAT 4 = true ∧ b.bit Reg.PAIR_STAT 13 = true ∧
          b.role = s.blk.role ∧ b.core = { s.blk with pair := { s.blk.pair with partner := none } }.core ∧
          SameRegs s.blk b [Reg.PAIR_STAT])) ∧
      (s.blk.validPartner f = true →
        Ends (.pairLinkUp f) s (fun b => b.bit Reg.PAIR_STAT 4 = true ∧ b.pair.partner = some f ∧
          b.pair.lastRx = s.blk.now ∧
          (s.blk.role = 0 → b.role = (if f.role.val = 1 ∨ (f.role.val = 0 ∧ s.blk.preferred f = false) then 2 else 1)) ∧
          (s.blk.role ≠ 0 → b.role = s.blk.role) ∧
          (b.role = 1 → f.role.val = 0 → b.joinSt = 1 ∧ b.pair.bulkOwed = true ∧ b.pair.bulkAt = 0) ∧
          b.core = { s.blk with pair := b.pair, seq := b.seq }.core)) ∧
      (s.blk.bit Reg.PAIR_STAT 5 = true →
        s.blk.pair.lastRx + (s.blk.fld Reg.PAIR_CTL 13 12 + 1) * 10 * tuUs ≤ s.blk.now →
        Ends .heartbeatLoss s (fun b => b.bit Reg.PAIR_STAT 5 = false ∧
          (s.blk.mayTakeOver = true → s.blk.fenceLow = true →
            b.role = 1 ∧ b.joinSt = 0 ∧ b.rd Reg.PAIR_TO_CAUSE = 1 ∧ b.bit Reg.FLT_SUM 16 = true) ∧
          (s.blk.mayTakeOver = true → s.blk.fenceLow = false →
            b.role = 2 ∧ b.bit Reg.PAIR_STAT 9 = true ∧ b.bit Reg.FLT_SUM 15 = true) ∧
          (s.blk.standby = true → s.blk.joinSt = 1 → b.role = 0 ∧ b.joinSt = 0) ∧
          (s.blk.standby = false → b.core = s.blk.core ∧ SameRegs s.blk b [Reg.PAIR_STAT]))) ∧
      (∀ t, s.blk.pair.enAt = some t → s.blk.role = 0 → s.blk.pair.partner = none → t + 1000 * tuMs ≤ s.blk.now →
        Ends .roleTimeout s (fun b => b.pair.enAt = none ∧
          (s.blk.fenceLow = true → b.role = 1) ∧
          (s.blk.fenceLow = false → b.role = 0 ∧ b.bit Reg.PAIR_STAT 9 = true ∧ b.bit Reg.FLT_SUM 15 = true) ∧
          b.core = { s.blk with pair := b.pair, ldg := b.ldg }.core)) ∧
      (∀ t, s.blk.pair.enAt = none → s.blk.pair.recover = some t → s.blk.role = 1 → t + 1000 * tuMs ≤ s.blk.now →
        Ends .roleTimeout s (fun b => b.role = 1 ∧
          b.core = { s.blk with pair := { s.blk.pair with recover := none }, released := false }.core ∧
          SameRegs s.blk b [Reg.PAIR_STAT])) ∧
      (s.blk.standby = true → s.blk.bit Reg.PAIR_STAT 5 = true → s.blk.pair.phaseAt + tuMs ≤ s.blk.now →
        Ends .pairPhaseStep s (fun b =>
          b.core = { s.blk with
            pair := { s.blk.pair with phaseAt := s.blk.now }
            tim := { s.blk.tim with
              steps := s.blk.tim.steps ++ [BitVec.ofInt 32 (clampI (-8) 8 (-s.blk.pair.theta))] } }.core ∧
          SameRegs s.blk b [])) ∧
      (∀ th, s.blk.pair.handAt = some th →
        (s.blk.giver = true → s.blk.role = 1 → th + 100 ≤ s.blk.ns →
          Ends .handoverBallDrive s (fun b => b.role = 2 ∧ b.pair.handAt = none ∧
            b.core = { s.blk with pair := b.pair, seq := b.seq }.core)) ∧
        (s.blk.giver = false → s.blk.role = 2 → th ≤ s.blk.ns + 100 →
          Ends .handoverBallDrive s (fun b => b.role = 1 ∧ b.pair.handAt = none ∧ b.rd Reg.PAIR_TO_CAUSE = 2 ∧
            b.bit Reg.PAIR_STAT 12 = true ∧ b.bit Reg.FLT_SUM 16 = true ∧ b.pos = s.blk.pos ∧ b.stk = s.blk.stk)) ∧
        ((s.blk.giver = true ∧ s.blk.role = 2 ∧ th + 100 ≤ s.blk.ns) ∨
            (s.blk.giver = false ∧ s.blk.role = 1 ∧ th ≤ s.blk.ns + 100) →
          Ends .handoverBallDrive s (fun b => b.role = s.blk.role ∧
            b.core = { s.blk with pair := { s.blk.pair with handAt := none } }.core ∧ SameRegs s.blk b []))) ∧
      (s.blk.standby = true → s.blk.joinSt = 1 → s.blk.pair.bulkDone = true →
        (∀ h < 24, s.blk.bound h = true → h ∈ s.blk.pair.joinSeen) →
        Ends .joinComplete s (fun b => b.joinSt = 2 ∧ b.role = 2 ∧ b.core = s.blk.core ∧
          SameRegs s.blk b [Reg.PAIR_STAT]))) ∧
    (s.blk.reaches .host = true → s.blk.bud.down = false →
      (s.blk.member = true → s.blk.role = 1 → s.blk.joinSt = 2 →
        Ends .handover s (fun b =>
          (∃ (h : PairHdr) (f : PFrame) (gs : List (List Byte)), .pairFrame h f gs ∈ b.out ∧ h.type = 7 ∧
            h.seq = s.blk.trail.link.last + 1 ∧
            f = .handover ((List.range 8).map s.blk.handBound) (BitVec.ofNat 64 (s.blk.ns + s.blk.leadNs))) ∧
          b.core = { s.blk with
            pair := { s.blk.pair with handAt := some (s.blk.ns + s.blk.leadNs) }
            bounds := some ((List.range 8).map fun g => some (s.blk.handBound g))
            giver := true }.core ∧
          SameRegs s.blk b [])) ∧
      (s.blk.hears = true → s.blk.role = 1 →
        s.blk.pair.peerRole = 0 ∨ (s.blk.pair.peerRole = 2 ∧ s.blk.joinSt = 0) →
        Ends .join s (fun b => b.joinSt = 1 ∧ b.role = 1 ∧
          b.core = { s.blk with pair := { s.blk.pair with bulkOwed := true, bulkAt := 0 } }.core ∧
          SameRegs s.blk b [Reg.PAIR_STAT])) ∧
      (s.blk.member = true →
        Ends .leave s (fun b => b.joinSt = 0 ∧ b.role = (if s.blk.role = 2 then 0 else s.blk.role) ∧
          b.pair.bulkOwed = false ∧ b.pair.joinOver = true ∧ b.core = { s.blk with pair := b.pair }.core ∧ SameRegs s.blk b [Reg.PAIR_STAT])) ∧
      Ends .idSave s (fun b => (∃ body : List Byte, body.length = 48 ∧
          body = leBytes 8 (s.blk.rd64 Reg.PAIR_ID_LO).toNat ++
            [BitVec.ofNat 8 (s.blk.fld Reg.PAIR_MEMBER 0 0), BitVec.ofNat 8 (s.blk.fld Reg.PAIR_CTL 1 1),
             BitVec.ofNat 8 (s.blk.fld Reg.PAIR_CTL 0 0 + 2 * s.blk.fld Reg.PAIR_CTL 7 7 + 4 * s.blk.fld Reg.PAIR_CTL 3 3),
             BitVec.ofNat 8 (s.blk.fld Reg.PAIR_CTL 11 8 + 16 * s.blk.fld Reg.PAIR_CTL 6 4)] ++
            leBytes 4 0 ++ leBytes 4 (s.blk.fld Reg.PAIR_CNT_A 31 16) ++ List.replicate 28 0 ∧
          b.ldg.queue = s.blk.ldg.queue ++ [.twin 0x03 0 body]) ∧
        b.core = { s.blk with ldg := b.ldg }.core ∧ SameRegs s.blk b [Reg.LDG_CNT_C]))

/-- Supplies and resets. A rail below its warning level is reported and counted, its recovery noted; POR#, a rail below
its reset level and SUP_CMD.COLD reset the whole device, SUP_CMD.WARM and a PERST# after the first release all but what
a warm reset keeps; before POWER_OK a rail below its level only delays it; a wrong key is refused; in shutdown WARM does
nothing and COLD acts only once the device has cooled; RELEASE makes the journal live again. -/
def Obligations.SuppliesAndResets : Prop :=
  ∀ (s : State) (r : Requester) (rail : Fin 8) (key : BitVec 16),
    (s.blk.reaches .host = true → s.blk.bud.down = false →
      Ends .release s (fun b => b.bit Reg.FLT_JNL_STAT 0 = false ∧ b.core = { s.blk with frozen := none, bad := b.bad }.core ∧
        SameRegs s.blk b [Reg.FLT_JNL_STAT])) ∧
    (s.blk.stage_ = 0 → ∀ c : Instr, c = .supplyWarning rail ∨ c = .supplyReset rail →
      Ends c s (fun b => b.bit Reg.SUP_STAT rail = true ∧ b.core = s.blk.core ∧ SameRegs s.blk b [Reg.SUP_STAT])) ∧
    (s.blk.stage_ ≠ 0 →
      (s.blk.bit Reg.SUP_STAT rail = false →
        Ends (.supplyWarning rail) s (fun b => b.bit Reg.SUP_STAT rail = true ∧ b.bit Reg.SUP_WARN rail = true ∧
          b.bit Reg.FLT_SUM 11 = true ∧
          (∀ hi lo, (hi, lo) = (if rail.val % 2 = 1 then (31, 16) else (15, 0)) →
            b.fld (Reg.SUP_CNT (rail.val / 2)) hi lo = min (s.blk.fld (Reg.SUP_CNT (rail.val / 2)) hi lo + 1) 0xFFFF) ∧
          b.core = { s.blk with ldg := b.ldg }.core)) ∧
      (s.blk.bit Reg.SUP_STAT rail = true →
        Ends (.supplyWarning rail) s (fun b => b.core = s.blk.core ∧ SameRegs s.blk b [])) ∧
      Ends .porFall s (fun b => ColdFrom s.blk b 2) ∧
      Ends (.supplyReset rail) s (fun b => ColdFrom s.blk b (3 + 16 * rail.val))) ∧
    (s.blk.bit Reg.SUP_STAT rail = true →
      Ends (.supplyRecovery rail) s (fun b => b.bit Reg.SUP_STAT rail = false ∧
        b.core = { s.blk with lowTo := some s.blk.now }.core ∧ SameRegs s.blk b [Reg.SUP_STAT])) ∧
    (s.blk.reaches r = true →
      (key ≠ 0x7240 → ∀ c ∈ [Instr.cold r key, .warm r key],
        Ends c s (fun b => b.bit Reg.SUP_STAT 10 = true ∧ b.core = s.blk.core ∧ SameRegs s.blk b [Reg.SUP_STAT])) ∧
      (s.blk.bud.shutting = false →
        Ends (.cold r 0x7240) s (fun b => ColdFrom s.blk b 4) ∧ Ends (.warm r 0x7240) s (fun b => WarmFrom s.blk b 6)) ∧
      (s.blk.bud.shutting = true →
        Ends (.warm r 0x7240) s (fun b => b.core = s.blk.core ∧ SameRegs s.blk b []) ∧
        (s.blk.est < s.blk.thrAt Reg.THM_THR_SHUT - s.blk.thrHys 2 →
          Ends (.cold r 0x7240) s (fun b => ColdFrom s.blk b 4)) ∧
        (s.blk.thrAt Reg.THM_THR_SHUT - s.blk.thrHys 2 ≤ s.blk.est →
          Ends (.cold r 0x7240) s (fun b => b.bit Reg.THM_STAT 6 = true ∧
            b.fld Reg.THM_CNT2 15 0 = min (s.blk.fld Reg.THM_CNT2 15 0 + 1) 0xFFFF ∧ b.core = s.blk.core ∧
            SameRegs s.blk b [Reg.THM_STAT, Reg.THM_CNT2])))) ∧
    (s.blk.stage_ ≠ 0 →
      (s.blk.perst = true → s.blk.bud.shutting = true →
        Ends (.perst false) s (fun b => b.core = { s.blk with perst := false }.core ∧ SameRegs s.blk b [])) ∧
      (s.blk.perst = true → s.blk.bud.shutting = false →
        Ends (.perst false) s (fun b => b.core = { s.blk with perst := false, perstSeen := true }.core ∧
          SameRegs s.blk b [])) ∧
      (s.blk.perst = false → s.blk.perstSeen = true → s.blk.bud.shutting = false →
        Ends (.perst true) s (fun b => WarmFrom s.blk b 5 ∧ b.perst = true ∧ b.host.bme = false ∧
          b.host.dlUp = false)) ∧
      (s.blk.perst = true ∨ s.blk.perstSeen = false ∨ s.blk.bud.shutting = true →
        Ends (.perst true) s (fun b => b.core = { s.blk with perst := true }.core ∧ SameRegs s.blk b [])))

/-- Start-up. Its rows follow one another: POWER_OK releases the reset, where every rail has been above its warning
level for 1 ms (POR# and SYSCLK have no command: log entry 157, DESIGN CHOICE), the clocks run, the ledger is selected
and the counters queued, a pair member's wait for its partner beginning, SRAM is zero but for what a warm reset keeps,
the units run at 20 ms, HBM is zero but for what has been written since a cold reset, and with PERST# released once
configuration requests are accepted. A row out of its turn changes nothing. -/
def Obligations.StartUp : Prop :=
  ∀ s : State,
    (s.blk.stage_ = 0 →
      (s.blk.fld Reg.SUP_STAT 7 0 = 0 → (∀ t ∈ s.blk.lowTo, t + tuMs ≤ s.blk.now) →
        Ends .powerOk s (fun b =>
          b.core = { s.blk with stage_ := 1, perstSeen := !s.blk.perst }.core ∧ SameRegs s.blk b [])) ∧
      (s.blk.fld Reg.SUP_STAT 7 0 ≠ 0 ∨ (∃ t ∈ s.blk.lowTo, s.blk.now < t + tuMs) →
        Ends .powerOk s (fun b => b.core = s.blk.core ∧ SameRegs s.blk b []))) ∧
    (s.blk.stage_ = 1 → Ends .fuseTrim s (fun b => b.core = { s.blk with stage_ := 2 }.core ∧ SameRegs s.blk b [])) ∧
    (s.blk.stage_ = 3 → Ends .sramZero s (fun b =>
      b.core = { s.blk with
        stage_ := 4
        bad := b.bad
        act := { s.blk.act with entries := [], backlog := [] }
        stage := []
        seq := (if s.blk.warmStart then s.blk.seq else { s.blk.seq with imem := [], dmem := [] }) }.core ∧
      (∀ u, u ∈ b.bad ↔ u ∈ s.blk.bad ∧
        if s.blk.warmStart then keptOverWarm s.blk.member u = true else match u with | .hbm _ => True | _ => False) ∧ SameRegs s.blk b [])) ∧
    (s.blk.stage_ = 2 → s.blk.ldg.prog = none →
      Ends .ledgerSelect s (fun b => b.stage_ = 3 ∧ (∃ body : List Byte, .twin 0x02 0 body ∈ b.ldg.queue) ∧
        b.ldg.lastCounters = s.blk.now ∧ b.ldg.bytes = s.blk.ldg.bytes ∧
        (s.blk.warmStart = false → b.member = true → b.pair.enAt = some s.blk.now) ∧
        (s.blk.warmStart = true ∨ b.member = false → b.pair = s.blk.pair) ∧
        b.core = { s.blk with stage_ := 3, ldg := b.ldg, pipes := b.pipes, pair := b.pair }.core)) ∧
    (s.blk.stage_ = 4 →
      Ends .startup20ms s (fun b => b.stage_ = 5 ∧ b.bit Reg.SUP_STAT 11 = true ∧
        ((∀ x ∈ s.blk.pos, x.2.wait = none) →
          b.core = { s.blk with stage_ := 5, pos := b.pos, act := b.act, seq := b.seq, ldg := b.ldg,
                                pair := b.pair, bad := b.bad }.core))) ∧
    (s.blk.stage_ = 5 →
      Ends .hbmZeroed s (fun b => b.stage_ = 6 ∧ b.held = [] ∧
        (s.blk.warmStart = true → s.blk.held = [] → b.core = { s.blk with stage_ := 6 }.core ∧ SameRegs s.blk b []) ∧
        (s.blk.warmStart = false → s.blk.held = [] → b.core = { s.blk with stage_ := 6, bad := b.bad }.core ∧
          (∀ u, u ∈ b.bad ↔ u ∈ s.blk.bad ∧ match u with | .hbm a => ∃ x ∈ s.blk.hbm, x.1 = a.toNat | _ => True) ∧ SameRegs s.blk b []))) ∧
    (s.blk.stage_ = 6 → s.blk.perstSeen = true → s.blk.perst = false → s.blk.cfgReady = false →
      Ends .configReady s (fun b => b.host = { s.blk.host with dlUp := true } ∧
        b.core = { s.blk with cfgReady := true }.core ∧ SameRegs s.blk b [])) ∧
    (∀ (c : Instr) (n : Nat),
      (c, n) ∈ [(Instr.powerOk, 0), (.fuseTrim, 1), (.ledgerSelect, 2), (.sramZero, 3), (.startup20ms, 4),
        (.hbmZeroed, 5), (.configReady, 6)] → s.blk.stage_ ≠ n →
      Ends c s (fun b => b.core = s.blk.core ∧ SameRegs s.blk b []))
end

