-- ==== Sys2Proof/Laws/Map.lean ====
section
/-! SUPPORT. The laws of the sparse map: a read after a write, and the canonical form. -/

namespace Sys2Proof

section
variable {α : Type} (d : Nat → α)

@[simp] theorem SMap.get_nil (k : Nat) : SMap.get d ([] : SMap α) k = d k := rfl

theorem SMap.get_filter_ne (m : SMap α) (k : Nat) :
    SMap.get d (m.filter fun e => decide (e.1 ≠ k)) k = d k := by
  induction m with
  | nil => rfl
  | cons e m ih =>
    obtain ⟨j, w⟩ := e
    by_cases h : j = k
    · simpa [List.filter, h] using ih
    · have h' : k ≠ j := fun e => h e.symm
      simpa [List.filter, h, SMap.get, h'] using ih

theorem SMap.get_filter_other (m : SMap α) (k k' : Nat) (h : k' ≠ k) :
    SMap.get d (m.filter fun e => decide (e.1 ≠ k)) k' = SMap.get d m k' := by
  induction m with
  | nil => rfl
  | cons e m ih =>
    obtain ⟨j, w⟩ := e
    by_cases hj : j = k
    · subst hj
      simpa [List.filter, SMap.get, h] using ih
    · by_cases h2 : k' = j <;> simp_all [List.filter, SMap.get]

theorem SMap.get_put_same (m : SMap α) (k : Nat) (v : α) : SMap.get d (SMap.set.put m k v) k = v := by
  induction m with
  | nil => simp [SMap.set.put, SMap.get]
  | cons e m ih =>
    obtain ⟨j, w⟩ := e
    simp only [SMap.set.put]
    split
    · simp [SMap.get]
    · split
      · simp [SMap.get]
      · simp_all [SMap.get]

theorem SMap.get_put_other (m : SMap α) (k k' : Nat) (v : α) (h : k' ≠ k) :
    SMap.get d (SMap.set.put m k v) k' = SMap.get d m k' := by
  induction m with
  | nil => simp [SMap.set.put, SMap.get, h]
  | cons e m ih =>
    obtain ⟨j, w⟩ := e
    simp only [SMap.set.put]
    split
    · subst_vars; simp [SMap.get, h]
    · split
      · simp [SMap.get, h]
      · by_cases h2 : k' = j <;> simp_all [SMap.get]

variable [DecidableEq α]

/-- A read after a write to the same key gives the value written. -/
@[simp] theorem SMap.get_set_same (m : SMap α) (k : Nat) (v : α) : SMap.get d (SMap.set d m k v) k = v := by
  unfold SMap.set
  split
  · next h => rw [SMap.get_filter_ne, h]
  · exact SMap.get_put_same d m k v

/-- A write leaves every other key alone. -/
theorem SMap.get_set_other (m : SMap α) (k k' : Nat) (v : α) (h : k' ≠ k) :
    SMap.get d (SMap.set d m k v) k' = SMap.get d m k' := by
  unfold SMap.set
  split
  · exact SMap.get_filter_other d m k k' h
  · exact SMap.get_put_other d m k k' v h

/-- A read after a write, in one equation. -/
theorem SMap.get_set (m : SMap α) (k k' : Nat) (v : α) :
    SMap.get d (SMap.set d m k v) k' = if k' = k then v else SMap.get d m k' := by
  split
  · next h => subst h; simp
  · next h => exact SMap.get_set_other d m k k' v h

theorem SMap.wfFrom_mono (m : SMap α) (a b : Nat) (h : a ≤ b) (w : SMap.wfFrom d b m = true) :
    SMap.wfFrom d a m = true := by
  cases m with
  | nil => rfl
  | cons e m =>
    obtain ⟨j, v⟩ := e
    simp only [SMap.wfFrom, Bool.and_eq_true, decide_eq_true_eq] at *
    exact ⟨⟨by omega, w.1.2⟩, w.2⟩

theorem SMap.wfFrom_filter (p : Nat × α → Bool) (m : SMap α) (a : Nat) (w : SMap.wfFrom d a m = true) :
    SMap.wfFrom d a (m.filter p) = true := by
  induction m generalizing a with
  | nil => rfl
  | cons e m ih =>
    obtain ⟨j, v⟩ := e
    simp only [SMap.wfFrom, Bool.and_eq_true, decide_eq_true_eq] at w
    by_cases h : p (j, v) = true
    · simp only [List.filter, h, SMap.wfFrom, Bool.and_eq_true, decide_eq_true_eq]
      exact ⟨w.1, ih (j + 1) w.2⟩
    · have h' : p (j, v) = false := by simpa using h
      simp only [List.filter, h']
      exact SMap.wfFrom_mono d _ a (j + 1) (by omega) (ih (j + 1) w.2)

theorem SMap.wfFrom_put (m : SMap α) (k : Nat) (v : α) (a : Nat) (hv : v ≠ d k) (hk : a ≤ k)
    (w : SMap.wfFrom d a m = true) : SMap.wfFrom d a (SMap.set.put m k v) = true := by
  induction m generalizing a with
  | nil => simp [SMap.set.put, SMap.wfFrom, hv, hk]
  | cons e m ih =>
    obtain ⟨j, u⟩ := e
    simp only [SMap.wfFrom, Bool.and_eq_true, decide_eq_true_eq] at w
    simp only [SMap.set.put]
    split
    · subst_vars
      simp only [SMap.wfFrom, Bool.and_eq_true, decide_eq_true_eq]
      exact ⟨⟨hk, hv⟩, w.2⟩
    · split
      · simp only [SMap.wfFrom, Bool.and_eq_true, decide_eq_true_eq]
        exact ⟨⟨hk, hv⟩, ⟨by omega, w.1.2⟩, w.2⟩
      · simp only [SMap.wfFrom, Bool.and_eq_true, decide_eq_true_eq]
        exact ⟨⟨by omega, w.1.2⟩, ih (j + 1) (by omega) w.2⟩

/-- A write keeps the canonical form. -/
theorem SMap.wf_set (m : SMap α) (k : Nat) (v : α) (w : SMap.wf d m = true) : SMap.wf d (SMap.set d m k v) = true := by
  unfold SMap.set
  split
  · exact SMap.wfFrom_filter d _ m 0 w
  · next h => exact SMap.wfFrom_put d m k v 0 h (Nat.zero_le k) w

/-- Writing a list of values keeps the canonical form. -/
theorem SMap.wf_setList (m : SMap α) (k : Nat) (vs : List α) (w : SMap.wf d m = true) :
    SMap.wf d (SMap.setList d m k vs) = true := by
  induction vs generalizing m k with
  | nil => exact w
  | cons v vs ih => exact ih (SMap.set d m k v) (k + 1) (SMap.wf_set d m k v w)

/-- Forgetting a range keeps the canonical form. -/
theorem SMap.wf_clear (m : SMap α) (lo hi : Nat) (w : SMap.wf d m = true) : SMap.wf d (SMap.clear m lo hi) = true :=
  SMap.wfFrom_filter d _ m 0 w

/-- Writing a list of values leaves every key outside it alone. -/
theorem SMap.get_setList_other (m : SMap α) (k k' : Nat) (vs : List α) (h : k' < k ∨ k + vs.length ≤ k') :
    SMap.get d (SMap.setList d m k vs) k' = SMap.get d m k' := by
  induction vs generalizing m k with
  | nil => rfl
  | cons v vs ih =>
    simp only [List.length_cons] at h
    rw [SMap.setList, ih _ _ (by omega), SMap.get_set_other d m k k' v (by omega)]

/-- Writing a list of values: each key of it reads its value. -/
theorem SMap.get_setList (m : SMap α) (k i : Nat) (vs : List α) (h : i < vs.length) :
    SMap.get d (SMap.setList d m k vs) (k + i) = vs[i] := by
  induction vs generalizing m k i with
  | nil => simp at h
  | cons v vs ih =>
    cases i with
    | zero => simp [SMap.setList, SMap.get_setList_other d _ (k + 1) k vs (by omega)]
    | succ i =>
      simp only [SMap.setList, List.getElem_cons_succ]
      rw [show k + (i + 1) = k + 1 + i by omega]
      exact ih _ (k + 1) i (by simpa using h)

end

end Sys2Proof
end

