-- ==== Sys2Proof/Laws/State.lean ====
section
/-! SUPPORT. One lemma per field per update of the block: an update leaves every field but its own alone. -/

namespace Sys2Proof.Machine

section
variable (b : Block)

/-! ### wr -/

@[simp] theorem Block.wr_cyc (off : Nat) (v : Word) : (b.wr off v).cyc = b.cyc := rfl
@[simp] theorem Block.wr_now (off : Nat) (v : Word) : (b.wr off v).now = b.now := rfl
@[simp] theorem Block.wr_stage_ (off : Nat) (v : Word) : (b.wr off v).stage_ = b.stage_ := rfl
@[simp] theorem Block.wr_tim (off : Nat) (v : Word) : (b.wr off v).tim = b.tim := rfl
@[simp] theorem Block.wr_pos (off : Nat) (v : Word) : (b.wr off v).pos = b.pos := rfl
@[simp] theorem Block.wr_stk (off : Nat) (v : Word) : (b.wr off v).stk = b.stk := rfl
@[simp] theorem Block.wr_sched (off : Nat) (v : Word) : (b.wr off v).sched = b.sched := rfl
@[simp] theorem Block.wr_strikes (off : Nat) (v : Word) : (b.wr off v).strikes = b.strikes := rfl
@[simp] theorem Block.wr_bounds (off : Nat) (v : Word) : (b.wr off v).bounds = b.bounds := rfl
@[simp] theorem Block.wr_giver (off : Nat) (v : Word) : (b.wr off v).giver = b.giver := rfl
@[simp] theorem Block.wr_released (off : Nat) (v : Word) : (b.wr off v).released = b.released := rfl
@[simp] theorem Block.wr_act (off : Nat) (v : Word) : (b.wr off v).act = b.act := rfl
@[simp] theorem Block.wr_stage (off : Nat) (v : Word) : (b.wr off v).stage = b.stage := rfl
@[simp] theorem Block.wr_ports (off : Nat) (v : Word) : (b.wr off v).ports = b.ports := rfl
@[simp] theorem Block.wr_heads (off : Nat) (v : Word) : (b.wr off v).heads = b.heads := rfl
@[simp] theorem Block.wr_pipes (off : Nat) (v : Word) : (b.wr off v).pipes = b.pipes := rfl
@[simp] theorem Block.wr_hbm (off : Nat) (v : Word) : (b.wr off v).hbm = b.hbm := rfl
@[simp] theorem Block.wr_vrd (off : Nat) (v : Word) : (b.wr off v).vrd = b.vrd := rfl
@[simp] theorem Block.wr_seam (off : Nat) (v : Word) : (b.wr off v).seam = b.seam := rfl
@[simp] theorem Block.wr_bud (off : Nat) (v : Word) : (b.wr off v).bud = b.bud := rfl
@[simp] theorem Block.wr_defTab (off : Nat) (v : Word) : (b.wr off v).defTab = b.defTab := rfl
@[simp] theorem Block.wr_defQueue (off : Nat) (v : Word) : (b.wr off v).defQueue = b.defQueue := rfl
@[simp] theorem Block.wr_defEdit (off : Nat) (v : Word) : (b.wr off v).defEdit = b.defEdit := rfl
@[simp] theorem Block.wr_taps (off : Nat) (v : Word) : (b.wr off v).taps = b.taps := rfl
@[simp] theorem Block.wr_frozen (off : Nat) (v : Word) : (b.wr off v).frozen = b.frozen := rfl
@[simp] theorem Block.wr_jlast (off : Nat) (v : Word) : (b.wr off v).jlast = b.jlast := rfl
@[simp] theorem Block.wr_ldg (off : Nat) (v : Word) : (b.wr off v).ldg = b.ldg := rfl
@[simp] theorem Block.wr_host (off : Nat) (v : Word) : (b.wr off v).host = b.host := rfl
@[simp] theorem Block.wr_seq (off : Nat) (v : Word) : (b.wr off v).seq = b.seq := rfl
@[simp] theorem Block.wr_svc (off : Nat) (v : Word) : (b.wr off v).svc = b.svc := rfl
@[simp] theorem Block.wr_pair (off : Nat) (v : Word) : (b.wr off v).pair = b.pair := rfl
@[simp] theorem Block.wr_start (off : Nat) (v : Word) : (b.wr off v).start = b.start := rfl
@[simp] theorem Block.wr_trail (off : Nat) (v : Word) : (b.wr off v).trail = b.trail := rfl
@[simp] theorem Block.wr_shadow (off : Nat) (v : Word) : (b.wr off v).shadow = b.shadow := rfl
@[simp] theorem Block.wr_perst (off : Nat) (v : Word) : (b.wr off v).perst = b.perst := rfl
@[simp] theorem Block.wr_perstSeen (off : Nat) (v : Word) : (b.wr off v).perstSeen = b.perstSeen := rfl
@[simp] theorem Block.wr_lowTo (off : Nat) (v : Word) : (b.wr off v).lowTo = b.lowTo := rfl
@[simp] theorem Block.wr_cfgReady (off : Nat) (v : Word) : (b.wr off v).cfgReady = b.cfgReady := rfl
@[simp] theorem Block.wr_held (off : Nat) (v : Word) : (b.wr off v).held = b.held := rfl
@[simp] theorem Block.wr_bad (off : Nat) (v : Word) : (b.wr off v).bad = b.bad := rfl
@[simp] theorem Block.wr_free (off : Nat) (v : Word) : (b.wr off v).free = b.free := rfl
@[simp] theorem Block.wr_out (off : Nat) (v : Word) : (b.wr off v).out = b.out := rfl

/-! ### emit -/

@[simp] theorem Block.emit_regs (o : Out) : (b.emit o).regs = b.regs := rfl
@[simp] theorem Block.emit_cyc (o : Out) : (b.emit o).cyc = b.cyc := rfl
@[simp] theorem Block.emit_now (o : Out) : (b.emit o).now = b.now := rfl
@[simp] theorem Block.emit_stage_ (o : Out) : (b.emit o).stage_ = b.stage_ := rfl
@[simp] theorem Block.emit_tim (o : Out) : (b.emit o).tim = b.tim := rfl
@[simp] theorem Block.emit_pos (o : Out) : (b.emit o).pos = b.pos := rfl
@[simp] theorem Block.emit_stk (o : Out) : (b.emit o).stk = b.stk := rfl
@[simp] theorem Block.emit_sched (o : Out) : (b.emit o).sched = b.sched := rfl
@[simp] theorem Block.emit_strikes (o : Out) : (b.emit o).strikes = b.strikes := rfl
@[simp] theorem Block.emit_bounds (o : Out) : (b.emit o).bounds = b.bounds := rfl
@[simp] theorem Block.emit_giver (o : Out) : (b.emit o).giver = b.giver := rfl
@[simp] theorem Block.emit_released (o : Out) : (b.emit o).released = b.released := rfl
@[simp] theorem Block.emit_act (o : Out) : (b.emit o).act = b.act := rfl
@[simp] theorem Block.emit_stage (o : Out) : (b.emit o).stage = b.stage := rfl
@[simp] theorem Block.emit_ports (o : Out) : (b.emit o).ports = b.ports := rfl
@[simp] theorem Block.emit_heads (o : Out) : (b.emit o).heads = b.heads := rfl
@[simp] theorem Block.emit_pipes (o : Out) : (b.emit o).pipes = b.pipes := rfl
@[simp] theorem Block.emit_hbm (o : Out) : (b.emit o).hbm = b.hbm := rfl
@[simp] theorem Block.emit_vrd (o : Out) : (b.emit o).vrd = b.vrd := rfl
@[simp] theorem Block.emit_seam (o : Out) : (b.emit o).seam = b.seam := rfl
@[simp] theorem Block.emit_bud (o : Out) : (b.emit o).bud = b.bud := rfl
@[simp] theorem Block.emit_defTab (o : Out) : (b.emit o).defTab = b.defTab := rfl
@[simp] theorem Block.emit_defQueue (o : Out) : (b.emit o).defQueue = b.defQueue := rfl
@[simp] theorem Block.emit_defEdit (o : Out) : (b.emit o).defEdit = b.defEdit := rfl
@[simp] theorem Block.emit_taps (o : Out) : (b.emit o).taps = b.taps := rfl
@[simp] theorem Block.emit_frozen (o : Out) : (b.emit o).frozen = b.frozen := rfl
@[simp] theorem Block.emit_jlast (o : Out) : (b.emit o).jlast = b.jlast := rfl
@[simp] theorem Block.emit_ldg (o : Out) : (b.emit o).ldg = b.ldg := rfl
@[simp] theorem Block.emit_host (o : Out) : (b.emit o).host = b.host := rfl
@[simp] theorem Block.emit_seq (o : Out) : (b.emit o).seq = b.seq := rfl
@[simp] theorem Block.emit_svc (o : Out) : (b.emit o).svc = b.svc := rfl
@[simp] theorem Block.emit_pair (o : Out) : (b.emit o).pair = b.pair := rfl
@[simp] theorem Block.emit_start (o : Out) : (b.emit o).start = b.start := rfl
@[simp] theorem Block.emit_trail (o : Out) : (b.emit o).trail = b.trail := rfl
@[simp] theorem Block.emit_shadow (o : Out) : (b.emit o).shadow = b.shadow := rfl
@[simp] theorem Block.emit_perst (o : Out) : (b.emit o).perst = b.perst := rfl
@[simp] theorem Block.emit_perstSeen (o : Out) : (b.emit o).perstSeen = b.perstSeen := rfl
@[simp] theorem Block.emit_lowTo (o : Out) : (b.emit o).lowTo = b.lowTo := rfl
@[simp] theorem Block.emit_cfgReady (o : Out) : (b.emit o).cfgReady = b.cfgReady := rfl
@[simp] theorem Block.emit_held (o : Out) : (b.emit o).held = b.held := rfl
@[simp] theorem Block.emit_bad (o : Out) : (b.emit o).bad = b.bad := rfl
@[simp] theorem Block.emit_free (o : Out) : (b.emit o).free = b.free := rfl
@[simp] theorem Block.emit_rd (o : Out) (off : Nat) : (b.emit o).rd off = b.rd off := rfl

/-! ### setCh -/

@[simp] theorem Block.setCh_regs (n : Nat) (c : PosCh) : (b.setCh n c).regs = b.regs := rfl
@[simp] theorem Block.setCh_cyc (n : Nat) (c : PosCh) : (b.setCh n c).cyc = b.cyc := rfl
@[simp] theorem Block.setCh_now (n : Nat) (c : PosCh) : (b.setCh n c).now = b.now := rfl
@[simp] theorem Block.setCh_stage_ (n : Nat) (c : PosCh) : (b.setCh n c).stage_ = b.stage_ := rfl
@[simp] theorem Block.setCh_tim (n : Nat) (c : PosCh) : (b.setCh n c).tim = b.tim := rfl
@[simp] theorem Block.setCh_stk (n : Nat) (c : PosCh) : (b.setCh n c).stk = b.stk := rfl
@[simp] theorem Block.setCh_sched (n : Nat) (c : PosCh) : (b.setCh n c).sched = b.sched := rfl
@[simp] theorem Block.setCh_strikes (n : Nat) (c : PosCh) : (b.setCh n c).strikes = b.strikes := rfl
@[simp] theorem Block.setCh_bounds (n : Nat) (c : PosCh) : (b.setCh n c).bounds = b.bounds := rfl
@[simp] theorem Block.setCh_giver (n : Nat) (c : PosCh) : (b.setCh n c).giver = b.giver := rfl
@[simp] theorem Block.setCh_released (n : Nat) (c : PosCh) : (b.setCh n c).released = b.released := rfl
@[simp] theorem Block.setCh_act (n : Nat) (c : PosCh) : (b.setCh n c).act = b.act := rfl
@[simp] theorem Block.setCh_stage (n : Nat) (c : PosCh) : (b.setCh n c).stage = b.stage := rfl
@[simp] theorem Block.setCh_ports (n : Nat) (c : PosCh) : (b.setCh n c).ports = b.ports := rfl
@[simp] theorem Block.setCh_heads (n : Nat) (c : PosCh) : (b.setCh n c).heads = b.heads := rfl
@[simp] theorem Block.setCh_pipes (n : Nat) (c : PosCh) : (b.setCh n c).pipes = b.pipes := rfl
@[simp] theorem Block.setCh_hbm (n : Nat) (c : PosCh) : (b.setCh n c).hbm = b.hbm := rfl
@[simp] theorem Block.setCh_vrd (n : Nat) (c : PosCh) : (b.setCh n c).vrd = b.vrd := rfl
@[simp] theorem Block.setCh_seam (n : Nat) (c : PosCh) : (b.setCh n c).seam = b.seam := rfl
@[simp] theorem Block.setCh_bud (n : Nat) (c : PosCh) : (b.setCh n c).bud = b.bud := rfl
@[simp] theorem Block.setCh_defTab (n : Nat) (c : PosCh) : (b.setCh n c).defTab = b.defTab := rfl
@[simp] theorem Block.setCh_defQueue (n : Nat) (c : PosCh) : (b.setCh n c).defQueue = b.defQueue := rfl
@[simp] theorem Block.setCh_defEdit (n : Nat) (c : PosCh) : (b.setCh n c).defEdit = b.defEdit := rfl
@[simp] theorem Block.setCh_taps (n : Nat) (c : PosCh) : (b.setCh n c).taps = b.taps := rfl
@[simp] theorem Block.setCh_frozen (n : Nat) (c : PosCh) : (b.setCh n c).frozen = b.frozen := rfl
@[simp] theorem Block.setCh_jlast (n : Nat) (c : PosCh) : (b.setCh n c).jlast = b.jlast := rfl
@[simp] theorem Block.setCh_ldg (n : Nat) (c : PosCh) : (b.setCh n c).ldg = b.ldg := rfl
@[simp] theorem Block.setCh_host (n : Nat) (c : PosCh) : (b.setCh n c).host = b.host := rfl
@[simp] theorem Block.setCh_seq (n : Nat) (c : PosCh) : (b.setCh n c).seq = b.seq := rfl
@[simp] theorem Block.setCh_svc (n : Nat) (c : PosCh) : (b.setCh n c).svc = b.svc := rfl
@[simp] theorem Block.setCh_pair (n : Nat) (c : PosCh) : (b.setCh n c).pair = b.pair := rfl
@[simp] theorem Block.setCh_start (n : Nat) (c : PosCh) : (b.setCh n c).start = b.start := rfl
@[simp] theorem Block.setCh_trail (n : Nat) (c : PosCh) : (b.setCh n c).trail = b.trail := rfl
@[simp] theorem Block.setCh_shadow (n : Nat) (c : PosCh) : (b.setCh n c).shadow = b.shadow := rfl
@[simp] theorem Block.setCh_perst (n : Nat) (c : PosCh) : (b.setCh n c).perst = b.perst := rfl
@[simp] theorem Block.setCh_perstSeen (n : Nat) (c : PosCh) : (b.setCh n c).perstSeen = b.perstSeen := rfl
@[simp] theorem Block.setCh_lowTo (n : Nat) (c : PosCh) : (b.setCh n c).lowTo = b.lowTo := rfl
@[simp] theorem Block.setCh_cfgReady (n : Nat) (c : PosCh) : (b.setCh n c).cfgReady = b.cfgReady := rfl
@[simp] theorem Block.setCh_held (n : Nat) (c : PosCh) : (b.setCh n c).held = b.held := rfl
@[simp] theorem Block.setCh_bad (n : Nat) (c : PosCh) : (b.setCh n c).bad = b.bad := rfl
@[simp] theorem Block.setCh_free (n : Nat) (c : PosCh) : (b.setCh n c).free = b.free := rfl
@[simp] theorem Block.setCh_out (n : Nat) (c : PosCh) : (b.setCh n c).out = b.out := rfl
@[simp] theorem Block.setCh_rd (n : Nat) (c : PosCh) (off : Nat) : (b.setCh n c).rd off = b.rd off := rfl

/-! ### setGrp -/

@[simp] theorem Block.setGrp_regs (g : Nat) (x : StkGrp) : (b.setGrp g x).regs = b.regs := rfl
@[simp] theorem Block.setGrp_cyc (g : Nat) (x : StkGrp) : (b.setGrp g x).cyc = b.cyc := rfl
@[simp] theorem Block.setGrp_now (g : Nat) (x : StkGrp) : (b.setGrp g x).now = b.now := rfl
@[simp] theorem Block.setGrp_stage_ (g : Nat) (x : StkGrp) : (b.setGrp g x).stage_ = b.stage_ := rfl
@[simp] theorem Block.setGrp_tim (g : Nat) (x : StkGrp) : (b.setGrp g x).tim = b.tim := rfl
@[simp] theorem Block.setGrp_pos (g : Nat) (x : StkGrp) : (b.setGrp g x).pos = b.pos := rfl
@[simp] theorem Block.setGrp_sched (g : Nat) (x : StkGrp) : (b.setGrp g x).sched = b.sched := rfl
@[simp] theorem Block.setGrp_strikes (g : Nat) (x : StkGrp) : (b.setGrp g x).strikes = b.strikes := rfl
@[simp] theorem Block.setGrp_bounds (g : Nat) (x : StkGrp) : (b.setGrp g x).bounds = b.bounds := rfl
@[simp] theorem Block.setGrp_giver (g : Nat) (x : StkGrp) : (b.setGrp g x).giver = b.giver := rfl
@[simp] theorem Block.setGrp_released (g : Nat) (x : StkGrp) : (b.setGrp g x).released = b.released := rfl
@[simp] theorem Block.setGrp_act (g : Nat) (x : StkGrp) : (b.setGrp g x).act = b.act := rfl
@[simp] theorem Block.setGrp_stage (g : Nat) (x : StkGrp) : (b.setGrp g x).stage = b.stage := rfl
@[simp] theorem Block.setGrp_ports (g : Nat) (x : StkGrp) : (b.setGrp g x).ports = b.ports := rfl
@[simp] theorem Block.setGrp_heads (g : Nat) (x : StkGrp) : (b.setGrp g x).heads = b.heads := rfl
@[simp] theorem Block.setGrp_pipes (g : Nat) (x : StkGrp) : (b.setGrp g x).pipes = b.pipes := rfl
@[simp] theorem Block.setGrp_hbm (g : Nat) (x : StkGrp) : (b.setGrp g x).hbm = b.hbm := rfl
@[simp] theorem Block.setGrp_vrd (g : Nat) (x : StkGrp) : (b.setGrp g x).vrd = b.vrd := rfl
@[simp] theorem Block.setGrp_seam (g : Nat) (x : StkGrp) : (b.setGrp g x).seam = b.seam := rfl
@[simp] theorem Block.setGrp_bud (g : Nat) (x : StkGrp) : (b.setGrp g x).bud = b.bud := rfl
@[simp] theorem Block.setGrp_defTab (g : Nat) (x : StkGrp) : (b.setGrp g x).defTab = b.defTab := rfl
@[simp] theorem Block.setGrp_defQueue (g : Nat) (x : StkGrp) : (b.setGrp g x).defQueue = b.defQueue := rfl
@[simp] theorem Block.setGrp_defEdit (g : Nat) (x : StkGrp) : (b.setGrp g x).defEdit = b.defEdit := rfl
@[simp] theorem Block.setGrp_taps (g : Nat) (x : StkGrp) : (b.setGrp g x).taps = b.taps := rfl
@[simp] theorem Block.setGrp_frozen (g : Nat) (x : StkGrp) : (b.setGrp g x).frozen = b.frozen := rfl
@[simp] theorem Block.setGrp_jlast (g : Nat) (x : StkGrp) : (b.setGrp g x).jlast = b.jlast := rfl
@[simp] theorem Block.setGrp_ldg (g : Nat) (x : StkGrp) : (b.setGrp g x).ldg = b.ldg := rfl
@[simp] theorem Block.setGrp_host (g : Nat) (x : StkGrp) : (b.setGrp g x).host = b.host := rfl
@[simp] theorem Block.setGrp_seq (g : Nat) (x : StkGrp) : (b.setGrp g x).seq = b.seq := rfl
@[simp] theorem Block.setGrp_svc (g : Nat) (x : StkGrp) : (b.setGrp g x).svc = b.svc := rfl
@[simp] theorem Block.setGrp_pair (g : Nat) (x : StkGrp) : (b.setGrp g x).pair = b.pair := rfl
@[simp] theorem Block.setGrp_start (g : Nat) (x : StkGrp) : (b.setGrp g x).start = b.start := rfl
@[simp] theorem Block.setGrp_trail (g : Nat) (x : StkGrp) : (b.setGrp g x).trail = b.trail := rfl
@[simp] theorem Block.setGrp_shadow (g : Nat) (x : StkGrp) : (b.setGrp g x).shadow = b.shadow := rfl
@[simp] theorem Block.setGrp_perst (g : Nat) (x : StkGrp) : (b.setGrp g x).perst = b.perst := rfl
@[simp] theorem Block.setGrp_perstSeen (g : Nat) (x : StkGrp) : (b.setGrp g x).perstSeen = b.perstSeen := rfl
@[simp] theorem Block.setGrp_lowTo (g : Nat) (x : StkGrp) : (b.setGrp g x).lowTo = b.lowTo := rfl
@[simp] theorem Block.setGrp_cfgReady (g : Nat) (x : StkGrp) : (b.setGrp g x).cfgReady = b.cfgReady := rfl
@[simp] theorem Block.setGrp_held (g : Nat) (x : StkGrp) : (b.setGrp g x).held = b.held := rfl
@[simp] theorem Block.setGrp_bad (g : Nat) (x : StkGrp) : (b.setGrp g x).bad = b.bad := rfl
@[simp] theorem Block.setGrp_free (g : Nat) (x : StkGrp) : (b.setGrp g x).free = b.free := rfl
@[simp] theorem Block.setGrp_out (g : Nat) (x : StkGrp) : (b.setGrp g x).out = b.out := rfl
@[simp] theorem Block.setGrp_rd (g : Nat) (x : StkGrp) (off : Nat) : (b.setGrp g x).rd off = b.rd off := rfl

/-! ### setPort -/

@[simp] theorem Block.setPort_regs (h : Nat) (p : HdPort) : (b.setPort h p).regs = b.regs := rfl
@[simp] theorem Block.setPort_cyc (h : Nat) (p : HdPort) : (b.setPort h p).cyc = b.cyc := rfl
@[simp] theorem Block.setPort_now (h : Nat) (p : HdPort) : (b.setPort h p).now = b.now := rfl
@[simp] theorem Block.setPort_stage_ (h : Nat) (p : HdPort) : (b.setPort h p).stage_ = b.stage_ := rfl
@[simp] theorem Block.setPort_tim (h : Nat) (p : HdPort) : (b.setPort h p).tim = b.tim := rfl
@[simp] theorem Block.setPort_pos (h : Nat) (p : HdPort) : (b.setPort h p).pos = b.pos := rfl
@[simp] theorem Block.setPort_stk (h : Nat) (p : HdPort) : (b.setPort h p).stk = b.stk := rfl
@[simp] theorem Block.setPort_sched (h : Nat) (p : HdPort) : (b.setPort h p).sched = b.sched := rfl
@[simp] theorem Block.setPort_strikes (h : Nat) (p : HdPort) : (b.setPort h p).strikes = b.strikes := rfl
@[simp] theorem Block.setPort_bounds (h : Nat) (p : HdPort) : (b.setPort h p).bounds = b.bounds := rfl
@[simp] theorem Block.setPort_giver (h : Nat) (p : HdPort) : (b.setPort h p).giver = b.giver := rfl
@[simp] theorem Block.setPort_released (h : Nat) (p : HdPort) : (b.setPort h p).released = b.released := rfl
@[simp] theorem Block.setPort_act (h : Nat) (p : HdPort) : (b.setPort h p).act = b.act := rfl
@[simp] theorem Block.setPort_stage (h : Nat) (p : HdPort) : (b.setPort h p).stage = b.stage := rfl
@[simp] theorem Block.setPort_heads (h : Nat) (p : HdPort) : (b.setPort h p).heads = b.heads := rfl
@[simp] theorem Block.setPort_pipes (h : Nat) (p : HdPort) : (b.setPort h p).pipes = b.pipes := rfl
@[simp] theorem Block.setPort_hbm (h : Nat) (p : HdPort) : (b.setPort h p).hbm = b.hbm := rfl
@[simp] theorem Block.setPort_vrd (h : Nat) (p : HdPort) : (b.setPort h p).vrd = b.vrd := rfl
@[simp] theorem Block.setPort_seam (h : Nat) (p : HdPort) : (b.setPort h p).seam = b.seam := rfl
@[simp] theorem Block.setPort_bud (h : Nat) (p : HdPort) : (b.setPort h p).bud = b.bud := rfl
@[simp] theorem Block.setPort_defTab (h : Nat) (p : HdPort) : (b.setPort h p).defTab = b.defTab := rfl
@[simp] theorem Block.setPort_defQueue (h : Nat) (p : HdPort) : (b.setPort h p).defQueue = b.defQueue := rfl
@[simp] theorem Block.setPort_defEdit (h : Nat) (p : HdPort) : (b.setPort h p).defEdit = b.defEdit := rfl
@[simp] theorem Block.setPort_taps (h : Nat) (p : HdPort) : (b.setPort h p).taps = b.taps := rfl
@[simp] theorem Block.setPort_frozen (h : Nat) (p : HdPort) : (b.setPort h p).frozen = b.frozen := rfl
@[simp] theorem Block.setPort_jlast (h : Nat) (p : HdPort) : (b.setPort h p).jlast = b.jlast := rfl
@[simp] theorem Block.setPort_ldg (h : Nat) (p : HdPort) : (b.setPort h p).ldg = b.ldg := rfl
@[simp] theorem Block.setPort_host (h : Nat) (p : HdPort) : (b.setPort h p).host = b.host := rfl
@[simp] theorem Block.setPort_seq (h : Nat) (p : HdPort) : (b.setPort h p).seq = b.seq := rfl
@[simp] theorem Block.setPort_svc (h : Nat) (p : HdPort) : (b.setPort h p).svc = b.svc := rfl
@[simp] theorem Block.setPort_pair (h : Nat) (p : HdPort) : (b.setPort h p).pair = b.pair := rfl
@[simp] theorem Block.setPort_start (h : Nat) (p : HdPort) : (b.setPort h p).start = b.start := rfl
@[simp] theorem Block.setPort_trail (h : Nat) (p : HdPort) : (b.setPort h p).trail = b.trail := rfl
@[simp] theorem Block.setPort_shadow (h : Nat) (p : HdPort) : (b.setPort h p).shadow = b.shadow := rfl
@[simp] theorem Block.setPort_perst (h : Nat) (p : HdPort) : (b.setPort h p).perst = b.perst := rfl
@[simp] theorem Block.setPort_perstSeen (h : Nat) (p : HdPort) : (b.setPort h p).perstSeen = b.perstSeen := rfl
@[simp] theorem Block.setPort_lowTo (h : Nat) (p : HdPort) : (b.setPort h p).lowTo = b.lowTo := rfl
@[simp] theorem Block.setPort_cfgReady (h : Nat) (p : HdPort) : (b.setPort h p).cfgReady = b.cfgReady := rfl
@[simp] theorem Block.setPort_held (h : Nat) (p : HdPort) : (b.setPort h p).held = b.held := rfl
@[simp] theorem Block.setPort_bad (h : Nat) (p : HdPort) : (b.setPort h p).bad = b.bad := rfl
@[simp] theorem Block.setPort_free (h : Nat) (p : HdPort) : (b.setPort h p).free = b.free := rfl
@[simp] theorem Block.setPort_out (h : Nat) (p : HdPort) : (b.setPort h p).out = b.out := rfl
@[simp] theorem Block.setPort_rd (h : Nat) (p : HdPort) (off : Nat) : (b.setPort h p).rd off = b.rd off := rfl

/-! ### setHd -/

@[simp] theorem Block.setHd_regs (h : Nat) (x : HeadSt) : (b.setHd h x).regs = b.regs := rfl
@[simp] theorem Block.setHd_cyc (h : Nat) (x : HeadSt) : (b.setHd h x).cyc = b.cyc := rfl
@[simp] theorem Block.setHd_now (h : Nat) (x : HeadSt) : (b.setHd h x).now = b.now := rfl
@[simp] theorem Block.setHd_stage_ (h : Nat) (x : HeadSt) : (b.setHd h x).stage_ = b.stage_ := rfl
@[simp] theorem Block.setHd_tim (h : Nat) (x : HeadSt) : (b.setHd h x).tim = b.tim := rfl
@[simp] theorem Block.setHd_pos (h : Nat) (x : HeadSt) : (b.setHd h x).pos = b.pos := rfl
@[simp] theorem Block.setHd_stk (h : Nat) (x : HeadSt) : (b.setHd h x).stk = b.stk := rfl
@[simp] theorem Block.setHd_sched (h : Nat) (x : HeadSt) : (b.setHd h x).sched = b.sched := rfl
@[simp] theorem Block.setHd_strikes (h : Nat) (x : HeadSt) : (b.setHd h x).strikes = b.strikes := rfl
@[simp] theorem Block.setHd_bounds (h : Nat) (x : HeadSt) : (b.setHd h x).bounds = b.bounds := rfl
@[simp] theorem Block.setHd_giver (h : Nat) (x : HeadSt) : (b.setHd h x).giver = b.giver := rfl
@[simp] theorem Block.setHd_released (h : Nat) (x : HeadSt) : (b.setHd h x).released = b.released := rfl
@[simp] theorem Block.setHd_act (h : Nat) (x : HeadSt) : (b.setHd h x).act = b.act := rfl
@[simp] theorem Block.setHd_stage (h : Nat) (x : HeadSt) : (b.setHd h x).stage = b.stage := rfl
@[simp] theorem Block.setHd_ports (h : Nat) (x : HeadSt) : (b.setHd h x).ports = b.ports := rfl
@[simp] theorem Block.setHd_pipes (h : Nat) (x : HeadSt) : (b.setHd h x).pipes = b.pipes := rfl
@[simp] theorem Block.setHd_hbm (h : Nat) (x : HeadSt) : (b.setHd h x).hbm = b.hbm := rfl
@[simp] theorem Block.setHd_vrd (h : Nat) (x : HeadSt) : (b.setHd h x).vrd = b.vrd := rfl
@[simp] theorem Block.setHd_seam (h : Nat) (x : HeadSt) : (b.setHd h x).seam = b.seam := rfl
@[simp] theorem Block.setHd_bud (h : Nat) (x : HeadSt) : (b.setHd h x).bud = b.bud := rfl
@[simp] theorem Block.setHd_defTab (h : Nat) (x : HeadSt) : (b.setHd h x).defTab = b.defTab := rfl
@[simp] theorem Block.setHd_defQueue (h : Nat) (x : HeadSt) : (b.setHd h x).defQueue = b.defQueue := rfl
@[simp] theorem Block.setHd_defEdit (h : Nat) (x : HeadSt) : (b.setHd h x).defEdit = b.defEdit := rfl
@[simp] theorem Block.setHd_taps (h : Nat) (x : HeadSt) : (b.setHd h x).taps = b.taps := rfl
@[simp] theorem Block.setHd_frozen (h : Nat) (x : HeadSt) : (b.setHd h x).frozen = b.frozen := rfl
@[simp] theorem Block.setHd_jlast (h : Nat) (x : HeadSt) : (b.setHd h x).jlast = b.jlast := rfl
@[simp] theorem Block.setHd_ldg (h : Nat) (x : HeadSt) : (b.setHd h x).ldg = b.ldg := rfl
@[simp] theorem Block.setHd_host (h : Nat) (x : HeadSt) : (b.setHd h x).host = b.host := rfl
@[simp] theorem Block.setHd_seq (h : Nat) (x : HeadSt) : (b.setHd h x).seq = b.seq := rfl
@[simp] theorem Block.setHd_svc (h : Nat) (x : HeadSt) : (b.setHd h x).svc = b.svc := rfl
@[simp] theorem Block.setHd_pair (h : Nat) (x : HeadSt) : (b.setHd h x).pair = b.pair := rfl
@[simp] theorem Block.setHd_start (h : Nat) (x : HeadSt) : (b.setHd h x).start = b.start := rfl
@[simp] theorem Block.setHd_trail (h : Nat) (x : HeadSt) : (b.setHd h x).trail = b.trail := rfl
@[simp] theorem Block.setHd_shadow (h : Nat) (x : HeadSt) : (b.setHd h x).shadow = b.shadow := rfl
@[simp] theorem Block.setHd_perst (h : Nat) (x : HeadSt) : (b.setHd h x).perst = b.perst := rfl
@[simp] theorem Block.setHd_perstSeen (h : Nat) (x : HeadSt) : (b.setHd h x).perstSeen = b.perstSeen := rfl
@[simp] theorem Block.setHd_lowTo (h : Nat) (x : HeadSt) : (b.setHd h x).lowTo = b.lowTo := rfl
@[simp] theorem Block.setHd_cfgReady (h : Nat) (x : HeadSt) : (b.setHd h x).cfgReady = b.cfgReady := rfl
@[simp] theorem Block.setHd_held (h : Nat) (x : HeadSt) : (b.setHd h x).held = b.held := rfl
@[simp] theorem Block.setHd_bad (h : Nat) (x : HeadSt) : (b.setHd h x).bad = b.bad := rfl
@[simp] theorem Block.setHd_free (h : Nat) (x : HeadSt) : (b.setHd h x).free = b.free := rfl
@[simp] theorem Block.setHd_out (h : Nat) (x : HeadSt) : (b.setHd h x).out = b.out := rfl
@[simp] theorem Block.setHd_rd (h : Nat) (x : HeadSt) (off : Nat) : (b.setHd h x).rd off = b.rd off := rfl

/-! ### setPl -/

@[simp] theorem Block.setPl_regs (p : Nat) (x : Pipe) : (b.setPl p x).regs = b.regs := rfl
@[simp] theorem Block.setPl_cyc (p : Nat) (x : Pipe) : (b.setPl p x).cyc = b.cyc := rfl
@[simp] theorem Block.setPl_now (p : Nat) (x : Pipe) : (b.setPl p x).now = b.now := rfl
@[simp] theorem Block.setPl_stage_ (p : Nat) (x : Pipe) : (b.setPl p x).stage_ = b.stage_ := rfl
@[simp] theorem Block.setPl_tim (p : Nat) (x : Pipe) : (b.setPl p x).tim = b.tim := rfl
@[simp] theorem Block.setPl_pos (p : Nat) (x : Pipe) : (b.setPl p x).pos = b.pos := rfl
@[simp] theorem Block.setPl_stk (p : Nat) (x : Pipe) : (b.setPl p x).stk = b.stk := rfl
@[simp] theorem Block.setPl_sched (p : Nat) (x : Pipe) : (b.setPl p x).sched = b.sched := rfl
@[simp] theorem Block.setPl_strikes (p : Nat) (x : Pipe) : (b.setPl p x).strikes = b.strikes := rfl
@[simp] theorem Block.setPl_bounds (p : Nat) (x : Pipe) : (b.setPl p x).bounds = b.bounds := rfl
@[simp] theorem Block.setPl_giver (p : Nat) (x : Pipe) : (b.setPl p x).giver = b.giver := rfl
@[simp] theorem Block.setPl_released (p : Nat) (x : Pipe) : (b.setPl p x).released = b.released := rfl
@[simp] theorem Block.setPl_act (p : Nat) (x : Pipe) : (b.setPl p x).act = b.act := rfl
@[simp] theorem Block.setPl_stage (p : Nat) (x : Pipe) : (b.setPl p x).stage = b.stage := rfl
@[simp] theorem Block.setPl_ports (p : Nat) (x : Pipe) : (b.setPl p x).ports = b.ports := rfl
@[simp] theorem Block.setPl_heads (p : Nat) (x : Pipe) : (b.setPl p x).heads = b.heads := rfl
@[simp] theorem Block.setPl_hbm (p : Nat) (x : Pipe) : (b.setPl p x).hbm = b.hbm := rfl
@[simp] theorem Block.setPl_vrd (p : Nat) (x : Pipe) : (b.setPl p x).vrd = b.vrd := rfl
@[simp] theorem Block.setPl_seam (p : Nat) (x : Pipe) : (b.setPl p x).seam = b.seam := rfl
@[simp] theorem Block.setPl_bud (p : Nat) (x : Pipe) : (b.setPl p x).bud = b.bud := rfl
@[simp] theorem Block.setPl_defTab (p : Nat) (x : Pipe) : (b.setPl p x).defTab = b.defTab := rfl
@[simp] theorem Block.setPl_defQueue (p : Nat) (x : Pipe) : (b.setPl p x).defQueue = b.defQueue := rfl
@[simp] theorem Block.setPl_defEdit (p : Nat) (x : Pipe) : (b.setPl p x).defEdit = b.defEdit := rfl
@[simp] theorem Block.setPl_taps (p : Nat) (x : Pipe) : (b.setPl p x).taps = b.taps := rfl
@[simp] theorem Block.setPl_frozen (p : Nat) (x : Pipe) : (b.setPl p x).frozen = b.frozen := rfl
@[simp] theorem Block.setPl_jlast (p : Nat) (x : Pipe) : (b.setPl p x).jlast = b.jlast := rfl
@[simp] theorem Block.setPl_ldg (p : Nat) (x : Pipe) : (b.setPl p x).ldg = b.ldg := rfl
@[simp] theorem Block.setPl_host (p : Nat) (x : Pipe) : (b.setPl p x).host = b.host := rfl
@[simp] theorem Block.setPl_seq (p : Nat) (x : Pipe) : (b.setPl p x).seq = b.seq := rfl
@[simp] theorem Block.setPl_svc (p : Nat) (x : Pipe) : (b.setPl p x).svc = b.svc := rfl
@[simp] theorem Block.setPl_pair (p : Nat) (x : Pipe) : (b.setPl p x).pair = b.pair := rfl
@[simp] theorem Block.setPl_start (p : Nat) (x : Pipe) : (b.setPl p x).start = b.start := rfl
@[simp] theorem Block.setPl_trail (p : Nat) (x : Pipe) : (b.setPl p x).trail = b.trail := rfl
@[simp] theorem Block.setPl_shadow (p : Nat) (x : Pipe) : (b.setPl p x).shadow = b.shadow := rfl
@[simp] theorem Block.setPl_perst (p : Nat) (x : Pipe) : (b.setPl p x).perst = b.perst := rfl
@[simp] theorem Block.setPl_perstSeen (p : Nat) (x : Pipe) : (b.setPl p x).perstSeen = b.perstSeen := rfl
@[simp] theorem Block.setPl_lowTo (p : Nat) (x : Pipe) : (b.setPl p x).lowTo = b.lowTo := rfl
@[simp] theorem Block.setPl_cfgReady (p : Nat) (x : Pipe) : (b.setPl p x).cfgReady = b.cfgReady := rfl
@[simp] theorem Block.setPl_held (p : Nat) (x : Pipe) : (b.setPl p x).held = b.held := rfl
@[simp] theorem Block.setPl_bad (p : Nat) (x : Pipe) : (b.setPl p x).bad = b.bad := rfl
@[simp] theorem Block.setPl_free (p : Nat) (x : Pipe) : (b.setPl p x).free = b.free := rfl
@[simp] theorem Block.setPl_out (p : Nat) (x : Pipe) : (b.setPl p x).out = b.out := rfl
@[simp] theorem Block.setPl_rd (p : Nat) (x : Pipe) (off : Nat) : (b.setPl p x).rd off = b.rd off := rfl

/-! ### setAct -/

@[simp] theorem Block.setAct_regs (i : Nat) (e : ActEntry) : (b.setAct i e).regs = b.regs := rfl
@[simp] theorem Block.setAct_cyc (i : Nat) (e : ActEntry) : (b.setAct i e).cyc = b.cyc := rfl
@[simp] theorem Block.setAct_now (i : Nat) (e : ActEntry) : (b.setAct i e).now = b.now := rfl
@[simp] theorem Block.setAct_stage_ (i : Nat) (e : ActEntry) : (b.setAct i e).stage_ = b.stage_ := rfl
@[simp] theorem Block.setAct_tim (i : Nat) (e : ActEntry) : (b.setAct i e).tim = b.tim := rfl
@[simp] theorem Block.setAct_pos (i : Nat) (e : ActEntry) : (b.setAct i e).pos = b.pos := rfl
@[simp] theorem Block.setAct_stk (i : Nat) (e : ActEntry) : (b.setAct i e).stk = b.stk := rfl
@[simp] theorem Block.setAct_sched (i : Nat) (e : ActEntry) : (b.setAct i e).sched = b.sched := rfl
@[simp] theorem Block.setAct_strikes (i : Nat) (e : ActEntry) : (b.setAct i e).strikes = b.strikes := rfl
@[simp] theorem Block.setAct_bounds (i : Nat) (e : ActEntry) : (b.setAct i e).bounds = b.bounds := rfl
@[simp] theorem Block.setAct_giver (i : Nat) (e : ActEntry) : (b.setAct i e).giver = b.giver := rfl
@[simp] theorem Block.setAct_released (i : Nat) (e : ActEntry) : (b.setAct i e).released = b.released := rfl
@[simp] theorem Block.setAct_stage (i : Nat) (e : ActEntry) : (b.setAct i e).stage = b.stage := rfl
@[simp] theorem Block.setAct_ports (i : Nat) (e : ActEntry) : (b.setAct i e).ports = b.ports := rfl
@[simp] theorem Block.setAct_heads (i : Nat) (e : ActEntry) : (b.setAct i e).heads = b.heads := rfl
@[simp] theorem Block.setAct_pipes (i : Nat) (e : ActEntry) : (b.setAct i e).pipes = b.pipes := rfl
@[simp] theorem Block.setAct_hbm (i : Nat) (e : ActEntry) : (b.setAct i e).hbm = b.hbm := rfl
@[simp] theorem Block.setAct_vrd (i : Nat) (e : ActEntry) : (b.setAct i e).vrd = b.vrd := rfl
@[simp] theorem Block.setAct_seam (i : Nat) (e : ActEntry) : (b.setAct i e).seam = b.seam := rfl
@[simp] theorem Block.setAct_bud (i : Nat) (e : ActEntry) : (b.setAct i e).bud = b.bud := rfl
@[simp] theorem Block.setAct_defTab (i : Nat) (e : ActEntry) : (b.setAct i e).defTab = b.defTab := rfl
@[simp] theorem Block.setAct_defQueue (i : Nat) (e : ActEntry) : (b.setAct i e).defQueue = b.defQueue := rfl
@[simp] theorem Block.setAct_defEdit (i : Nat) (e : ActEntry) : (b.setAct i e).defEdit = b.defEdit := rfl
@[simp] theorem Block.setAct_taps (i : Nat) (e : ActEntry) : (b.setAct i e).taps = b.taps := rfl
@[simp] theorem Block.setAct_frozen (i : Nat) (e : ActEntry) : (b.setAct i e).frozen = b.frozen := rfl
@[simp] theorem Block.setAct_jlast (i : Nat) (e : ActEntry) : (b.setAct i e).jlast = b.jlast := rfl
@[simp] theorem Block.setAct_ldg (i : Nat) (e : ActEntry) : (b.setAct i e).ldg = b.ldg := rfl
@[simp] theorem Block.setAct_host (i : Nat) (e : ActEntry) : (b.setAct i e).host = b.host := rfl
@[simp] theorem Block.setAct_seq (i : Nat) (e : ActEntry) : (b.setAct i e).seq = b.seq := rfl
@[simp] theorem Block.setAct_svc (i : Nat) (e : ActEntry) : (b.setAct i e).svc = b.svc := rfl
@[simp] theorem Block.setAct_pair (i : Nat) (e : ActEntry) : (b.setAct i e).pair = b.pair := rfl
@[simp] theorem Block.setAct_start (i : Nat) (e : ActEntry) : (b.setAct i e).start = b.start := rfl
@[simp] theorem Block.setAct_trail (i : Nat) (e : ActEntry) : (b.setAct i e).trail = b.trail := rfl
@[simp] theorem Block.setAct_shadow (i : Nat) (e : ActEntry) : (b.setAct i e).shadow = b.shadow := rfl
@[simp] theorem Block.setAct_perst (i : Nat) (e : ActEntry) : (b.setAct i e).perst = b.perst := rfl
@[simp] theorem Block.setAct_perstSeen (i : Nat) (e : ActEntry) : (b.setAct i e).perstSeen = b.perstSeen := rfl
@[simp] theorem Block.setAct_lowTo (i : Nat) (e : ActEntry) : (b.setAct i e).lowTo = b.lowTo := rfl
@[simp] theorem Block.setAct_cfgReady (i : Nat) (e : ActEntry) : (b.setAct i e).cfgReady = b.cfgReady := rfl
@[simp] theorem Block.setAct_held (i : Nat) (e : ActEntry) : (b.setAct i e).held = b.held := rfl
@[simp] theorem Block.setAct_bad (i : Nat) (e : ActEntry) : (b.setAct i e).bad = b.bad := rfl
@[simp] theorem Block.setAct_free (i : Nat) (e : ActEntry) : (b.setAct i e).free = b.free := rfl
@[simp] theorem Block.setAct_out (i : Nat) (e : ActEntry) : (b.setAct i e).out = b.out := rfl
@[simp] theorem Block.setAct_rd (i : Nat) (e : ActEntry) (off : Nat) : (b.setAct i e).rd off = b.rd off := rfl

/-! ### setThr -/

@[simp] theorem Block.setThr_regs (t : Nat) (x : SeqThr) : (b.setThr t x).regs = b.regs := rfl
@[simp] theorem Block.setThr_cyc (t : Nat) (x : SeqThr) : (b.setThr t x).cyc = b.cyc := rfl
@[simp] theorem Block.setThr_now (t : Nat) (x : SeqThr) : (b.setThr t x).now = b.now := rfl
@[simp] theorem Block.setThr_stage_ (t : Nat) (x : SeqThr) : (b.setThr t x).stage_ = b.stage_ := rfl
@[simp] theorem Block.setThr_tim (t : Nat) (x : SeqThr) : (b.setThr t x).tim = b.tim := rfl
@[simp] theorem Block.setThr_pos (t : Nat) (x : SeqThr) : (b.setThr t x).pos = b.pos := rfl
@[simp] theorem Block.setThr_stk (t : Nat) (x : SeqThr) : (b.setThr t x).stk = b.stk := rfl
@[simp] theorem Block.setThr_sched (t : Nat) (x : SeqThr) : (b.setThr t x).sched = b.sched := rfl
@[simp] theorem Block.setThr_strikes (t : Nat) (x : SeqThr) : (b.setThr t x).strikes = b.strikes := rfl
@[simp] theorem Block.setThr_bounds (t : Nat) (x : SeqThr) : (b.setThr t x).bounds = b.bounds := rfl
@[simp] theorem Block.setThr_giver (t : Nat) (x : SeqThr) : (b.setThr t x).giver = b.giver := rfl
@[simp] theorem Block.setThr_released (t : Nat) (x : SeqThr) : (b.setThr t x).released = b.released := rfl
@[simp] theorem Block.setThr_act (t : Nat) (x : SeqThr) : (b.setThr t x).act = b.act := rfl
@[simp] theorem Block.setThr_stage (t : Nat) (x : SeqThr) : (b.setThr t x).stage = b.stage := rfl
@[simp] theorem Block.setThr_ports (t : Nat) (x : SeqThr) : (b.setThr t x).ports = b.ports := rfl
@[simp] theorem Block.setThr_heads (t : Nat) (x : SeqThr) : (b.setThr t x).heads = b.heads := rfl
@[simp] theorem Block.setThr_pipes (t : Nat) (x : SeqThr) : (b.setThr t x).pipes = b.pipes := rfl
@[simp] theorem Block.setThr_hbm (t : Nat) (x : SeqThr) : (b.setThr t x).hbm = b.hbm := rfl
@[simp] theorem Block.setThr_vrd (t : Nat) (x : SeqThr) : (b.setThr t x).vrd = b.vrd := rfl
@[simp] theorem Block.setThr_seam (t : Nat) (x : SeqThr) : (b.setThr t x).seam = b.seam := rfl
@[simp] theorem Block.setThr_bud (t : Nat) (x : SeqThr) : (b.setThr t x).bud = b.bud := rfl
@[simp] theorem Block.setThr_defTab (t : Nat) (x : SeqThr) : (b.setThr t x).defTab = b.defTab := rfl
@[simp] theorem Block.setThr_defQueue (t : Nat) (x : SeqThr) : (b.setThr t x).defQueue = b.defQueue := rfl
@[simp] theorem Block.setThr_defEdit (t : Nat) (x : SeqThr) : (b.setThr t x).defEdit = b.defEdit := rfl
@[simp] theorem Block.setThr_taps (t : Nat) (x : SeqThr) : (b.setThr t x).taps = b.taps := rfl
@[simp] theorem Block.setThr_frozen (t : Nat) (x : SeqThr) : (b.setThr t x).frozen = b.frozen := rfl
@[simp] theorem Block.setThr_jlast (t : Nat) (x : SeqThr) : (b.setThr t x).jlast = b.jlast := rfl
@[simp] theorem Block.setThr_ldg (t : Nat) (x : SeqThr) : (b.setThr t x).ldg = b.ldg := rfl
@[simp] theorem Block.setThr_host (t : Nat) (x : SeqThr) : (b.setThr t x).host = b.host := rfl
@[simp] theorem Block.setThr_svc (t : Nat) (x : SeqThr) : (b.setThr t x).svc = b.svc := rfl
@[simp] theorem Block.setThr_pair (t : Nat) (x : SeqThr) : (b.setThr t x).pair = b.pair := rfl
@[simp] theorem Block.setThr_start (t : Nat) (x : SeqThr) : (b.setThr t x).start = b.start := rfl
@[simp] theorem Block.setThr_trail (t : Nat) (x : SeqThr) : (b.setThr t x).trail = b.trail := rfl
@[simp] theorem Block.setThr_shadow (t : Nat) (x : SeqThr) : (b.setThr t x).shadow = b.shadow := rfl
@[simp] theorem Block.setThr_perst (t : Nat) (x : SeqThr) : (b.setThr t x).perst = b.perst := rfl
@[simp] theorem Block.setThr_perstSeen (t : Nat) (x : SeqThr) : (b.setThr t x).perstSeen = b.perstSeen := rfl
@[simp] theorem Block.setThr_lowTo (t : Nat) (x : SeqThr) : (b.setThr t x).lowTo = b.lowTo := rfl
@[simp] theorem Block.setThr_cfgReady (t : Nat) (x : SeqThr) : (b.setThr t x).cfgReady = b.cfgReady := rfl
@[simp] theorem Block.setThr_held (t : Nat) (x : SeqThr) : (b.setThr t x).held = b.held := rfl
@[simp] theorem Block.setThr_bad (t : Nat) (x : SeqThr) : (b.setThr t x).bad = b.bad := rfl
@[simp] theorem Block.setThr_free (t : Nat) (x : SeqThr) : (b.setThr t x).free = b.free := rfl
@[simp] theorem Block.setThr_out (t : Nat) (x : SeqThr) : (b.setThr t x).out = b.out := rfl
@[simp] theorem Block.setThr_rd (t : Nat) (x : SeqThr) (off : Nat) : (b.setThr t x).rd off = b.rd off := rfl

/-! ### setStr -/

@[simp] theorem Block.setStr_regs (s : Nat) (x : StreamSt) : (b.setStr s x).regs = b.regs := rfl
@[simp] theorem Block.setStr_cyc (s : Nat) (x : StreamSt) : (b.setStr s x).cyc = b.cyc := rfl
@[simp] theorem Block.setStr_now (s : Nat) (x : StreamSt) : (b.setStr s x).now = b.now := rfl
@[simp] theorem Block.setStr_stage_ (s : Nat) (x : StreamSt) : (b.setStr s x).stage_ = b.stage_ := rfl
@[simp] theorem Block.setStr_tim (s : Nat) (x : StreamSt) : (b.setStr s x).tim = b.tim := rfl
@[simp] theorem Block.setStr_pos (s : Nat) (x : StreamSt) : (b.setStr s x).pos = b.pos := rfl
@[simp] theorem Block.setStr_stk (s : Nat) (x : StreamSt) : (b.setStr s x).stk = b.stk := rfl
@[simp] theorem Block.setStr_sched (s : Nat) (x : StreamSt) : (b.setStr s x).sched = b.sched := rfl
@[simp] theorem Block.setStr_strikes (s : Nat) (x : StreamSt) : (b.setStr s x).strikes = b.strikes := rfl
@[simp] theorem Block.setStr_bounds (s : Nat) (x : StreamSt) : (b.setStr s x).bounds = b.bounds := rfl
@[simp] theorem Block.setStr_giver (s : Nat) (x : StreamSt) : (b.setStr s x).giver = b.giver := rfl
@[simp] theorem Block.setStr_released (s : Nat) (x : StreamSt) : (b.setStr s x).released = b.released := rfl
@[simp] theorem Block.setStr_act (s : Nat) (x : StreamSt) : (b.setStr s x).act = b.act := rfl
@[simp] theorem Block.setStr_stage (s : Nat) (x : StreamSt) : (b.setStr s x).stage = b.stage := rfl
@[simp] theorem Block.setStr_ports (s : Nat) (x : StreamSt) : (b.setStr s x).ports = b.ports := rfl
@[simp] theorem Block.setStr_heads (s : Nat) (x : StreamSt) : (b.setStr s x).heads = b.heads := rfl
@[simp] theorem Block.setStr_pipes (s : Nat) (x : StreamSt) : (b.setStr s x).pipes = b.pipes := rfl
@[simp] theorem Block.setStr_hbm (s : Nat) (x : StreamSt) : (b.setStr s x).hbm = b.hbm := rfl
@[simp] theorem Block.setStr_vrd (s : Nat) (x : StreamSt) : (b.setStr s x).vrd = b.vrd := rfl
@[simp] theorem Block.setStr_seam (s : Nat) (x : StreamSt) : (b.setStr s x).seam = b.seam := rfl
@[simp] theorem Block.setStr_bud (s : Nat) (x : StreamSt) : (b.setStr s x).bud = b.bud := rfl
@[simp] theorem Block.setStr_defTab (s : Nat) (x : StreamSt) : (b.setStr s x).defTab = b.defTab := rfl
@[simp] theorem Block.setStr_defQueue (s : Nat) (x : StreamSt) : (b.setStr s x).defQueue = b.defQueue := rfl
@[simp] theorem Block.setStr_defEdit (s : Nat) (x : StreamSt) : (b.setStr s x).defEdit = b.defEdit := rfl
@[simp] theorem Block.setStr_taps (s : Nat) (x : StreamSt) : (b.setStr s x).taps = b.taps := rfl
@[simp] theorem Block.setStr_frozen (s : Nat) (x : StreamSt) : (b.setStr s x).frozen = b.frozen := rfl
@[simp] theorem Block.setStr_jlast (s : Nat) (x : StreamSt) : (b.setStr s x).jlast = b.jlast := rfl
@[simp] theorem Block.setStr_ldg (s : Nat) (x : StreamSt) : (b.setStr s x).ldg = b.ldg := rfl
@[simp] theorem Block.setStr_seq (s : Nat) (x : StreamSt) : (b.setStr s x).seq = b.seq := rfl
@[simp] theorem Block.setStr_svc (s : Nat) (x : StreamSt) : (b.setStr s x).svc = b.svc := rfl
@[simp] theorem Block.setStr_pair (s : Nat) (x : StreamSt) : (b.setStr s x).pair = b.pair := rfl
@[simp] theorem Block.setStr_start (s : Nat) (x : StreamSt) : (b.setStr s x).start = b.start := rfl
@[simp] theorem Block.setStr_trail (s : Nat) (x : StreamSt) : (b.setStr s x).trail = b.trail := rfl
@[simp] theorem Block.setStr_shadow (s : Nat) (x : StreamSt) : (b.setStr s x).shadow = b.shadow := rfl
@[simp] theorem Block.setStr_perst (s : Nat) (x : StreamSt) : (b.setStr s x).perst = b.perst := rfl
@[simp] theorem Block.setStr_perstSeen (s : Nat) (x : StreamSt) : (b.setStr s x).perstSeen = b.perstSeen := rfl
@[simp] theorem Block.setStr_lowTo (s : Nat) (x : StreamSt) : (b.setStr s x).lowTo = b.lowTo := rfl
@[simp] theorem Block.setStr_cfgReady (s : Nat) (x : StreamSt) : (b.setStr s x).cfgReady = b.cfgReady := rfl
@[simp] theorem Block.setStr_held (s : Nat) (x : StreamSt) : (b.setStr s x).held = b.held := rfl
@[simp] theorem Block.setStr_bad (s : Nat) (x : StreamSt) : (b.setStr s x).bad = b.bad := rfl
@[simp] theorem Block.setStr_free (s : Nat) (x : StreamSt) : (b.setStr s x).free = b.free := rfl
@[simp] theorem Block.setStr_out (s : Nat) (x : StreamSt) : (b.setStr s x).out = b.out := rfl
@[simp] theorem Block.setStr_rd (s : Nat) (x : StreamSt) (off : Nat) : (b.setStr s x).rd off = b.rd off := rfl

/-! ### mend -/

@[simp] theorem mend_regs (p : Upset → Bool) : (mend p b).regs = b.regs := rfl
@[simp] theorem mend_cyc (p : Upset → Bool) : (mend p b).cyc = b.cyc := rfl
@[simp] theorem mend_now (p : Upset → Bool) : (mend p b).now = b.now := rfl
@[simp] theorem mend_stage_ (p : Upset → Bool) : (mend p b).stage_ = b.stage_ := rfl
@[simp] theorem mend_tim (p : Upset → Bool) : (mend p b).tim = b.tim := rfl
@[simp] theorem mend_pos (p : Upset → Bool) : (mend p b).pos = b.pos := rfl
@[simp] theorem mend_stk (p : Upset → Bool) : (mend p b).stk = b.stk := rfl
@[simp] theorem mend_sched (p : Upset → Bool) : (mend p b).sched = b.sched := rfl
@[simp] theorem mend_strikes (p : Upset → Bool) : (mend p b).strikes = b.strikes := rfl
@[simp] theorem mend_bounds (p : Upset → Bool) : (mend p b).bounds = b.bounds := rfl
@[simp] theorem mend_giver (p : Upset → Bool) : (mend p b).giver = b.giver := rfl
@[simp] theorem mend_released (p : Upset → Bool) : (mend p b).released = b.released := rfl
@[simp] theorem mend_act (p : Upset → Bool) : (mend p b).act = b.act := rfl
@[simp] theorem mend_stage (p : Upset → Bool) : (mend p b).stage = b.stage := rfl
@[simp] theorem mend_ports (p : Upset → Bool) : (mend p b).ports = b.ports := rfl
@[simp] theorem mend_heads (p : Upset → Bool) : (mend p b).heads = b.heads := rfl
@[simp] theorem mend_pipes (p : Upset → Bool) : (mend p b).pipes = b.pipes := rfl
@[simp] theorem mend_hbm (p : Upset → Bool) : (mend p b).hbm = b.hbm := rfl
@[simp] theorem mend_vrd (p : Upset → Bool) : (mend p b).vrd = b.vrd := rfl
@[simp] theorem mend_seam (p : Upset → Bool) : (mend p b).seam = b.seam := rfl
@[simp] theorem mend_bud (p : Upset → Bool) : (mend p b).bud = b.bud := rfl
@[simp] theorem mend_defTab (p : Upset → Bool) : (mend p b).defTab = b.defTab := rfl
@[simp] theorem mend_defQueue (p : Upset → Bool) : (mend p b).defQueue = b.defQueue := rfl
@[simp] theorem mend_defEdit (p : Upset → Bool) : (mend p b).defEdit = b.defEdit := rfl
@[simp] theorem mend_taps (p : Upset → Bool) : (mend p b).taps = b.taps := rfl
@[simp] theorem mend_frozen (p : Upset → Bool) : (mend p b).frozen = b.frozen := rfl
@[simp] theorem mend_jlast (p : Upset → Bool) : (mend p b).jlast = b.jlast := rfl
@[simp] theorem mend_ldg (p : Upset → Bool) : (mend p b).ldg = b.ldg := rfl
@[simp] theorem mend_host (p : Upset → Bool) : (mend p b).host = b.host := rfl
@[simp] theorem mend_seq (p : Upset → Bool) : (mend p b).seq = b.seq := rfl
@[simp] theorem mend_svc (p : Upset → Bool) : (mend p b).svc = b.svc := rfl
@[simp] theorem mend_pair (p : Upset → Bool) : (mend p b).pair = b.pair := rfl
@[simp] theorem mend_start (p : Upset → Bool) : (mend p b).start = b.start := rfl
@[simp] theorem mend_trail (p : Upset → Bool) : (mend p b).trail = b.trail := rfl
@[simp] theorem mend_shadow (p : Upset → Bool) : (mend p b).shadow = b.shadow := rfl
@[simp] theorem mend_perst (p : Upset → Bool) : (mend p b).perst = b.perst := rfl
@[simp] theorem mend_perstSeen (p : Upset → Bool) : (mend p b).perstSeen = b.perstSeen := rfl
@[simp] theorem mend_lowTo (p : Upset → Bool) : (mend p b).lowTo = b.lowTo := rfl
@[simp] theorem mend_cfgReady (p : Upset → Bool) : (mend p b).cfgReady = b.cfgReady := rfl
@[simp] theorem mend_held (p : Upset → Bool) : (mend p b).held = b.held := rfl
@[simp] theorem mend_free (p : Upset → Bool) : (mend p b).free = b.free := rfl
@[simp] theorem mend_out (p : Upset → Bool) : (mend p b).out = b.out := rfl
@[simp] theorem mend_rd (p : Upset → Bool) (off : Nat) : (mend p b).rd off = b.rd off := rfl

end

end Sys2Proof.Machine
end

