-- ==== Sys2Proof/Laws/Regs.lean ====
section
/-! SUPPORT. The laws of the register file and of the units' sparse maps: a read after a write, and what carrying out a
command adds to the command's own effect. -/

namespace Sys2Proof.Machine

section
variable (b : Block)

/-- A register read after a write, in one equation. -/
theorem Block.rd_wr (off : Nat) (v : Word) (o : Nat) : (b.wr off v).rd o = if o = off then v else b.rd o := by
  simp [Block.rd, Block.wr, SMap.get_set]

@[simp] theorem Block.rd_wr_same (off : Nat) (v : Word) : (b.wr off v).rd off = v := by simp [Block.rd_wr]

theorem Block.rd_wr_other (off : Nat) (v : Word) (o : Nat) (h : o ≠ off) : (b.wr off v).rd o = b.rd o := by
  simp [Block.rd_wr, h]

@[simp] theorem Block.ch_setCh_same (n : Nat) (c : PosCh) : (b.setCh n c).ch n = c := by
  simp [Block.ch, Block.setCh]

theorem Block.ch_setCh_other (n m : Nat) (c : PosCh) (h : m ≠ n) : (b.setCh n c).ch m = b.ch m := by
  simp [Block.ch, Block.setCh, SMap.get_set, h]

@[simp] theorem Block.grp_setGrp_same (g : Nat) (x : StkGrp) : (b.setGrp g x).grp g = x := by
  simp [Block.grp, Block.setGrp]

theorem Block.grp_setGrp_other (g k : Nat) (x : StkGrp) (h : k ≠ g) : (b.setGrp g x).grp k = b.grp k := by
  simp [Block.grp, Block.setGrp, SMap.get_set, h]

@[simp] theorem Block.port_setPort_same (h : Nat) (p : HdPort) : (b.setPort h p).port h = p := by
  simp [Block.port, Block.setPort]

@[simp] theorem Block.hd_setHd_same (h : Nat) (x : HeadSt) :
    (b.setHd h x).hd h = x := by simp [Block.hd, Block.setHd]

@[simp] theorem Block.pl_setPl_same (p : Nat) (x : Pipe) : (b.setPl p x).pl p = x := by
  simp [Block.pl, Block.setPl]

@[simp] theorem Block.actE_setAct_same (i : Nat) (e : ActEntry) : (b.setAct i e).actE i = e := by
  simp [Block.actE, Block.setAct]

@[simp] theorem Block.thr_setThr_same (t : Nat) (x : SeqThr) : (b.setThr t x).thr t = x := by
  simp [Block.thr, Block.setThr]

@[simp] theorem Block.str_setStr_same (s : Nat) (x : StreamSt) : (b.setStr s x).str s = x := by
  simp [Block.str, Block.setStr]

end

/-! ### Fields of words -/

/-- Bits of a word with a field replaced. -/
theorem getLsbD_setFieldOf (w : Word) (hi lo v i : Nat) (h : hi < 32) (l : lo ≤ hi) :
    (setFieldOf w hi lo v).getLsbD i = if lo ≤ i ∧ i ≤ hi then v.testBit (i - lo) else w.getLsbD i := by
  have hm : (fieldMask hi lo).getLsbD i = decide (lo ≤ i ∧ i ≤ hi) := by
    simp only [fieldMask, BitVec.getLsbD_ofNat, Nat.testBit_shiftLeft, Nat.testBit_two_pow_sub_one]
    by_cases h1 : lo ≤ i <;> by_cases h2 : i ≤ hi <;> simp [h1, h2] <;> omega
  simp only [setFieldOf, BitVec.getLsbD_or, BitVec.getLsbD_and, BitVec.getLsbD_not, hm, BitVec.getLsbD_ofNat,
    Nat.testBit_shiftLeft]
  by_cases h3 : i < 32
  · by_cases h1 : lo ≤ i <;> by_cases h2 : i ≤ hi <;> simp [h1, h2, h3]
  · have h2 : ¬ i ≤ hi := by omega
    simp [h2, h3, BitVec.getLsbD_of_ge w i (by omega)]

/-- A field's bits. -/
theorem testBit_fieldOf (w : Word) (hi lo i : Nat) :
    (fieldOf w hi lo).testBit i = (decide (i < hi + 1 - lo) && w.getLsbD (lo + i)) := by
  simp [fieldOf, Nat.testBit_mod_two_pow, BitVec.getLsbD]

/-- A field read after it was replaced. -/
theorem fieldOf_setFieldOf_same (w : Word) (hi lo v : Nat) (h : hi < 32) (l : lo ≤ hi) :
    fieldOf (setFieldOf w hi lo v) hi lo = v % 2 ^ (hi + 1 - lo) := by
  apply Nat.eq_of_testBit_eq
  intro i
  rw [testBit_fieldOf, getLsbD_setFieldOf _ _ _ _ _ h l, Nat.testBit_mod_two_pow]
  by_cases hi' : i < hi + 1 - lo
  · have : lo ≤ lo + i ∧ lo + i ≤ hi := by omega
    simp [hi', this]
  · simp [hi']

/-- A field read after another was replaced. -/
theorem fieldOf_setFieldOf_other (w : Word) (hi lo v hi' lo' : Nat) (h : hi < 32) (l : lo ≤ hi)
    (d : hi' < lo ∨ hi < lo') : fieldOf (setFieldOf w hi lo v) hi' lo' = fieldOf w hi' lo' := by
  apply Nat.eq_of_testBit_eq
  intro i
  rw [testBit_fieldOf, testBit_fieldOf, getLsbD_setFieldOf _ _ _ _ _ h l]
  by_cases hi' : i < hi' + 1 - lo'
  · have : ¬ (lo ≤ lo' + i ∧ lo' + i ≤ hi) := by omega
    simp [this]
  · simp [hi']

/-! ### What carrying out a command adds (R374) -/

/-- What a message of a vector changes: the vector's pending bit, what the block has emitted. -/
theorem sendMsix_eq (v : Nat) (b : Block) : ∃ r o, sendMsix v b = { b with regs := r, out := o } ∧
    ∀ off, off ≠ Reg.MSIX_PBA (v / 32) → r.get resetOf off = b.rd off := by
  unfold sendMsix
  split
  · exact ⟨b.regs, b.out, rfl, fun _ _ => rfl⟩
  · split
    · exact ⟨_, _, rfl, fun off h => by simp [SMap.get_set, h, Block.rd]⟩
    · split
      · exact ⟨b.regs, _, rfl, fun _ _ => rfl⟩
      · exact ⟨_, _, rfl, fun off h => by simp [SMap.get_set, h, Block.rd]⟩

/-- What a source's signal changes: its moderation, the pending bit of its vector, what the block has emitted. -/
theorem signalVec_eq (src imod : Nat) (b : Block) : ∃ r o x, signalVec src imod b =
    { b with regs := r, out := o, host := { b.host with vecs := x } } ∧
    ∀ off, off ≠ Reg.MSIX_PBA (b.vecOf src / 32) → r.get resetOf off = b.rd off := by
  obtain ⟨r, o, e, hr⟩ := sendMsix_eq (b.vecOf src) b
  unfold signalVec
  dsimp only
  split
  · exact ⟨b.regs, b.out, b.host.vecs, rfl, fun _ _ => rfl⟩
  · split
    · exact ⟨b.regs, b.out, _, rfl, fun _ _ => rfl⟩
    · rw [e]
      split
      · exact ⟨r, o, b.host.vecs, rfl, hr⟩
      · exact ⟨r, o, _, rfl, hr⟩

/-- The interrupt summary changes nothing but vector 0: its moderation, its pending bit, what the block has emitted. -/
theorem requestSummary_eq (a b : Block) : ∃ r o x, requestSummary a b =
    { b with regs := r, out := o, host := { b.host with vecs := x } } ∧
    ∀ off, off ≠ Reg.MSIX_PBA 0 → r.get resetOf off = b.rd off := by
  unfold requestSummary
  split
  · exact ⟨b.regs, b.out, b.host.vecs, rfl, fun _ _ => rfl⟩
  · have h0 : b.vecOf 0 = 0 := by simp [Block.vecOf]
    have h := signalVec_eq 0 (b.fld Reg.GLB_IMOD 15 0) b
    rwa [h0] at h

/-- Mirroring a write only emits frames, which the replay buffer keeps. -/
theorem mirror_eq (w : PairWrite) (b : Block) : ∃ o l, mirror w b = { b with out := o, trail := l } := by
  unfold mirror pairSend
  split
  · exact ⟨_, _, rfl⟩
  · exact ⟨b.out, b.trail, rfl⟩

/-- Mirroring a register write only emits frames, which the replay buffer keeps. -/
theorem mirrorReg_eq (r : Requester) (off : Nat) (val : Word) (b : Block) :
    ∃ o l, mirrorReg r off val b = { b with out := o, trail := l } := by
  unfold mirrorReg
  dsimp only
  repeat' split
  all_goals first
    | exact mirror_eq _ _
    | exact ⟨b.out, b.trail, rfl⟩

end Sys2Proof.Machine
end

