-- ==== Sys2Proof/WellFormed.lean ====
section
/-! DEFINITION. What a sender may put into a command: the lengths and ranges that the manual gives to the lists a command
carries. A command that fails the check is one that no pin, packet or bus of the block can spell. -/

namespace Sys2Proof

/-- The largest BAR2 window and the size of HBM, 16 GB (R19, R263). -/
def barMax : Nat := 2 ^ 34

/-- Bytes placed at an offset: at least one, and all inside 16 GB (R19). -/
def bytesWf {α : Type} (off : Nat) (data : List α) : Bool :=
  decide (data ≠ []) && decide (off + data.length ≤ barMax)

/-- Places of pixels, none named twice, in a frame of at most 2,048 columns and 1,536 rows (R77,
R85). -/
def placesWf (xs : List (Nat × Nat)) : Bool :=
  xs.all (fun x => decide (x.1 < 1536) && decide (x.2 < 2048)) && decide xs.Nodup

/-- Residue mismatches, at most one at a pixel and stage (R98). -/
def mismatchesWf (xs : List Mismatch) : Bool :=
  xs.all (fun x => decide (x.line < 1536) && decide (x.col < 2048)) && decide xs.Nodup

/-- Pixels, none named twice. -/
def pixelsWf (xs : List PixelAt) : Bool := placesWf (xs.map fun x => (x.line, x.col))

/-- A record of at most 8 readings (R113). -/
def readingsWf (readings : List Reading) : Bool := decide (readings.length ≤ 8)

/-- What a WRITE frame may carry (R338). -/
def PairWrite.wf : PairWrite → Bool
  | .reg _ _ off _ => off.toNat % 4 == 0
  | .stage _ _ _ off _ => off.toNat % 4 == 0
  | .hbm off data => bytesWf off data
  | .forecast _ readings _ _ => readingsWf readings
  | .thread _ _ | .calShut _ _ _ | .trim _ _ _ _ | .calStart _ _ | .calFrame _ _ | .calOutcome _ _ | .calSwitch _ _ | .frameStep _ _ _ => true
  | .ledger _ _ body _ => decide (body.length < 2 ^ 16)
  | .increment _ _ => true

/-- What a part of a bulk transfer may carry (R345). -/
def BulkItem.wf : BulkItem → Bool
  | .reg off _ => off.toNat % 4 == 0
  | .hbm addr data => bytesWf addr data
  | .action _ => true
  | .forecast _ readings _ _ => readingsWf readings
  | .group .. | .position .. | .done => true

/-- The unit of a vote disagreement (R65): 0 to 7 a position channel, 8 to 15 a strike group. -/
def Vote.unit : Vote → Fin 16
  | .minority unit _ => unit
  | .noMajority ch _ _ _ => ch.castLE (by decide)

/-- The check of a command, by constructor. -/
def Instr.wf : Instr → Bool
  | .registerWrite r _ _ .poisoned => r == .host
  | .registerWrite _ _ _ (.bytes _) => true
  | .timeTick votes _ _ _ => decide ((votes.map Vote.unit).Nodup)
  | .encoderLevelChange .. | .filterAccept .. | .standstill .. | .posCtlWrite .. | .posStallWrite .. | .hwmToPos ..
  | .slipRearm .. | .load .. | .timIncWrite .. | .step .. | .set .. | .ppsEdge .. | .ppsMiss .. | .toutArm ..
  | .toutStop .. | .toutEdge .. | .toutPulseEnd .. | .ptmReq .. | .ptmAutoInterval .. | .ptmResponse ..
  | .ptmTimeout .. | .routeHoldEnd .. | .stkGrpCtlWrite .. | .stkPitchAnchorWrite .. | .stkPortWrite ..
  | .interpolatedStrike .. | .idleStrike .. | .strikeNow .. | .strikeSymbolEmit .. | .commandSend ..
  | .cmdGo .. | .responsePacket .. | .cmdTimeout .. | .blockLock .. | .lockLoss .. | .alignmentMarker .. | .alignmentLoss .. | .retrain ..
  | .reload .. | .charLoadComplete .. | .charTimeout .. | .measure .. | .echoAnswer .. | .echoTimeout ..
  | .linePacket .. | .trailerPacket .. | .trailerTimeout .. | .hdBindBind .. | .hdBindUnbind .. | .hdBankSwitch .. | .hdBankCancel ..
  | .digGo .. | .digestDone .. | .plBist .. | .bistCancel .. | .bistStart .. | .bistEnd .. | .preset .. => true
  | .lineCorrection _ mismatch records buffers =>
    mismatchesWf mismatch && pixelsWf (records.map (·.pixel)) && pixelsWf buffers
  | .restrikeEnd r => mismatchesWf r.mismatch
  | .sealDecision .. | .restrikeStart .. | .fcReset .. | .insert .. | .delete .. | .clearHead ..
  | .defEditDone .. | .defDataRead .. | .emisSwitch .. | .curveLoad .. | .curveLoadDone .. | .tblDataAccess ..
  | .mgStart .. | .mgAbort .. | .mergeRunBegin .. | .mergeAccumulate .. | .bandIntegration .. | .flush ..
  | .stripLineForm .. | .seamWaitExpiry .. | .relayUpdate .. | .trimWrite .. | .verdictEvaluation .. | .actArm ..
  | .actCancel .. | .keyReached .. | .actionExecuteDeferred .. | .eoSet .. | .eoClr .. | .eoPulseEnd .. | .eiEdge ..
  | .calAgeTrigger .. | .calRetryTimer .. | .req .. | .reqForce .. | .calAbort .. | .stopRetry .. | .restore ..
  | .calRunStart .. | .calGrant .. | .calSettleEnd .. | .calBankWrite .. | .calOpenSettleEnd .. | .threadStart ..
  | .resume .. | .threadStep .. | .stop .. | .treset .. | .wakeset .. | .waitResume .. | .save .. | .erase ..
  | .saveDone .. | .ledgerHoldTimeout .. | .nop .. | .halt .. | .add .. | .sub .. | .and .. | .or .. | .xor ..
  | .shl .. | .shr .. | .sar .. | .mul .. | .slt .. | .sltu .. | .addi .. | .andi .. | .ori .. | .xori .. | .shli ..
  | .shri .. | .sari .. | .ins .. | .slti .. | .ld .. | .ldw .. | .st .. | .stw .. | .ldc .. | .ldcd .. | .stc ..
  | .beq .. | .bne .. | .blt .. | .bge .. | .bltu .. | .bgeu .. | .j .. | .jal .. | .jr .. | .time .. | .pos ..
  | .waitt .. | .waitp .. | .waite .. | .sig .. | .arm .. | .cana .. | .bind .. | .unbind .. | .temp .. | .budg ..
  | .lwr .. | .log .. | .illegalOpcode .. => true
  | .bar2Read off len _ => decide (0 < len) && decide (off + len ≤ barMax)
  | .bar2Write off (.bytes data) => bytesWf off data
  | .bar2Write _ .poisoned => true
  | .descFetchDone _ (.data bytes) => bytes.length == 32
  | .b2BaseWrite .. | .strTailWrite .. | .descFetch .. | .descFetchDone .. | .descCloseTimeout .. | .descLaunch ..
  | .descComplete .. | .rdidxWrite .. | .recordRingWrite .. | .egressRound .. | .msixModerationExpiry ..
  | .streamEnable .. | .streamDisable .. | .perst .. | .pcieLinkDown .. => true
  | .powerSample mw _ => mw.length == 8
  | .thermalEvaluation .. | .evalGo .. | .stalenessGuard .. | .shutdownStop .. | .thmAmbWrite .. | .ambientAgeOut ..
  | .ledgerWindowWrite .. | .ledgerWriteStart .. | .ledgerPageDone .. | .ufree .. | .countersPeriod ..
  | .jsumWrite .. | .ssel0Fall .. | .targetHeader .. | .targetWriteWord .. | .targetReadWord .. | .ssel0Rise ..
  | .go .. | .busIdleExpiry .. => true
  | .transferDone words => decide (words.length ≤ 16)
  | .collision .. | .backoffExpiry .. | .ambientPoll .. | .heartbeatSend .. => true
  | .heartbeat f => f.seqs.length == 8
  | .write w => w.wf
  | .armFrame .. | .cancelFrame .. | .exec .. | .digest .. => true
  | .linecrc f => decide ((f.crcs.map Prod.fst).Pairwise (· < ·))
  | .handoverFrame bounds _ => bounds.length == 8
  | .faultFrame .. => true
  | .bulk x => x.wf
  | .pairFrameError .. | .pairLinkDown .. | .pairLinkUp .. | .heartbeatLoss .. | .roleTimeout .. | .pairPhaseStep ..
  | .handover .. | .handoverBallDrive .. | .join .. | .joinComplete .. | .leave .. | .idSave .. | .release ..
  | .supplyWarning .. | .supplyRecovery .. | .supplyReset .. | .porFall .. | .warm .. | .cold ..
  | .configurationWrite .. | .loWordRead .. | .eventInputChange .. | .powerOk .. | .fuseTrim .. | .ledgerSelect ..
  | .sramZero .. | .startup20ms .. | .hbmZeroed .. | .configReady .. => true

end Sys2Proof
end

