-- ==== Sys2Proof/Tests/Slice0.lean ====
section
/-! SUPPORT. The model's own tests: ill-formed commands, Troek words, worked examples of the manual, single steps, and for
every statement with hypotheses a witness that meets them. A witness has one conjunct for each clause of its statement:
a state and operands at which that clause's hypotheses hold together. -/

namespace Sys2Proof.Tests
open Sys2Proof Sys2Proof.Machine

-- Each theorem is checked before the next is read: the kernel evaluations do not wait for one another.
set_option Elab.async false

/-- The block after a command. -/
def after (c : Instr) (s : State) : Block := match exec c s with | .next t => t.blk | _ => {}

/-! ### States -/

/-- Registers set over a block. -/
def rgs (l : List (Nat × Word)) (b : Block) : Block := l.foldl (fun b e => b.wr e.1 e.2) b

/-- A block that runs: 40 ms after POWER_OK, 1 ms of device time, link up. -/
def up : Block :=
  { regs := [(Reg.SUP_CAUSE, 1)], stage_ := 6, now := 640000000, cfgReady := true, perst := false, perstSeen := true, host := { dlUp := true, bme := true, msixEn := true }, tim := { ns := 1000000 } }

/-- A state with one more command waiting. -/
def st (b : Block) : State :=
  let b := { b with start := { regs := b.regs, pipes := b.pipes } }
  ⟨b, [.powerOk], b⟩

def wUp : State := st up
/-- A state some of whose words are uncorrectable. -/
def bad (l : List Upset) (s : State) : State := { s with blk := { s.blk with bad := l } }
/-- This device is the standby of a pair in step. -/
def standbyB : Block :=
  rgs [(Reg.PAIR_CTL, 5), (Reg.PAIR_STAT, 0x3A), (Reg.PAIR_MEMBER, 1)]
    { up with pair := { partner := some { id := 0, member := false, pref := false, role := 1, join := 2 } } }
def wStandby : State := st standbyB

/-! ### Positions, time, strikes -/
def hold1 : Hold := { level := true, cross := ⟨639990000, 0⟩, due := 639999000 }
def wPos : State := st (rgs [(Reg.POS_CTL 2, 0x3E1), (Reg.POS_SET_LO 2, 0x1234567), (Reg.POS_STALL 2, 5),
    (Reg.POS_CMD 2,
    0)] { up with pos := [(2, { filtA := false, quadA := false, standstill := false, moved := true, last := some ⟨639000000, 7⟩, base := 0x10000, run := [639000000, 638990000, 638980000], holdA := some hold1, fresh := false }), (7, { slip := 9 })] })
def wPosB : State := st (rgs [(Reg.POS_CTL 2,
    0x1)] { up with pos := [(2, { filtB := false, quadB := true, standstill := false, moved := true, last := some ⟨639999000, 7⟩, base := 0x10000, run := [639999000, 639998000], holdB := some { hold1 with level := false, due := 640000000 } })] })
def wPosOff : State := st (rgs [(Reg.POS_CTL 2, 0x0)] { up with pos := [(2, { holdZ := some hold1 })] })
/-- A changed within 1 ns of B, whose filter is still held; and after it was accepted. -/
def holdB1 : Hold := { hold1 with cross := ⟨639990010, 0⟩, due := 640000009 }
def wNear : State := st (rgs [(Reg.POS_CTL 2,
    1)] { up with pos := [(2, { holdA := some hold1, holdB := some holdB1 })] })
def wDouble : State := st (rgs [(Reg.POS_CTL 2,
    1)] { up with pos := [(2, { holdA := some hold1, wait := some (false, holdB1) })] })
def trainA : Train := { start := 900000, period := 100, width := 10, count := some 1, k := 0 }
/-- A STEP and a SET, or a STEP alone, wait for the next tick. -/
def wSet : State := st { up with tim := { up.tim with set := some 77, steps := [5] } }
def wStep : State := st { up with tim := { up.tim with steps := [5] } }
def wTim : State := st (rgs [(Reg.TIM_CTL, 0x335), (Reg.TIM_STEP, 5), (Reg.TIM_SET_LO, 77), (Reg.TIM_TOUT_START_LO,
    2000000), (Reg.TIM_TOUT_PERIOD, 100), (Reg.TIM_TOUT_WIDTH,
    10)] { up with host := { up.host with ptmEn := true }, tim := { up.tim with ppsLast := some 3, train := some trainA } })
def wTimB : State := st (rgs [(Reg.TIM_CTL, 0x1B), (Reg.TIM_TOUT_START_LO,
    1000000)] { up with now := 32000000000, tim := { up.tim with ppsLast := some 3, train := some { trainA with count := none }, pulseEnd := some 1000000, ptmOut := some (638000000, 999000), ptmPrev := some (990000, 990500), route := { dest := some 3, latest := 9, holdEnd := some 640000000 } } })
def wIndex : State := st (rgs [(Reg.POS_CTL 2,
    0x15)] { up with pos := [(2, { moved := true, fwd := true, base := 0x10000, hwm := 0x10000, holdZ := some hold1 })] })
/-- TIME_OUT not selected, a train and a pulse due; a PTM exchange in progress. -/
def wTimOff : State := st { up with tim := { up.tim with train := some trainA, pulseEnd := some 1000000 } }
def wPtm : State :=
    st { up with host := { up.host with ptmEn := true }, tim := { up.tim with ptmOut := some (638000000, 999000), ptmPrev := some (990000, 990500) } }
def wStk : State := st (rgs [(Reg.STK_GRP_CTL 3, 0x01 + 2 * 16), (Reg.STK_GRP_PITCH 3, 0x5000), (Reg.STK_PORT 4,
    3)] { up with stk := [(3, { preds := [{ p := 0x5000, at_ := 639000000 }], next := 0x5000, idle := some 640000000, seq := 0xFFFF })], sched := [(4, [{ stamp := 5, at_ := 640000000 }])] })
def wStkLane : State := { wStk with blk := rgs [(Reg.HD_LINK_CTL 4, 1)] wStk.blk }
/-- Group 3 struck at reference time `t` before. -/
def wStkLast (t : Nat) : State :=
    { wStk with blk := { wStk.blk with stk := [(3, { preds := [{ p := 0x5000, at_ := 639000000 }], next := 0x5000, last := some t })] } }
def wStkOff : State := st (rgs [(Reg.STK_GRP_PITCH 3, 0x5000), (Reg.HD_BIND 4, 0x80000000)] up)
def wPosC : State := st (rgs [(Reg.POS_CTL 2, 0x1), (Reg.POS_STALL 2,
    100)] { up with pos := [(2, { standstill := false, last := some ⟨638000000, 7⟩, base := 0x10000, run := [638000000, 637999000, 637998000] })] })
def wStkIdle : State := st (rgs [(Reg.STK_GRP_CTL 3, 0x121)] { up with stk := [(3, { idle := some 640000000 })] })

/-- A hold of A that is over, with nothing else held or waiting. -/
def wPosDue : State := st (rgs [(Reg.POS_CTL 2, 1)] { up with pos := [(2, { holdA := some hold1 })] })
/-- A hold of A that runs on; and a change of B that waits for it. -/
def wHeld : State := st (rgs [(Reg.POS_CTL 2,
    1)] { up with pos := [(2, { holdA := some { hold1 with due := 640000100 } })] })
def wHeldWait : State := st (rgs [(Reg.POS_CTL 2,
    1)] { up with pos := [(2, { holdA := some { hold1 with due := 640000100 }, wait := some (false, hold1) })] })
/-- Group 3 follows channel 2, of which a load is to come. -/
def wStkLoad (v : Word) : State := st (rgs [(Reg.POS_CTL 2, 1), (Reg.POS_SET_LO 2, v), (Reg.STK_GRP_CTL 3, 0x21),
    (Reg.STK_GRP_PITCH 3,
    0x5000)] { up with stk := [(3, { next := 0x5000, preds := [{ p := 0x5000, at_ := 639000000 }] })] })
/-- TIM_CTL with TIME_OUT scheduled in the past. -/
def wTimP (ctl : Word) : State := st (rgs [(Reg.TIM_CTL, ctl % 256), (Reg.TIM_TOUT_START_LO, 900000),
    (Reg.TIM_TOUT_PERIOD, 100), (Reg.TIM_TOUT_WIDTH, 10), (Reg.TIM_TOUT_COUNT,
    if ctl = 0x108 then 1002 else if ctl = 8 then 2 else 0)] up)
/-- Strikes of group 3 decided, the group's last strike at `t`. -/
def dec1 : Decided := { idle := false, pos := 0x5000, inst := ⟨639000000, 77⟩ }
def wStkDec (t : Option Nat) : State := st (rgs [(Reg.STK_GRP_CTL 3, 0x23), (Reg.STK_GRP_PITCH 3,
    0x5000)] { up with stk := [(3, { decided := [dec1, { dec1 with idle := true }], last := t })] })
def evalF : Eval :=
    { fwd := true, base := 0x5000, hwm := 0x5000, valid := false, span := 0, cross := ⟨639999000, 77⟩ }
def predA (t : Nat) : Predict := { p := 0x5000, at_ := t }
/-- Group 3 at source 2, with STK_GRP_CTL, the transitions of the tick, and its predictions, cadence and manual strikes. -/
def wTest (ctl : Word) (es : List Eval) (ps : List Predict) (idle : Option Nat) (manual next : Bool) : State :=
    st (rgs [(Reg.POS_CTL 2, 1), (Reg.STK_GRP_CTL 3, ctl + 2 * 16), (Reg.STK_GRP_PITCH 3, 0x5000),
    (Reg.STK_GRP_IDLE 3,
    100)] { up with pos := [(2, { evals := es })], stk := [(3, { next := 0x5000, preds := ps, idle := idle, manual := manual, manualNext := next })] })
/-! ### Heads -/
def hdr1 : CharHdr :=
    { cols := 64, rows := 64, depthMax := 14, mosaic := false, anchor := 0, strikeLat := 0, turn := 10, serial := [], caratOff := 0, caratLen := 0, tblOff := 0, tblLen := 0, crc := 0 }
def out1 : OutCmd :=
    { cmd := { opc := 7, payload := [], org := .mailbox }, tag := 5, attempt := 1, ends := 3, deadline := 640000000 }
/-- Head 4 with its lane and link on, READY, of 64 x 64 pixels, declared 32 x 2; more registers on top. -/
def headB (l : List (Nat × Word)) (x : HdPort) : Block := rgs ([(Reg.HD_LINK_CTL 4, 0x05140101), (Reg.HD_LINK_STAT 4,
    0xF1C), (Reg.HD_GEOM 4, 0x20020), (Reg.HD_FMT 4, 0xE0000), (Reg.HD_RATE 4,
    100)] ++ l) { up with ports := [(4, x)] }
def wHead : State := st (headB [(Reg.HD_CMD 4,
    0x0207)] { queue := [{ opc := 2, payload := [9], org := .group }], hdr := some hdr1, measure := some 639999000, outs := [] })
def wHeadB : State := st (headB [(Reg.HD_CMD 4, 0x0205), (Reg.HD_LINK_STAT 4,
    0xF10)] { outs := [out1], hdr := some hdr1, measure := some 639000000 })
def wHeadC : State := st (headB [(Reg.HD_CMD 4,
    0x80000205)] { outs := [{ out1 with attempt := 4 }], hdr := some hdr1 })
def rsp1 : RspPacket := { tag := 5, rstat := 0, addr := 0, payload := [], crcOk := true }
def wHeadD : State :=
    st (headB [] { outs := [{ out1 with waits := true }, { out1 with tag := 6 }], hdr := some hdr1, loaded := true })
/-- Lane 2 of head 4 is not locked. -/
def wHeadE : State := st (headB [(Reg.HD_LINK_STAT 4, 0xB1C)] { hdr := some hdr1 })
def load1 : Load :=
    { hdr := some (List.replicate 64 0), carat := [], table := [], asked := 0, got := 0, deadline := 640000000 }
/-- A header of zeros that carries its image's check sum. -/
def bsGood : List Byte :=
    List.replicate 48 0 ++ leBytes 4 (imageCrc (List.replicate 64 0) [] []).toNat ++ List.replicate 12 0
def wLoadGood : State := st (headB [(Reg.HD_LINK_STAT 4, 0xF0C)] { load := some { load1 with hdr := some bsGood } })
def wLoad : State := st (headB [(Reg.HD_LINK_STAT 4, 0xF0C)] { load := some load1 })
/-- Head 4 bound to pipeline 3, with a frame at ingress. -/
def frame0 : Frame :=
    { num := 7, id := 1, band := false, lines := [], emitted := 0, st := .open_, long := false, short := false, noTrailer := false, fault := false, trailer := none, before := none, own := none, meas := none, decideAt := none, beta := 0, cold := false, bank := false, taps := 0, mism := 0, eps := none, breach := false, retracts := 0, closedAt := 0, planeIn := none, planeOut := none, step := 0, regsCopy := none, snap := none, merge := none, mergeQ := 0, t0 := false, tapStep := 0, slotLost := false, rawLost := false, restruck := false, calCand := false, calTaken := false, cols := 32, rows := 2, ox := 0, oy := 0, bindNo := 0, pipe := 3, tf := false, snapLvl := 0, items := false, lastY := none, rx := 0, cut := false, decAt := 0, betaAfter := 0 }
def boundB (l : List (Nat × Word)) (x : HeadSt) : Block :=
    { headB ([(Reg.HD_BIND 4, 0x83000000), (Reg.PL_STAT 3, 0x104)] ++ l) { hdr := some hdr1 } with heads := [(4, x)] }
def wBound : State := st (boundB [] { frames := [frame0] })
def wBoundShut : State := st (boundB [] {})
/-- The blocks of one lane: a start block, every fourth 8-byte group from group `k` on, and a block of idle (R74). -/
def laneOf (k : Nat) (xs : List Byte) : List LaneBlock :=
  [{ sync := 2, bytes := 0x78 }] ++ ((List.range (xs.length / 32)).map fun i =>
    { sync := 1, bytes := BitVec.ofNat 64 (ofLe ((xs.drop (32 * i + 8 * k)).take 8)) }) ++
      [{ sync := 2, bytes := 0x1E }]
/-- A packet on the four lanes (R74, R76): header and payload, their CRC-32C, and padding to a whole number of groups. -/
def packet (xs : List Byte) : Upstream :=
  let ys := xs ++ leBytes 4 (crc32c xs).toNat
  let zs := ys ++ List.replicate ((32 - ys.length % 32) % 32) 0
  { lane0 := laneOf 0 zs, lane1 := laneOf 1 zs, lane2 := laneOf 2 zs, lane3 := laneOf 3 zs, sub := 0 }
/-- A line of 32 pixels of 100, of 14 bits, not packed to words, of frame 7. -/
def lineOf (head line : Byte) : Upstream :=
  packet ([1, head, 14, 0, 7, 0, 0, 0, line, 0, 32, 0, 0, 0, 0, 0] ++
    leBytes 56 ((List.range 32).foldl (fun n i => n + 100 * 2 ^ (14 * i)) 0))
/-- A trailer of frame 7 of two lines, T_FPA 77, T_SHUT 5, HSTAT 3. -/
def trailerOf (head : Byte) : Upstream :=
  packet ([2, head, 0, 0, 7, 0, 0, 0, 2, 0, 0, 0, 0, 0, 0, 0] ++ leBytes 4 77 ++ leBytes 4 5 ++ [0, 0, 0, 0] ++ leBytes
    4 3)
/-- A response without payload. -/
def rspOf (tag rstat : Byte) : Upstream := packet ([4, 4, tag, rstat] ++ List.replicate 12 0)
/-- The same with its CRC wrong. -/
def spoil (u : Upstream) : Upstream :=
    { u with lane1 := u.lane1.map fun x => if x.sync = 1 then { x with bytes := x.bytes ^^^ 1 } else x }
def line1 : LinePacket :=
    (((lineOf 4 1).line ⟨32, 14, false, false⟩).getD
      { head := 0, depth := 0, pack := false, band := false, frame := 0, line := 0, cols := 0, stamp := 0, pixels := [], crcOk := false, sub := 0, periods := 0 })
def trailer0 : TrailerPacket :=
    { head := 0, band := false, frame := 0, lines := 0, stamp := 0, shutter := 0, tfpa := 0, tshut := 0, bias := 0, hstat := 0, crcOk := false, sub := 0 }
def trailer1 : TrailerPacket := (trailerOf 4).trailer.getD trailer0
def dig1 : DigJob := { bank := true, dirty := false, restore := false }
def wBank : State := st (rgs [(Reg.BUD_STAT, 8)] (boundB [(Reg.HD_BANK 4,
    0x8)] { frames := [frame0], dig := some dig1 }))
def wBankB : State := st (rgs [(Reg.BUD_STAT, 8)] (boundB [(Reg.HD_BANK 4,
    0x3)] { dig := some { dig1 with bank := false } }))
def wBist : State := st (rgs [(Reg.PL_STAT 5, 0x200), (Reg.BUD_STAT, 8)] up)
def wBistB : State := st (rgs [(Reg.PL_STAT 5, 0x400), (Reg.BUD_STAT, 8)] up)
def wBistC : State := st (rgs [(Reg.BUD_STAT, 8), (Reg.PL_STAT 5, 0x1000), (Reg.PL_ROT 5,
    0x901)] { up with pipes := [(5, { bistWait := true }), (9, { reserved := true })] })

/-- A measurement that began at `t`. -/
def wEcho (t : Nat) (c : Option CharHdr) : State := st (headB [] { hdr := c, measure := some t })
/-- The same port switched off. -/
def wHeadOff : State := st (rgs [(Reg.HD_LINK_CTL 4, 0x05140100)] (headB [] { hdr := some hdr1 }))
/-- A command of a group that waits to be sent again. -/
def wHeadG : State :=
    st (headB [] { outs := [{ out1 with waits := true, cmd := { out1.cmd with org := .group } }], hdr := some hdr1 })
/-- Head 4 with one open frame, changed. -/
def wBoundF (f : Frame) : State := st (boundB [] { frames := [f], nextId := 2 })
def frameL (y : Nat) : Frame := { frame0 with lastY := some y, rx := y + 1 }
/-- A line whose header names depth 12. -/
def lineFmtBad : Upstream :=
  packet ([1, 4, 12, 0, 7, 0, 0, 0, 1, 0, 32, 0, 0, 0, 0, 0] ++ leBytes 48 0)
def lineOr (u : Upstream) : LinePacket := (u.line ⟨32, 14, false, false⟩).getD line1
/-- A line of `n` columns. -/
def lineWide (n : Nat) : Upstream :=
  packet ([1, 4, 14, 0, 7, 0, 0, 0, 1, 0, BitVec.ofNat 8 n, 0, 0, 0, 0, 0] ++ leBytes ((14 * n + 7) / 8) 0)
/-- Head 4 may be bound, but for what `l` says, beside heads that have `rate` and `accum`. -/
def wAdmit (l : List (Nat × Word)) (rate accum : Nat) : State :=
    st { headB l { hdr := some hdr1 } with heads := [(5, { rate := rate, accum := accum })] }
/-- A move of pipeline 7 (head 5) to spare 9 was requested in this cycle; head 4 has an open frame on pipeline 3; spare `v`. -/
def wMoves (v : Nat) : State :=
  let b := boundB ((List.range 26).map (fun p => (Reg.PL_STAT p, if p = 3 then 0x104 else if p = 7 then 0x1105 else if
    p = v then 0x21F else if p = 9 then 0x1F else 0x41F)) ++
    [(Reg.BUD_STAT, 8), (Reg.HD_BIND 5, 0x87000000)]) { frames := [frame0] }
  st { b with pipes := [(7, { moveTo := 9 }), (9, { reserved := true })], cyc := [(Reg.PL_ROT 7 + 2, 1)] }

/-! ### Lines, seals, defects -/
def raw1 : RawLine :=
    { y := 0, pixels := [100, 200], got := 2, short := false, long := false, crcBad := false, late := false, supply := false, shuttered := false, stamp := 5, pos := some 0x5000, time := some 77, a := 500000, f := 0x4000, bad := [], out := 0 }
def snap1 : Snap :=
    { stage := { regs := [], emis := [], tone := [], palette := [] }, curves := [], par := [], resAct := false, rg := 0x100000, ro := 0, defs := [] }
def read1 : Reading := { e := 900000, t := 0x5000, b := 3 }
/-- A frame of one line of two pixels, that has left the pipeline. -/
def frame1 : Frame :=
    { frame0 with lines := [raw1], emitted := 1, st := .closed, cols := 2, rows := 1, snap := some snap1, meas := some read1, own := some read1, decideAt := some 639000000 }
def fA : Frame := { frame1 with emitted := 0 }
def fB : Frame := { frame1 with emitted := 0, band := true }
/-- Residue mismatches: one pixel in two stages, one in one, and one outside the line. -/
def mmA : List Mismatch := [⟨0, 1, .correct⟩, ⟨0, 5, .correct⟩, ⟨0, 1, .linear⟩, ⟨0, 0, .ratio⟩]
def wLine : State := st (boundB [] { frames := [{ frame1 with emitted := 0 }], nextId := 2 })
def wLineBand : State := st (boundB [] { frames := [{ frame1 with emitted := 0, band := true }], nextId := 2 })
def wDecide : State := st (boundB [] { frames := [frame1], nextId := 2 })
/-- The same with a seal tolerance above its seal error. -/
def wDecideTol : State := st (boundB [(Reg.PL_SEAL_TOL 3, 0xFFFF)] { frames := [frame1], nextId := 2 })
def wQueued : State := st (boundB [] { frames := [{ frame1 with st := .queued }], nextId := 2 })
def wRestrike : State := st (boundB [] { frames := [{ frame1 with st := .restriking }], nextId := 2 })
def wDef : State :=
    st { headB [(Reg.DEF_KEY, 0x19000802), (Reg.DEF_IDX, 1)] { hdr := some hdr1 } with defTab := [0x08000001, 0x11000802, 0x08C00007] }
def wDefBusy : State := st (boundB [(Reg.DEF_KEY, 0x01000002)] {})
def wDefBad : State := st (rgs [(Reg.DEF_KEY, 0x07FFFFFF)] up)
def wEdit (k : Nat) : State :=
    st { up with defTab := [0x08000001, 0x11000802, 0x08C00007], defEdit := some (k, 0x19000802, false) }
/-! ### Curves, merge runs, bands, strips, verdicts -/
def wCurve : State := st (boundB [(Reg.PL_TBL_IDX 3, 0x1400)] { frames := [frame0], curveBusy := true })
def wCurveFree : State := st (boundB [(Reg.PL_TBL_IDX 3, 0x1500)] { curveBusy := true })
def wTbl (i : Word) : State := st (boundB [(Reg.PL_TBL_IDX 3, i)] {})
def run1 : MergeRun :=
    { since := 0, begun := false, n := 1, total := 1, times := [1], minPts := 64, after := none, f0 := none, closing := false, pairs := [(0, 1), (1, 2)], sums := List.replicate 64 0, counts := List.replicate 64 0 }
/-- A usable state area for pipeline 3. -/
def area : List (Nat × Word) := [(Reg.PL_TF_BASE_LO 3, 0), (Reg.PL_TF_BASE_HI 3, 1)]
def wMerge : State := st (boundB (area ++ [(Reg.PL_MG_CTL 3, 0x00100201)]) {})
def wMergeBad : State := st (boundB [] {})
def wMergeCal : State := st (boundB (area ++ [(Reg.CAL_H_STAT 4, 2)]) {})
def wMergeRun (begun : Bool) : State := st (boundB (area ++ [(Reg.BUD_STAT,
    8)]) { mg := some { run1 with begun := begun }, plane := some 2 })
/-- At a standby the frames after the command are those the active member tells. -/
def wMergeStandby : State :=
    st { boundB (area ++ [(Reg.BUD_STAT, 8), (Reg.PAIR_CTL, 5), (Reg.PAIR_STAT, 0x3A), (Reg.PAIR_MEMBER, 1)]) { mg := some run1, plane := some 2 } with pair := standbyB.pair }
def cfg1 : TdiCfg := { rowPitch := 0x100, off := 0, origin := 0, outPitch := 0x1000, en := true }
def oline1 : OpenLine :=
    { j := 4, words := [0x10000005, 0x20000007], lo := 7, hi := 7, time := some 77, stamp := 5, revised := false, supply := false, shuttered := false, step := 0, lapsed := false, srcs := [(4, 1)] }
def wBand : State := st (boundB [(Reg.PL_TDI_CTL 3, 1), (Reg.PL_TDI_OUTPITCH 3, 0x100), (Reg.PL_TDI_ROWPITCH 3,
    0x100)] { frames := [{ frame1 with band := true, st := .sealed }], nextId := 2, tdi := { ready := [1], lines := [oline1], cfg := some cfg1, last := some 3 } })
def sline1 : SeamLine :=
    { head := 4, chain := 0, pos := 0x500, time := some 77, pix := [{ v := 9, flags := 0, w := 1, s := 1 }], status := 16, stamp := 5, srcs := [(4, 1)], at_ := 100, pitch := 0x100 }
def wSeam : State := st (rgs [(Reg.SEAM_CTL, 0x01000005), (Reg.SEAM_CHAIN 0, 0x1F1F1F04), (Reg.SEAM_PITCH, 0x100),
    (Reg.PL_TDI_CTL 3, 1), (Reg.PL_TDI_OUTPITCH 3, 0x100), (Reg.HD_FMT 4, 0xE0001), (Reg.BUD_STAT, 8),
    (Reg.SEAM_UPD_MS,
    1)] { boundB [] {} with seam := { lines := [sline1, { sline1 with pos := 0x700 }], next := some 3 } })
def vline1 : VLine :=
    { head := 4, srcs := [(4, 1)], frame := 7, line := 0, pos := some 0x500, time := some 77, src := 0, supply := false, degraded := false }
def job1 : VJob :=
    { ln := vline1, x0 := 0, pix := [{ v := 9, flags := 0, w := 1, s := 1 }, { v := 0x900, flags := 4, w := 1, s := 1 }], hold := false, lapsed := false, sealed := false, shuttered := true }
def wVrd : State := st (rgs [(Reg.VRD_CTL,
    1)] { boundB [] { frames := [frame1] } with vrd := { jobs := [job1, job1] } })
def wVrdOff : State := st { boundB [(Reg.VRD_CTL, 0)] { frames := [frame1] } with vrd := { jobs := [job1, job1] } }
/-- The first band of a head, of two rows of one pixel each. -/
def bandF : Frame :=
    { frame1 with band := true, st := .sealed, cols := 1, rows := 2, emitted := 2, lines := [{ raw1 with got := 1 }, { raw1 with y := 1, got := 1, stamp := 6 }] }
def wBandFirst : State :=
    st { boundB [(Reg.PL_TDI_CTL 3, 1), (Reg.PL_TDI_OUTPITCH 3, 0x100), (Reg.PL_TDI_ROWPITCH 3, 0x100)] { frames := [bandF], nextId := 2, tdi := { ready := [1] } } with hbm := SMap.setList (fun _ => 0) [] (storeAddr 4 7 1 0 0) [9, 1, 0, 0, 8, 2, 0, 1] }
/-- One open line, of a head that is, or is not, stitched. -/
def wBandFlush (stitched : Bool) : State := st (boundB ([(Reg.PL_TDI_CTL 3, 1), (Reg.PL_TDI_OUTPITCH 3, 0x100),
    (Reg.PL_TDI_ROWPITCH 3, 0x100)] ++ if stitched then [(Reg.SEAM_CTL, 0x01000005), (Reg.SEAM_CHAIN 0, 0x1F1F1F04),
    (Reg.SEAM_PITCH, 0x100), (Reg.HD_FMT 4,
    0xE0001)] else []) { frames := [frame1], nextId := 2, tdi := { lines := [oline1], cfg := some cfg1 } })
/-- The relay has moved the trims of head 4 in this cycle. -/
def wTrim : State := st { up with seam := { updated := [(4, some (640000000, 5, 6))] } }
/-- Zone 0 takes every line, with one rule: above the threshold. -/
def ruleA (thr : Nat) : RuleSet := { type_ := 1, n := 1, thr := thr, actEn := false, tmpl := 0, lo := 0, hi := 1 }
def wRule (thr : Nat) (j : VJob) (ps : List Pend) : State := st (rgs [(Reg.VRD_CTL, 1), (Reg.Z_CTL 0, 3),
    (Reg.Z_COL 0, 0x00FF0000), (Reg.Z_RULE 0 0, 1), (Reg.Z_THR 0 0,
    BitVec.ofNat 32 thr)] { boundB [] { frames := [frame0] } with vrd := { jobs := [j, job1], pend := ps } })
def jobA : VJob := { job1 with shuttered := false }
def pendA : Pend :=
    { ln := { vline1 with srcs := [(5, 1)] }, zone := 0, rule := 0, rs := ruleA 5, pending := true, ifSealed := none, stand := [] }
/-! ### Actions, event lines, calibration -/
def ent1 : ActEntry := { st := 1, key := 900000, ctrl := 0x00030001, arg := 5, writer := 0 }
def wAct (e : ActEntry) : State := st (rgs [(Reg.ACT_CTL,
    64)] { up with act := { entries := [(5, e)], done := 3 }, stage := [(24, { key := 2000000, ctrl := 0x000F0001, arg := 0 }), (32, { key := 2000000, ctrl := 0x00100001, arg := 0 })] })
/-- Entry 9 waits to be executed, and the tick's 16 have executed. -/
def wActLate : State :=
    st { up with act := { entries := [(5, ent1), (9, { ent1 with reached := some (⟨639000000, 0⟩, some 7) })], backlog := [9], done := 16 } }
def pulse1 : Pulse := { ends := 100, entry := some 5 }
def wEo : State := st (rgs [(Reg.ACT_EO_LEVEL, 0x8008), (Reg.ACT_EI_CTL, 0xFF), (Reg.ACT_EI_STAT,
    0x2)] { up with act := { pulses := [(3, some pulse1), (15, some { pulse1 with entry := none })], ei := [(0, { hold := some hold1 }), (7, { hold := some hold1 })] } })
def wEoShut : State := st { up with stage_ := 4, act := { ei := [(1, { hold := some hold1 })] } }
def wCal (state : Word) (c : CalSt) : State := st (rgs [(Reg.CAL_CTL, 5), (Reg.CAL_H_STAT 4, state), (Reg.BUD_STAT,
    8)] (boundB area { cal := c, plane := some 2 }))
def wCalFree (state : Word) : State := st (rgs [(Reg.CAL_H_STAT 4, state)] up)
def wCalBad : State := st (rgs [(Reg.CAL_H_STAT 4, 1)] (boundB [] {}))
/-- A run waits for its bank to switch. -/
def wCal7 : State := st (rgs [(Reg.CAL_CTL, 5), (Reg.CAL_H_STAT 4, 7), (Reg.HD_BANK 4, 0xA), (Reg.BUD_STAT,
    8)] (boundB area { frames := [frame0] }))
/-- A bank of 1 x 1 records, its characterisation being that small. -/
def wCalWrite : State := st (rgs [(Reg.CAL_H_STAT 4,
    6)] { boundB area { cal := { pass := true, tref := 0x4000 } } with ports := [(4, { hdr := some { hdr1 with cols := 1, rows := 1 } })] })
/-! ### The sequencer -/
/-- A block whose thread 2 runs, with a word at its PC 5 and its registers; more registers on top. -/
def trkB (w : Word) (x : SeqThr) (l : List (Nat × Word)) : Block := rgs ([(Reg.SEQ_CTL, 1), (Reg.SEQ_T_STAT 2,
    0x00050001), (Reg.SEQ_STAT, 0x40), (Reg.ACT_CTL,
    8)] ++ l) { up with seq := { thr := [(2, x)], imem := [(5, w)], dmem := [(0x100, 0x80), (0x107, 0x7F), (0xFFF8, 1), (0xFFFC, 2)] } }
/-- Registers g1 to g7 of thread 2. -/
def thr1 : SeqThr :=
    { g := [(1, 0x100), (2, 0xFFF8), (3, 0x8000000000000001), (4, 0x7F), (5, 5), (6, 0x10000), (7, 0x200000)], ready := 639000000 }
def lateOf (i : Instr) : Option Instr := if actsLate i then some i else none
def wTrk (i : Instr) : State := st (trkB (encodeTroek i) { thr1 with late := lateOf i } [])
def wTrkWith (i : Instr) (g : List (Nat × BitVec 64)) : State :=
    st (trkB (encodeTroek i) { thr1 with g := g, late := lateOf i } [])
def wTrkBad : State := st (trkB 0xBC000000 thr1 [])
def prog1 : LdgProg := { req := .raw [(0x30000, 1)], seq := 0, pages := [[(0x30000, 1)]] }
def wTrkHeld (i : Instr) (g : List (Nat × BitVec 64)) : State :=
    st { trkB (encodeTroek i) { thr1 with g := g, late := lateOf i } [] with ldg := { prog := some prog1 } }
def wTrkWait (i : Instr) (g : List (Nat × BitVec 64)) (wake : Word) : State :=
    st (trkB (encodeTroek i) { thr1 with g := g, wait := some i } [(Reg.SEQ_T_STAT 2, 0x00050002), (Reg.SEQ_T_WAKE 2,
    wake)])
/-- The same under STEP. -/
def wTrkWaitStep (i : Instr) (g : List (Nat × BitVec 64)) : State :=
    st (trkB (encodeTroek i) { thr1 with g := g, wait := some i, stepping := true } [(Reg.SEQ_T_STAT 2, 0x00050002)])
def wThread (stat : Word) (x : SeqThr) (l : List (Nat × Word)) : State := st (trkB 0x04000000 x ([(Reg.SEQ_T_STAT 2,
    stat), (Reg.SEQ_T_ENTRY 2, 0x3FFF)] ++ l))
def wArmFull : State :=
    st { trkB (encodeTroek (.arm 2 5 3 4)) { thr1 with g := [(4, 0x30001)], late := some (.arm 2 5 3 4) } [(Reg.ACT_CTL, 1)] with act := { entries := [(0, ent1)] } }
def wCana (e : BitVec 64) : State :=
    st { trkB (encodeTroek (.cana 2 5 3)) { thr1 with g := [(3, e)], late := some (.cana 2 5 3) } [] with act := { entries := [(5, ent1), (7, ent1)] } }
def wTrkBind (i : Instr) (h w : BitVec 64) : State :=
    st { trkB (encodeTroek i) { thr1 with g := [(3, h), (4, w)] } [(Reg.HD_LINK_STAT 4, 0xF1C), (Reg.HD_GEOM 4, 0x20020), (Reg.HD_FMT 4, 0xE0000), (Reg.HD_RATE 4, 100)] with ports := [(4, { hdr := some hdr1 })] }
def wTrkUnbind (w : Word) : State :=
    st { trkB (encodeTroek (.unbind 2 5 3)) { thr1 with g := [(3, 4)] } [(Reg.HD_LINK_STAT 4, 0xF1C), (Reg.HD_BIND 4, w), (Reg.PL_STAT 3, 0x104)] with ports := [(4, { hdr := some hdr1 })] }
def wLogSoon : State :=
    st { trkB (encodeTroek (.log 2 5 3 0)) { thr1 with g := [(3, 0x100)] } [] with ldg := { lastLog := some 639000000 } }
def wLogFull : State :=
    st { trkB (encodeTroek (.log 2 5 3 0)) { thr1 with g := [(3, 0x100)] } [] with ldg := { queue := List.replicate 32 (.log 7 2 false 5 (List.replicate 12 0)) } }
/-- Thread 2 under STEP. -/
def wTrkStep (i : Instr) (g : List (Nat × BitVec 64)) : State :=
    st (trkB (encodeTroek i) { thr1 with g := g, stepping := true } [])
/-- A user directory in which kind 0x80 is allocated with one page per slot. -/
def udir1 : SMap Byte :=
    SMap.setList (fun _ => 0xFF) [] 0x200 (recordBytes 0x05 1 (setUdir (List.replicate 256 0) 0x80 (0xB20 + 0x1010000)))
/-- A record of two pages does not fit kind 0x80. -/
def wLwrFull : State :=
    st { trkB (encodeTroek (.lwr 2 5 3 4)) { thr1 with g := [(3, 0x100), (4, 0x800200)] } [] with ldg := { bytes := udir1 } }
/-! ### Budget and thermal model, ledger -/
def mw1 : List (BitVec 24) := [100, 200, 300, 400, 500, 600, 700, 800]
def wBud (b : Bud) (l : List (Nat × Word)) : State := st (rgs l { up with bud := b })
/-- An evaluation that has run its time enters SHUT. -/
def wShut : State := st (rgs [(Reg.THM_EST, 0x7F00), (Reg.THM_THR_SHUT, 0x1000), (Reg.THM_THR_WARN, 0x1000),
    (Reg.THM_THR_THROT, 0x1000), (Reg.THM_STAT,
    0x23)] { up with bud := { evalAt := some 640000000, dwell := [(15, 0), (15, 0), (15, 0)], nodes := List.replicate 6 0x7F00 } })
def wStop : State :=
    st { up with bud := { shutting := true }, ports := [(4, { queue := [{ opc := 2, payload := [9], org := .group }], outs := [out1] })], sched := [(4, [{ stamp := 5, at_ := 640000000 }])] }
def wLdgOld : State := st (rgs [(Reg.LDG_CTL, 1)] { up with now := 64000000000 })
def wLdg (l : Ldg) (r : List (Nat × Word)) : State := st (rgs r { up with ldg := l })
def raw2 : LdgReq := .raw [(0x30000, 1), (0x3003F, 2), (0x30040, 3)]
def prog2 : LdgProg := { req := raw2, seq := 0, pages := toPages [(0x30000, 1), (0x3003F, 2), (0x30040, 3)] }
def log1 : LdgReq := .log 7 2 false 5 (List.replicate 12 0)

/-- The ledger in shutdown. -/
def wLdgShut (l : Ldg) : State := st { up with ldg := l, bud := { shutting := true } }

/-! ### The service port -/
def wSvc (x : Svc) (l : List (Nat × Word)) : State := st (rgs l { up with svc := x })
def wSvcHeld (x : Svc) : State := st { up with svc := x, ldg := { prog := some prog1 } }
def sel1 (g : Tgt) : Svc := { sel := true, tgt := some g }
def xfer1 : Xfer :=
    { poll := false, st := .waiting, collisions := 0, sel := 1, mode := 0, wlen := 8, div := 4, words := [5, 6] }

/-! ### The pair -/
def partner1 (role : Fin 4) : PartnerId := { id := 0, member := false, pref := false, role := role, join := 2 }
/-- A pair member with PAIR_CTL and PAIR_STAT; it is member 1 of the pair. -/
def pairB (ctl stat : Word) (x : PairSt) : Block := rgs [(Reg.PAIR_CTL, ctl), (Reg.PAIR_STAT, stat), (Reg.PAIR_MEMBER,
    1)] { up with pair := x }
def wPair (ctl stat : Word) (x : PairSt) : State := st (pairB ctl stat x)
def withPartner : PairSt := { partner := some (partner1 1) }
def dig2 (v : BitVec 64) : DigestFrame := { kind := 4, head := 23, frame := 7, value := v }
def crcs1 (v : Word) : LineCrcFrame := { kind := 4, head := 23, frame := 7, crcs := [(0, 5), (0xFFFE, v)] }
def af1 : ArmFrame := { i := 4095, key := 5000000, ctrl := 0x00030001, arg := 5, writer := 5, start := 2000000 }
def hb1 (join : Fin 4) : HbFrame :=
    { nak := true, ack := 3, role := 1, join := join, step := 0, eoLevel := 0, seqs := List.replicate 8 3, echo := 990000, sent := 995000, sub := 31 }
/-- A member in step with frames 4 to 6 on the pair link not acknowledged, the oldest replayed `n` times. -/
def wPairLink (n : Nat) (stat : Word) : State :=
  st { pairB 5 stat withPartner with trail :=
    { link := { nak := true, last := 6, heard := 9, waiting := [{ seq := 6, frame := .fault, body := [1, 2] }, { seq := 5, frame := .exec 1, body := [], times := 1 }, { seq := 4, frame := .cancel 1, body := [3], times := n }] } } }
/-- A register written in the current cycle. -/
def wroteIn (off : Nat) (s : State) : State := { s with blk := { s.blk with cyc := [(off + 3, 1)] } }
def wPairDiv : State := st (rgs [(Reg.PAIR_DIV, 0x417), (Reg.PAIR_DIV_FRAME, 7), (Reg.PAIR_DIV_LINE,
    0xFFFF)] (pairB 5 0x13A { withPartner with ownCrcs := [crcs1 9] }))
def wPairEnt (e : ActEntry) : State := st { pairB 5 0x3A withPartner with act := { entries := [(5, e)] } }
/-- A member 4 s after the reset, with the fence line's level. -/
def wPairOld (ctl stat fence : Word) (x : PairSt) : State :=
    st { rgs [(Reg.ACT_EI_STAT, fence)] (pairB ctl stat x) with now := 64000000000 }
/-- The same with taking over not enabled. -/
def wPairNoTake : State := wPair 1 0x3A withPartner
def wGiver (giver : Bool) (stat : Word) : State :=
    st { pairB 5 stat { withPartner with handAt := some (if giver then 999900 else 1000100) } with giver := giver }

/-! ### Supplies, resets and start-up -/
def wSup (l : List (Nat × Word)) (b : Bud) : State := st (rgs l { up with bud := b })
def wStart (n : Nat) (perst seen cfg : Bool) : State :=
    st { up with stage_ := n, perst := perst, perstSeen := seen, cfgReady := cfg }
/-- PERST# is low in shutdown. -/
def wPerstShut : State := st { up with perst := true, bud := { shutting := true } }
def wStart4 : State :=
    st { up with stage_ := 4, perstSeen := true, pos := [(2, { rawA := true }), (3, { rawB := true, wait := some (true, hold1) })] }
/-- Before POWER_OK, with rails below their warning level or since `t` above it. -/
def wStartLow (low : Word) (t : Option Nat) : State := st (rgs [(Reg.SUP_STAT,
    low)] { up with stage_ := 0, lowTo := t })
def wStartWarm (n : Nat) : State := bad [.hbm 7, .action 5] (st (rgs [(Reg.SUP_CAUSE, 6)] { up with stage_ := n }))
def wStartBad (n : Nat) : State := bad [.hbm 7, .hbm 5, .action 5] (st { up with stage_ := n, hbm := [(5, 9)] })
/-- The identity of a pair member is in the ledger. -/
def wStartPair : State :=
    st { up with stage_ := 2, ldg := { bytes := SMap.setList (fun _ => 0xFF) [] (twinSlots 0x03 0).1 (recordBytes 0x03 1 ([1, 0, 0, 0, 0, 0, 0, 0, 1, 0, 1, 0] ++ List.replicate 36 0)) } }
/-- A standby whose channel 2 has counted transitions since the copy. -/
def wPairRun (fwd : Bool) : State :=
    st { standbyB with pos := [(2, { run := [639999000, 639990000, 600000000], base := 0x7000, fwd := fwd, slip := 4, carried := 3 })], stk := [(2, { seq := 9, recs := [{ stamp := 5, pos := 6, time := 7 }] })] }
/-! ### Egress -/
def d1 : Descriptor := { addr := 0x1000, len := 0x1000, irq := true, lkind := 0, lsrc := 0, late := 0, lkey := 0 }
def it : Item := ⟨List.replicate 64 7, 1, 2⟩
def de (st : DState) (l : Bool) (idx : Nat) : Desc :=
    { d := { d1 with lkind := if l then 0 else 1, lkey := 5 }, idx := idx, slot := idx, st := st, outcome := 0, items := [it], issued := 0, openAt := some 5, launched := l }
def bStr (x : StreamSt) (l : List (Nat × Word)) : Block := rgs l { up with host := { up.host with strs := [(9, x)] } }

/-- A stream with `n` descriptor fetches under way. -/
def wStr (n : Nat) : State := st (bStr { fetching := n, fetch := 3 } [(Reg.STR_CTL 9, 0x00010309), (Reg.STR_RING 9,
    0x106), (Reg.STR_TAIL 9, 7)])
/-- A stream with a read outstanding that is none of the ring's. -/
def wStrOld : State := st (bStr { fetching := 0, fetch := 3, stale := 2 } [(Reg.STR_CTL 9, 0x00010309),
    (Reg.STR_RING 9, 0x106), (Reg.STR_TAIL 9, 7)])
/-- A descriptor of 4096 bytes at 0x1000 with its byte 12 and its key, as the host wrote it. -/
def dBytes (addr c key : Nat) : List Byte :=
    leBytes 8 addr ++ leBytes 4 0x1000 ++ leBytes 4 c ++ leBytes 8 key ++ List.replicate 8 0
/-- A stream whose held descriptor waits for a key, time 5 or one to come, with its LATE policy; device time has jumped. -/
def wLaunch (late : Fin 4) (key : BitVec 64) (jump : Bool) : State :=
    st { bStr { descs := [{ de .held false 0 with d := { d1 with lkind := 1, lkey := key, late := late } }] } [(Reg.STR_CTL 9, 1)] with tim := { up.tim with jumpFrom := if jump then some 3 else none } }
/-! ### Uncorrectable words -/
def wActBad : State := bad [.action 5, .imem 3] (wAct ent1)
/-- What is due of entry `i`. -/
def dueOf (s : State) (i : Nat) : Inst × Option Int := (s.blk.keyDue i).getD (⟨0, 0⟩, none)
/-- One entry, whose key lies in the past, with its control word; late ones wait for it afresh. -/
def wDue (c : Word) (fresh : Bool) : State :=
    st { up with act := { entries := [(5, { ent1 with ctrl := c, fresh := fresh })] } }
/-- Entry 9 is the next to execute. -/
def wActTurn (c : Word) : State :=
    st { up with act := { entries := [(9, { ent1 with ctrl := c, reached := some (⟨639000000, 0⟩, some 7) })], backlog := [9], done := 3 } }
/-- The entry that waits first is uncorrectable. -/
def wActBadQ : State :=
    bad [.action 5] (st
      { up with act := { entries := [(5, ent1), (9, { ent1 with reached := some (⟨639000000, 0⟩, some 7) })], backlog := [5, 9] } })

/-! ### Well-formed commands: for each check a command that it refuses -/

theorem test_wf_votes : (Instr.timeTick [.minority 3 0, .minority 3 1] 0 0 []).wf = false := by decide

theorem test_wf_columns :
    (Instr.lineCorrection 4 [⟨0, 2048, .correct⟩] [] []).wf = false ∧
    (Instr.lineCorrection 4 [] [⟨⟨0, 5⟩, false⟩, ⟨⟨0, 5⟩, true⟩] []).wf = false ∧
    (Instr.restrikeEnd ⟨4, [⟨0, 2048, .linear⟩]⟩).wf = false := by decide

theorem test_wf_bar2 :
    (Instr.bar2Read 0 0 false).wf = false ∧ (Instr.bar2Read (2 ^ 34 - 1) 2 false).wf = false ∧
    (Instr.bar2Write 0 (.bytes [])).wf = false ∧ (Instr.bar2Write (2 ^ 34) (.bytes [some 1])).wf = false := by decide

theorem test_wf_poisoned : (Instr.registerWrite .svc 0x10000 0 .poisoned).wf = false := by decide

theorem test_wf_descriptor : (Instr.descFetchDone 9 (.data [1, 2])).wf = false := by decide

theorem test_wf_samples : (Instr.powerSample [1, 2, 3] 0).wf = false := by decide

theorem test_wf_transfer : (Instr.transferDone (List.replicate 17 0)).wf = false := by decide

theorem test_wf_heartbeat : (Instr.heartbeat { hb1 2 with seqs := [3] }).wf = false := by decide

theorem test_wf_write :
    (Instr.write (.reg .host 0 2 0)).wf = false ∧ (Instr.write (.stage .host 0 4 1 0)).wf = false ∧
    (Instr.write (.hbm 5 [])).wf = false ∧
    (Instr.write (.forecast 4 (List.replicate 9 read1) 0 [])).wf = false := by decide

theorem test_wf_bulk :
    (Instr.bulk (.reg 3 0)).wf = false ∧ (Instr.bulk (.hbm (2 ^ 34) [1])).wf = false ∧
    (Instr.bulk (.forecast 4 (List.replicate 9 read1) 0 [])).wf = false := by decide

theorem test_wf_linecrc :
    (Instr.linecrc { kind := 0, head := 4, frame := 7, crcs := [(3, 0), (3, 1)] }).wf = false := by decide

theorem test_wf_handover : (Instr.handoverFrame [1, 2] 0).wf = false := by decide

theorem test_wf_accepts :
    (Instr.linePacket 4 (lineOf 4 1)).wf = true ∧ (Instr.bar2Read (2 ^ 34 - 1) 1 false).wf = true ∧
    (Instr.lineCorrection 4 [⟨0, 2047, .ratio⟩] [] [⟨3, 3⟩]).wf = true := by decide +kernel

/-! ### No word spells a command; the Troek words of R242 and R243, written out bit by bit -/

theorem test_no_table_word : decodeTableWord 32 0x04000000 = none := rfl

theorem test_decode_alu : decodeTroek 1 0b000100_00101_00011_00100_00000000001#32 = some (.sub 1 5 3 4) := by decide

theorem test_decode_immediate : decodeTroek 1 0b001000_00001_00010_1111111111111110#32 = some (.addi 1 1 2 0xFFFE) := by
  decide

theorem test_decode_memory : decodeTroek 1 0b010100_00110_00111_0000000000010000#32 = some (.stw 1 6 7 16) := by
  decide

theorem test_decode_branch : decodeTroek 1 0b011010_00001_00010_1111111111111111#32 = some (.blt 1 1 2 0xFFFF) := by
  decide

theorem test_decode_unit : decodeTroek 1 0b100111_00001_00010_00011_00000000000#32 = some (.arm 1 1 2 3) := by decide

theorem test_decode_none : decodeTroek 1 0b101111_00000_00000_0000000000000000#32 = none := by decide

theorem witness_StepAndSet :
    (Writes .host wSet ∧ 1 ≤ wSet.blk.stage_ ∧ wSet.blk.tim.incWritten = false ∧ wSet.blk.tim.set = some 77 ∧
      [5] = wSet.blk.tim.steps ++ (if (2 : Word).getLsbD 0 then [wSet.blk.rd Reg.TIM_STEP] else []) ∧
      (2 : Word).getLsbD 1 = true ∧ (4 : Word).getLsbD 1 = false) ∧
    (Writes .host wStep ∧ 1 ≤ wStep.blk.stage_ ∧ wStep.blk.tim.incWritten = false ∧ wStep.blk.tim.set = none ∧
      [5, 0] = wStep.blk.tim.steps ++ (if (1 : Word).getLsbD 0 then [wStep.blk.rd Reg.TIM_STEP] else []) ∧
      (1 : Word).getLsbD 1 = false) := by
  and_intros <;> decide +kernel

/-! ### One step each -/

/-- A line packet with its CRC right, wrong, or of a head it is not for; its pixels are unpacked (R74, R76, R82). -/

theorem test_line_packet :
    line1.crcOk = true ∧ line1.pixels = List.replicate 32 100 ∧ ((spoil (lineOf 4 1)).line ⟨32, 14, false, false⟩).map
      (·.crcOk) = some false ∧
    (after (.linePacket 4 (lineOf 5 1)) wBound).rd (Reg.HD_CNT_E 4) = 0x10000 := by decide +kernel

theorem test_add_wraps :
    (after (.add 2 5 3 3) (wTrkWith (.add 2 5 3 3) [(3, 0x8000000000000001)])).greg 2 5 = 2 := by decide +kernel

theorem test_g0_discards :
    (after (.addi 2 0 0 7) (wTrkWith (.addi 2 0 0 7) [])).greg 2 0 = 0 := by decide +kernel

theorem test_sar_keeps_sign :
    (after (.sari 2 5 3 63) (wTrkWith (.sari 2 5 3 63) [(3, 0x8000000000000000)])).greg 2 5 = -1 := by decide +kernel

theorem test_branch_back :
    (after (.blt 2 3 4 0xFFF9) (wTrkWith (.blt 2 3 4 0xFFF9) [(3, -1), (4, 1)])).tPc 2 = 0x3FFF := by decide +kernel

theorem test_store_last_word :
    let b := after (.stw 2 3 2 4) (wTrkWith (.stw 2 3 2 4) [(2, 0xFFF8), (3, 0xAABBCCDD11223344)])
    (List.range 8).map (fun k => b.seq.dmem.get (fun _ => 0) (0xFFF8 + k)) = leBytes 8 0x1122334400000001 ∧
    b.dmemNum 0xFFFC 4 = 2 := by decide +kernel

theorem test_load_beyond_faults :
    (after (.ldw 2 5 2 8) (wTrkWith (.ldw 2 5 2 8) [(2, 0xFFF8)])).fld (Reg.SEQ_T_STAT 2) 11 8 = 3 := by decide +kernel

theorem test_tick_adds_increment : (after (.timeTick [] 0 0 []) wUp).tim.ns = 1000002 := by decide +kernel

theorem test_start_up_in_turn :
    (after .fuseTrim State.reset).stage_ = 2 ∧ (after .sramZero State.reset).stage_ = 1 := by decide +kernel

theorem test_wrong_key : (after (.cold .host 0x7241) wUp).bit Reg.SUP_STAT 10 = true := by decide +kernel

theorem test_event_outputs :
    (after (.eoClr .host 0x8000) wEo).rd Reg.ACT_EO_LEVEL = 0x0008 := by decide +kernel

theorem test_defect_insert : (after .defEditDone (wEdit 0)).defTab.length = 3 := by decide +kernel

/-! ### The manual's worked examples -/

/-- The carat record of 05_correction_core.md's example: o0 4818, o1 208, o2 -16, g0 16768, g1 -52, g2 9, Δs -11. -/
def rec1 : Nat :=
  4818 + 208 * 2 ^ 16 + (2 ^ 10 - 16) * 2 ^ 28 + 16768 * 2 ^ 38 + (2 ^ 10 - 52) * 2 ^ 54 + 9 * 2 ^ 64
    + (2 ^ 14 - 11) * 2 ^ 82

/-- The correction of that example: dt, o, g, c and T1's COR16; the sensitivity is that of 06_forecast_and_seal.md. -/
theorem test_example_correction :
    dtOf 20014694 19867238 = 147456 ∧ offsetOf rec1 147456 = 77536 ∧ gainOf rec1 147456 = 4285849 ∧
    cSigned rec1 95 82 = -11 ∧ countsOf 4285849 77536 (-11) 5340 = 270171 ∧
    sensOf rec1 147456 4285849 264400 = 363 := by decide +kernel

/-- 06_forecast_and_seal.md: the half-width of P1, the measured temperature at line 300, the error of the verdict. -/
theorem test_example_seal :
    scruple 1951 2621 82 = 160 ∧
    measured (some { e := 0, t := 20014694, b := 0 }) { e := 8000000, t := 20035666, b := 0 } 3000000 = 20022559 ∧
    errorOf 1951 7865 = 234 := by decide +kernel

/-- 07_response_and_noise.md: the gain of pixel (611, 140) between strikes 4 ms apart, its τ 8 ms. -/
theorem test_example_sharpening : sharpGain 64000000 160 0x400 = 651 := by decide +kernel

/-- 08_radiometry_and_bands.md: the ratio temperature's curve point, and its RAD16. -/
theorem test_example_ratio :
    roundRat (curveAt (fun k => 3084800 + ((k : Int) - 589) * 512) 2047 524288 1024 1127829).val = 3085003 ∧
    rad16 3085003 = (24102, false) := by decide +kernel

/-- 09_bands_and_seams.md: band 1,000 reaches lines 31,968 to 32,000; line 31,999's accumulator word at column 700. -/
theorem test_example_bands :
    let c : TdiCfg := { rowPitch := 0x7A00, off := 0, origin := 0, outPitch := 244, en := true }
    c.lineOf (c.rowAt 7808000 0) = 32000 ∧ c.lineOf (c.rowAt 7808000 1) = 31999 ∧
    c.lineOf (c.rowAt 7808000 2) = 31999 ∧ c.lineOf (c.rowAt 7808000 63) = 31968 ∧ c.linePos 31999 = 7807756 ∧
    (accumulate (accumulate 0 3082732).1 3082801).1 = 0x205E141D ∧
    tdiAddr 2 1536 51200 + 700 * 4 = 0xB7900AF0 := by decide +kernel

/-- 05_correction_core.md: the address of that carat record. -/
theorem test_example_bankAddress : bankAddr 2 true + (490 * 1536 + 700) * 16 = 0x0FB7EBC0 := by decide +kernel

/-- 11_shutter_calibration.md: the new Δs of pixel (512, 300). -/
theorem test_example_calibration :
    (CalRes.newDs { rec_ := rec1, gbar := 4285849, a := 25525 / 8, enough := true } (3258 * 64)).1 = some 9 ∧
    roundRat (CalRes.cbar { rec_ := rec1, gbar := 4285849, a := 25525 / 8, enough := true } * 100) = 326307 := by
  decide +kernel

/-- The failed hub fan of 14_budget_and_thermal.md at an estimate. -/
def wFan (est : Word) : Block :=
  rgs [(Reg.THM_STAT, 2), (Reg.THM_EST, est), (Reg.BUD_CAP, 40000), (Reg.BUD_PTOT, 37800), (Reg.BUD_STAT, 0x11)]
    up

/-- 14_budget_and_thermal.md: allowances and steps at 30 ms to 70 ms. -/
theorem test_example_fan :
    (wFan 25907).allowTh = 905 ∧ (wFan 26368).allowTh = 760 ∧ stepNext 0 760 = 1 ∧ stepNext 1 832 = 1 ∧
    stepNext 1 920 = 0 ∧ (wFan 26675).allowCap = 1000 := by decide +kernel

/-- 16_service_port.md: the ambient sensor's reading, and a board controller's read of GLB_ID. -/
theorem test_example_service :
    ambientOf 16 4 665 = 10640 ∧
    (after .targetReadWord (st
      { up with svc := { sel := true, tgt := some { hdr := some (true, false, 0), next := some 0x5A000000 } } })).out
      = [.sdo 0x5A000000] ∧
    (after .targetReadWord (st
      { up with svc := { sel := true, tgt := some { hdr := some (true, false, 0), next := some 0x5A000000 } } })).svc.tgt
      = some { hdr := some (true, false, 0), next := some 0x724000B1 } := by decide +kernel

/-- 20_register_map.md: the host's read of NOW_LO holds NOW_HI for it. -/
theorem test_example_shadow :
    let s := st { up with tim := { up.tim with ns := 0x1FFFFFF00 } }
    let b := { after (.loWordRead .host 0x12010) s with tim := { up.tim with ns := 0x2000002E8 } }
    b.readReg b .host 0x12014 = 1 ∧ b.readReg b (.thread 2) 0x12014 = 2 := by decide +kernel

/-- 18_faults_and_recovery.md: the journal record of the marker pulse that PERST# cut. -/
theorem test_example_journal :
    ofLe (journalAct { jst := 3, jcut := true, jwriter := 5, jkind := 3, jtime := 0x011F71FB04CB })
      = 0x011F71FB04CB03B3 := by decide +kernel

/-- The strip wheel of 02_position_and_time.md, 2.5 µs after count 1,000,000, at a transition every 6.25 µs. -/
def wWheel : Block :=
  rgs [(Reg.POS_CTL 2,
    1)] { up with now := 640040000, pos := [(2, { filtA := false, filtB := false, quadA := false, quadB := false, standstill := false, moved := true, last := some ⟨640000000, 0⟩, base := 256000000, run := (List.range 17).map (fun i => 640000000 - 100000 * i), fresh := false, frozen := none })] }

/-- 02_position_and_time.md: position and velocity of the strip wheel. -/
theorem test_example_wheel :
    wWheel.posNow 2 = 0x00000F424066 ∧ (wWheel.ch 2).vel = 0x000028F6 := by decide +kernel

/-- The scanner of 01_architecture.md with HP0 to HP16 bound; HP17 and HP18 are declared, HP18 at a rate. -/
def wScanner (rate : Word) : Block :=
  rgs [(Reg.HD_LINK_STAT 17, 0xF1C), (Reg.HD_LINK_STAT 18, 0xF1C), (Reg.HD_GEOM 17, 0x00200800), (Reg.HD_GEOM 18,
    0x06000800), (Reg.HD_FMT 17, 0xE2001), (Reg.HD_FMT 18, 0xE0000), (Reg.HD_RATE 17, 3600), (Reg.HD_RATE 18,
    rate)] { up with ports := [(17, { hdr := some { hdr1 with cols := 2048, rows := 1536 } }), (18, { hdr := some { hdr1 with cols := 2048, rows := 1536 } })], heads := (List.range 16).map (fun h => (h, { rate := 707788800, accum := 786432 })) ++ [(16, { rate := 18432000 })] }

/-- 01_architecture.md: steps 18 to 20 of the running totals. -/
theorem test_example_admission :
    admission 17 20 0 0 (wScanner 240) = 8 ∧ admission 18 20 0 0 (wScanner 240) = 7 ∧
    admission 18 20 0 0 (wScanner 200) = 0 := by decide +kernel

/-! ### States of the witnesses -/

def sStrikeTests1 : State := wTest 3 [{ evalF with fwd := false, base := 0x4F00 }] [predA 639999999] none false false
def sStrikeTests2 : State := wTest 3 [evalF] [predA 640000000] none false false
def sStrikeTests3 : State := wTest 0x101 [] [] (some 640000000) false false
def sStrikeTests4 : State := wTest 3 [] [predA 639999000] none false false
def sStrikeTests5 : State := wTest 3 [] [predA 639999990] none false false
def sStrikeTests6 : State := wTest 1 [evalF] [] none false false
def sStrikeTests7 : State := wTest 1 [] [] none true false
def sStrikeTests8 : State := wTest 0 [] [] none true true
def sLinePacketTests1 : State := wBoundF { frame0 with num := 6, id := 1 }
def sFramesClose1 : State := wBoundF { frame0 with num := 6, id := 1 }
def sBinding1 : State := wAdmit [(Reg.HD_LINK_STAT 4, 0xF0C)] 12000000000 0
def sBinding2 : State := wAdmit [(Reg.HD_RATE 4, 12500001)] 0 0
def sBinding3 : State := wAdmit [(Reg.PL_STAT 3, 0x800)] 0 0
def sBinding4 : State := wAdmit [(Reg.PL_STAT 3, 0x105)] 0 0
def sBandsStripsVerdicts1 : State := wRule 0x1000 { jobA with sealed := true } []
def sBandsStripsVerdicts2 : State := wRule 0x900 jobA (List.replicate 4096 pendA)
def sBandsStripsVerdicts3 : State := wRule 5 { jobA with sealed := true } []
def sBandsStripsVerdicts4 : State := wRule 5 { jobA with lapsed := true } []
def sCalibrationRequests1 : State := wCal 9 { forced := true, retryAt := some 639000000 }
def sCalibrationRuns1 : State := wCal 4 { settleAt := some 639000000 }
def sCalibrationRuns2 : State := wCal 8 { settleAt := some 639000000 }
def sTroekMemory1 : State := wTrkWith (.stc 2 5 1 0) [(1, BitVec.ofNat 64 (Reg.GLB_IEN)), (5, 0x87654321)]
def sTroekMemory2 : State := wTrkHeld (.ldcd 2 5 1 0) [(1, BitVec.ofNat 64 (0x080000)), (5, 0x87654321)]
def sTroekMemory3 : State := wTrkHeld (.stc 2 5 1 0) [(1, BitVec.ofNat 64 (0x080000)), (5, 0x87654321)]
def sTroekMemory4 : State := wTrkHeld (.ldc 2 5 1 0) [(1, BitVec.ofNat 64 (0x080000)), (5, 0x87654321)]
def sTroekWaits1 : State := wTrkWaitStep (.waitp 2 5 3 4 7) [(3, 5000000), (4, 5000000)]
def sTroekWaits2 : State := wTrkWait (.waite 2 5 4 0 0xF0) [(3, 900000), (4, 900000)] 0
def sTroekWaits3 : State := wTrkStep (.waite 2 5 4 0 0xF0) [(3, 5000000), (4, 5000000)]
def sTroekWaits4 : State := wTrkWait (.waitt 2 5 3) [(3, 1000000), (4, 1000001)] 0x30
def sTroekWaits5 : State := wTrkWait (.waite 2 5 4 0 0xF0) [(3, 5), (4, 5000000)] 1
def sTroekWaits6 : State := wTrkWaitStep (.waitp 2 5 3 4 7) [(3, 0), (4, 5000000)]
def sTroekWaits7 : State := wTrkWith (.waite 2 5 4 0 0xF0) [(3, 5), (4, 5000000)]
def sTroekWaits8 : State := wTrkWith (.waite 2 5 4 7 0xF0) [(3, 1000001), (4, 0)]
def sTroekWaits9 : State := wTrkWait (.waitp 2 5 3 4 7) [(3, 5), (4, 5000000)] 1
def sTroekWaits10 : State := wTrkStep (.waitt 2 5 3) [(3, 5000000), (4, 5000000)]
def sTroekWaits11 : State := wTrkWith (.waitt 2 5 3) [(3, 1000000), (4, 1000001)]
def sTroekWaits12 : State := wTrkWait (.waitt 2 5 3) [(3, 1000001), (4, 0)] 0xF0
def sTroekWaits13 : State := wTrkWith (.waitt 2 5 3) [(3, 1000001), (4, 0)]
def sTroekUnits1 : State := bad [.dmem 0xFFFF] (wTrkWith (.lwr 2 5 3 4) [(3, 0xFFF8), (4, 0x800008)])
def sTroekUnits2 : State := wTrkWith (.arm 2 5 3 4) [(3, 5000000), (4, 0x0000000500030001)]
def sTroekUnits3 : State := bad [.dmem 0xFFFF] (wTrkWith (.log 2 5 3 0) [(3, 0xFFE0)])
def sTroekUnits4 : State := wTrkWith (.lwr 2 5 3 4) [(3, 0xFFF8), (4, 0x800008)]
def sTroekUnits5 : State := wTrkWith (.lwr 2 5 3 4) [(3, 0x100), (4, 0x800201)]
def sTroekUnits6 : State := wTrkWith (.lwr 2 5 3 4) [(3, 0x10000)]
def sTroekUnits7 : State := wTrkWith (.log 2 5 3 0) [(3, 0xFFE0)]
def sTroekUnits8 : State := wTrkWith (.bind 2 5 3 4) [(3, 24)]
def sTroekUnits9 : State := wTrkWith (.unbind 2 5 3) [(3, 24)]
def sTroekUnits10 : State := wTrkBind (.bind 2 5 3 4) 4 3
def sTroekUnits11 : State := wTrkBind (.unbind 2 5 3) 4 3
def sThreads1 : State := wThread 0x00050001 { thr1 with stall := some (.hold (.nop 2) 639999999) } []
def sThreads2 : State := wThread 0x00050001 { thr1 with late := some (.cana 2 5 3) } []
def sThreads3 : State := wThread 0x00050001 { thr1 with ready := 640000032 } []
def sThreads4 : State := wThread 0x00050000 thr1 [(Reg.SEQ_STAT, 0x800)]
def sThreads5 : State := wThread 0x00050000 thr1 [(Reg.SEQ_SP, 0x1)]
def sThreads6 : State := wThread 0x00050000 thr1 []
def sThreads7 : State := wThread 0x00050001 thr1 []
def sThreads8 : State := wThread 0x00050002 thr1 []
def sHostMemory1 : State := st { up with bud := {up.bud with down := true} }
def sHostMemory2 : State := st { up with stage_ := 5 }
def sStreamsAndRings1 : State :=
    st (bStr { items := [it, it], descs := [{ de .writing true 0 with issued := 64 }, de .held false 1], fetching := 1, fetch := 3 } [(Reg.STR_CTL 9, 0x00010309), (Reg.STR_RING 9, 0x104), (Reg.STR_TAIL 9, 7)])
def sStreamsAndRings2 : State :=
    st (bStr { items := [it, it], descs := [de .writing true 0, de .held false 1], fetching := 1, fetch := 3 }
      [(Reg.STR_CTL 9, 0x00010308), (Reg.STR_RING 9, 0x104), (Reg.STR_TAIL 9, 7)])
def sStreamsAndRings3 : State :=
    st (bStr { items := [it, it], descs := [de .filling true 0, de .held false 1], fetching := 1, fetch := 3 }
      [(Reg.STR_CTL 9, 0x00010309), (Reg.STR_RING 9, 0x106), (Reg.STR_TAIL 9, 7)])
def sStreamsAndRings4 : State := st (rgs [(Reg.HOST_RING_CTL 1, 1), (Reg.HOST_RING_RDIDX 1,
    2)] { up with host := { up.host with rings := [(1, { staged := [it, it, it], drops := none })] } })
def sInterruptsAndConfiguration1 : State := st (rgs [(Reg.STR_CTL 9,
    1)] { up with host := { up.host with msixMask := true, vecs := [(0, { ends := some 4, again := true, imod := 0 })] } })
def sInterruptsAndConfiguration2 : State := st (rgs [(Reg.MSIX_TABLE_CTRL 0,
    0)] { up with host := { up.host with vecs := [(0, { ends := some 4, again := true, imod := 0 })] } })
def sInterruptsAndConfiguration3 : State :=
    st { up with host := { up.host with aer := [.poisonedTlp], vecs := [(40, { ends := some 4, again := false, imod := 7 })] } }
def sInterruptsAndConfiguration4 : State := st { up with cfgReady := false }
def sLedgerWrites1 : State := wLdg { queue := [log1] } [(Reg.LDG_LOG, 2047), (Reg.LDG_LOGSEQ, 5)]
def sLedgerWrites2 : State := wLdg { wantJsum := true, lastCounters := 0 } [(Reg.LDG_CTL, 0)]
def sLedgerWrites3 : State := wLdgShut { prog := some prog2, queue := [log1, .shutdown []] }
def sLedgerWrites4 : State := wLdgShut { queue := [log1, .shutdown (List.replicate 16 3)] }
def sLedgerWrites5 : State := wLdg { queue := [.twin 2 0 (List.replicate 16 3)] } []
def sLedgerWrites6 : State := wLdg { bytes := udir1 } [(Reg.LDG_UKIND, 0x80)]
def sLedgerWrites7 : State := wLdg { queue := List.replicate 32 raw2 } []
def sLedgerWrites8 : State := wLdg {} [(Reg.LDG_UKIND, 0x80)]
def sLedgerWrites9 : State := wLdg { prog := some prog1 } []
def sLedgerWrites10 : State := wLdgShut { queue := [log1] }
def sServiceTarget1 : State := wSvcHeld (sel1 { hdr := some (true, false, 0x80000), next := some 9 })
def sServiceTarget2 : State := wSvc (sel1 { hdr := some (true, true, 0x1FFFFC), next := some 9 }) []
def sServiceTarget3 : State := wSvc (sel1 { hdr := some (false, true, Reg.SVC_AMB_CMD) }) []
def sServiceTarget4 : State := wSvc (sel1 { hdr := some (true, true, 0x1FFFFC) }) []
def sServiceTarget5 : State := wSvc (sel1 { bad := true }) []
def sServiceTarget6 : State := wSvc {} [(Reg.SVC_CTL, 1)]
def sServiceController1 : State := st (rgs [(Reg.SVC_AMB_CTL, 0x1000D01), (Reg.SVC_CTL,
    2)] { up with svc := { xfer := some { xfer1 with poll := true, st := .driving } }, bud := { ambHost := some 640000000 } })
def sServiceController2 : State := wSvc { xfer := some { xfer1 with st := .driving }, sel := true } [(Reg.SVC_MCTL,
    0x3), (Reg.SVC_CTL, 0x10000002), (Reg.SVC_STAT, 1)]
def sServiceController3 : State := wSvc { xfer := some { xfer1 with st := .driving }, sel := true } [(Reg.SVC_MCTL,
    0x000F1F07), (Reg.SVC_CTL, 0x20000002)]
def sServiceController4 : State :=
    wSvc { xfer := some { xfer1 with st := .driving, poll := true }, sel := true } [(Reg.SVC_CTL, 0x10000002)]
def sServiceController5 : State := wSvc { xfer := some { xfer1 with st := .driving } } [(Reg.SVC_AMB_CTL, 0x00000D01),
    (Reg.SVC_CTL, 2)]
def sServiceController6 : State := wSvc { xfer := some { xfer1 with poll := true } } [(Reg.SVC_AMB_CTL, 0x00000D01),
    (Reg.SVC_CTL, 2)]
def sServiceController7 : State :=
    wSvc { xfer := some { xfer1 with st := .driving, poll := true } } [(Reg.SVC_AMB_CTL, 0x000D0D01)]
def sServiceController8 : State := wSvc { xfer := some xfer1 } [(Reg.SVC_AMB_CTL, 0x00000D01), (Reg.SVC_CTL, 2)]
def sServiceController9 : State := wSvc { xfer := some { xfer1 with st := .driving } } [(Reg.SVC_MCTL, 0x3)]
def sServiceController10 : State := wSvc { pollFrom := 0 } [(Reg.SVC_AMB_CTL, 0x00000D01), (Reg.SVC_CTL, 2)]
def sServiceController11 : State := wSvc {} [(Reg.SVC_MCTL, 0x00010801), (Reg.SVC_CTL, 0)]
def sServiceController12 : State := wSvc {} [(Reg.SVC_MCTL, 0x00010801), (Reg.SVC_CTL, 2)]
def sServiceController13 : State := wSvc {} [(Reg.SVC_MCTL, 0)]
def sPairFrames1 : State := wPair 5 0x39 { withPartner with peerSent := some (900000, 950000), own := [dig2 5] }
def sPairFrames2 : State := wPairEnt { ent1 with held := true, reached := some (⟨639000000, 0⟩, none) }
def sPairRoles1 : State := wPair 0x5 0x36 { withPartner with bulkDone := true }
def sPairRoles2 : State := wPairOld 5 1 0 { recover := some 0 }
def sPairRoles3 : State := wPairOld 9 0 1 { enAt := some 0 }
def sPairRoles4 : State := wPairOld 1 0 0 { enAt := some 0 }
def sPairRoles5 : State := wPairOld 0xD 0x3A 1 withPartner
def sSuppliesAndResets1 : State := wSup [(Reg.THM_EST, 0x7000)] { shutting := true }
def sSuppliesAndResets2 : State := wSup [(Reg.SUP_STAT, 0xFF)] {}
def sStartUp1 : State := wStart 0 true false false
def sStartUp2 : State := wStart 6 false true false
def sStartUp3 : State := wStart 4 false true false

/-! ### Witnesses -/

/-- What the tests of the launch keys find; whether the descriptors' LATE keeps one late by `x`. -/
def hits (s : State) : List (Option (Option Nat)) := (s.blk.str 9).descs.map fun d => launchHit d.d s.blk
def keeps (s : State) (x : Nat) : List Bool := (s.blk.str 9).descs.map fun d => s.blk.keepsLate d.d x

theorem witness_ClockStaysOnTick :
    (st up).blk.onTick ∧ (st up).prev.now = (st up).blk.now ∧
    ∃ t, step { st up with pending := [.timeTick [] 0 0 []] } = .next t := ⟨rfl, rfl, _, rfl⟩

theorem witness_MapsStayCanonical :
    SMap.wf resetOf (wStartBad 6).blk.regs = true ∧ SMap.wf (fun _ => 0) (wStartBad 6).blk.hbm = true ∧
    ∃ t, step { wStartBad 6 with pending := [.timeTick [] 0 0 []] } = .next t :=
  ⟨by decide +kernel, by decide +kernel, _, rfl⟩

theorem witness_TickAdvances :
    (st { up with stage_ := 0 }).blk.stage_ = 0 ∧
    (1 ≤ wUp.blk.stage_ ∧ wUp.blk.tim.incWritten = false ∧ wUp.blk.tim.set = none ∧ wUp.blk.tim.steps = [] ∧
      wUp.blk.unitsOn = true) ∧
    (1 ≤ wUp.blk.stage_ ∧ (st { up with tim := { up.tim with set := some 77 } }).blk.tim.set = some 77) ∧
    Upset.dmem 0xFFFF ∈ [Upset.imem 0x3FFF, .dmem 0xFFFF] ∧ Upset.imem 0x3FFF ∈ [Upset.imem 0x3FFF, .dmem 0xFFFF] ∧
    (∀ v ∈ [Vote.minority 7 4, .minority 15 0], ∃ u k, v = .minority u k) ∧
    (∀ s ∈ [wDue 0x00030001 false, wDue 0x00030002 false, wDue 0x00030001 true, wDue 0x00030101 true, wDue 0x00030201
      true],
      s.blk.unitsOn = true ∧ s.blk.keyDue 5 = some (dueOf s 5) ∧ s.blk.isBad (.action 5) = false ∧ s.blk.standby =
        false ∧
      (s.blk.actE 5).reached = none ∧ s.blk.act.backlog = [] ∧ s.blk.act.done = 0 ∧
      ∀ y ∈ s.blk.act.entries, y.1 ≠ 5 → s.blk.keyDue y.1 = none) ∧
    ((dueOf (wDue 0x00030001 false) 5).2 = none ∧ ((wDue 0x00030001 false).blk.actE 5).kind = 1) ∧
    ((dueOf (wDue 0x00030002 false) 5).2 = none ∧ ((wDue 0x00030002 false).blk.actE 5).kind = 2) ∧
    ((dueOf (wDue 0x00030001 true) 5).2.isSome = true ∧ ((wDue 0x00030001 true).blk.actE 5).policy = 0) ∧
    ((dueOf (wDue 0x00030101 true) 5).2.isSome = true ∧ ((wDue 0x00030101 true).blk.actE 5).policy = 1) ∧
    (((wDue 0x00030201 true).blk.fld Reg.ACT_GRACE_P 23 0 : Int) < ((dueOf (wDue 0x00030201 true) 5).2.getD 0) ∧
      ((wDue 0x00030201 true).blk.num Reg.ACT_GRACE_T : Int) < ((dueOf (wDue 0x00030201 true) 5).2.getD 0) ∧
      (dueOf (wDue 0x00030201 true) 5).2.isSome = true ∧ ((wDue 0x00030201 true).blk.actE 5).policy = 2) ∧
    ((bad [.action 5] (wDue 0x00030001 false)).blk.keyDue 5 = some (dueOf (bad [.action 5] (wDue 0x00030001 false)) 5) ∧
      (bad [.action 5] (wDue 0x00030001 false)).blk.isBad (.action 5) = true) ∧
    (∀ s ∈ [wLaunch 0 5 false, wLaunch 0 5 true, wLaunch 1 5 true, wLaunch 1 5000000 true],
      s.blk.unitsOn = true ∧ (∀ y ∈ s.blk.act.entries, s.blk.keyDue y.1 = none) ∧ s.blk.act.backlog = [] ∧
      (s.blk.str 9).descs.map (·.launched) = [false] ∧ (s.blk.str 9).descs.map (·.st) = [.held]) ∧
    (∀ n, Upset.staged 9 n ∉ [Upset.imem 0x3FFF, .dmem 0xFFFF]) ∧
    hits (wLaunch 0 5 false) = [some none] ∧
    hits (wLaunch 0 5 true) = [some (some 999995)] ∧ keeps (wLaunch 0 5 true) 999995 = [true] ∧
    hits (wLaunch 1 5 true) = [some (some 999995)] ∧ keeps (wLaunch 1 5 true) 999995 = [false] ∧
    hits (wLaunch 1 5000000 true) = [none] := by
  refine ⟨rfl, by decide +kernel, by decide +kernel, by decide, by decide, ?_, ?_⟩
  · intro v hv
    simp at hv
    rcases hv with rfl | rfl <;> exact ⟨_, _, rfl⟩
  · refine ⟨by decide +kernel, by decide +kernel, by decide +kernel, by decide +kernel, by decide +kernel,
      by decide +kernel, by decide +kernel, by decide +kernel, by simp, by decide +kernel, by decide +kernel,
      by decide +kernel, by decide +kernel, by decide +kernel, by decide +kernel⟩

theorem witness_AccessCodes : (31 < 32) ∧ regRow 0xFFC = none := by decide +kernel

theorem witness_TroekDecodeEncode : (Instr.log 3 31 31 0xFFFF).threadOf = some 3 := rfl

theorem witness_TroekComputes : ∀ i ∈ [
    Instr.add 2 5 3 4, .sub 2 5 3 4, .and 2 5 3 4, .or 2 5 3 4, .xor 2 5 3 4, .shl 2 5 3 4, .shr 2 5 3 4, .sar 2 5 3 4,
    .mul 2 5 3 4, .slt 2 5 3 4, .sltu 2 5 3 4, .addi 2 5 3 0xFFF0, .andi 2 5 3 0xFFF0, .ori 2 5 3 0xFFF0,
    .xori 2 5 3 0xFFF0, .slti 2 5 3 0xFFF0, .shli 2 5 3 63, .shri 2 5 3 63, .sari 2 5 3 63, .ins 2 5 3 0xFFF0,
    .time 2 5, .pos 2 5 7 true, .nop 2, .budg 2 0], Issues 2 i (wTrk i) := by decide +kernel

theorem witness_TroekControlFlow :
    (∀ i ∈ [Instr.beq 2 3 4 0xFFFA, .bne 2 3 4 0xFFFA, .blt 2 3 4 0xFFFA, .bge 2 3 4 0xFFFA, .bltu 2 3 4 0xFFFA,
      .bgeu 2 3 4 0xFFFA, .j 2 0x3FFF, .jal 2 0 0x3FFF, .jr 2 3, .halt 2], Issues 2 i (wTrk i)) ∧
    (wTrk (.blt 2 3 4 0)).blk.greg 2 3 ≠ (wTrk (.blt 2 3 4 0)).blk.greg 2 4 ∧
    ((wTrk (.blt 2 3 4 0)).blk.greg 2 3).toInt < ((wTrk (.blt 2 3 4 0)).blk.greg 2 4).toInt ∧
    ((wTrk (.blt 2 3 4 0)).blk.greg 2 4).toNat ≤ ((wTrk (.blt 2 3 4 0)).blk.greg 2 3).toNat ∧
    (wTrkBad.blk.canIssue 2 = true ∧ wTrkBad.blk.instrAt 2 = none) ∧
    ((bad [.imem 5] (wTrk (.nop 2))).blk.canIssue 2 = true ∧ (bad [.imem 5] (wTrk (.nop 2))).blk.instrAt 2 = none) := by
  and_intros <;> decide +kernel

theorem witness_ReservedBitsReadZero :
    shadowLo 65540 = none ∧ inWindow 65540 = false := by
  and_intros <;> decide +kernel

theorem witness_PartialWritesCounted :
    (wUp.blk.reaches Requester.svc = true ∧ inLedger ((65540 : BitVec 21).toNat / 4 * 4) = false) ∧
    (wUp.blk.reaches Requester.svc = true ∧ wUp.blk.bud.down = false) := by
  and_intros <;> decide +kernel

theorem witness_PlainWritesFollowAccessCodes :
    Writes Requester.host wUp ∧
    (20 : BitVec 21).toNat ∈ [Reg.GLB_IEN, Reg.GLB_BADACC, Reg.TIM_STEP, Reg.TIM_STAT, Reg.TIM_CNT, Reg.VRD_CNT_A] ∧
    Prevails Requester.host ((20 : BitVec 21).toNat) wUp := by
  and_intros <;> decide +kernel

theorem witness_StandbyDiscardsMirroredWrites :
    wStandby.blk.reaches Requester.host = true ∧ wStandby.blk.bud.down = false ∧ wStandby.blk.standby = true ∧
    mirrored ((65540 : BitVec 21).toNat / 4 * 4) = true := by
  and_intros <;> decide +kernel

theorem witness_LoWordReadSnapshotsHi :
    wPos.blk.reaches Requester.host = true := by
  and_intros <;> decide +kernel

theorem witness_PositionAndTimeCommands :
    (Writes Requester.host (wStkLoad 0x12345) ∧
      (∀ (pin : EncPin), pin ∈ [EncPin.a, EncPin.b, EncPin.z] → ∀ (h : Hold),
        h ∈ ((wStkLoad 0x12345).blk.ch 2).hold pin → (wStkLoad 0x12345).blk.now < h.due) ∧
      (wStkLoad 0x12345).blk.stkSrc 3 = 2 ∧
      posDiff (loadPoint (wStkLoad 74565).blk 2) 20480 = posDiff (loadPoint (wStkLoad 0x12345).blk 2) ((wStkLoad
        0x12345).blk.grp 3).next ∧
      (wStkLoad 0x12345).blk.stkEn 3 = true ∧
      0 < posDiff (loadPoint (wStkLoad 0x12345).blk 2) (((wStkLoad 0x12345).blk.ch 2).hwmAt (wStkLoad 0x12345).blk.now)
        ∧
      0 ≤ posDiff (loadPoint (wStkLoad 74565).blk 2) 20480) ∧ (Writes Requester.host wUp ∧
      (∀ (pin : EncPin), pin ∈ [EncPin.a, EncPin.b, EncPin.z] → ∀ (h : Hold),
        h ∈ (wUp.blk.ch 0).hold pin → wUp.blk.now < h.due) ∧
      wUp.blk.stkSrc 0 = 0 ∧
      (wUp.blk.stkEn 0 = false ∨ posDiff (loadPoint wUp.blk 0) ((wUp.blk.ch 0).hwmAt wUp.blk.now) ≤ 0 ∨ default < 0)) ∧
    (Writes Requester.host wTim ∧ (wTim.blk.fld Reg.TIM_CTL 3 2 = 1 ∨ wTim.blk.fld Reg.TIM_CTL 3 2 = 2) ∧
      wTim.blk.ns ≤ (wTim.blk.rd64 Reg.TIM_TOUT_START_LO).toNat) ∧ (Writes Requester.host (wTimP 4) ∧
      (wTimP 4).blk.fld Reg.TIM_CTL 3 2 = 1 ∧ ((wTimP 4).blk.rd64 Reg.TIM_TOUT_START_LO).toNat < (wTimP 4).blk.ns) ∧
    (Writes Requester.host (wTimP 8) ∧ (wTimP 8).blk.fld Reg.TIM_CTL 3 2 = 2 ∧
      ((wTimP 8).blk.rd64 Reg.TIM_TOUT_START_LO).toNat < (wTimP 8).blk.ns) ∧ (Writes Requester.host wUp ∧
      Prevails Requester.host (Reg.POS_CTL 2) wUp ∧ wUp.blk.posEn 2 = false ∧ (547 : BitVec 16).getLsbD 0 = true) ∧
    (Writes Requester.svc wUp ∧ Prevails Requester.svc (Reg.POS_CTL 0) wUp ∧
      wUp.blk.posEn 0 = (258 : BitVec 16).getLsbD 0) ∧ (Writes Requester.host wTim ∧ wTim.blk.host.ptmEn = true ∧
      wTim.blk.host.dlUp = true ∧ wTim.blk.tim.ptmOut = none) ∧ (Writes Requester.svc wUp ∧
      Prevails Requester.svc (Reg.POS_CTL 0) wUp ∧ (258 : BitVec 16).getLsbD 0 = false) ∧ (Writes Requester.svc wUp ∧
      Prevails Requester.svc (Reg.POS_CTL 0) wUp ∧ 1 ≠ fieldOf 258 7 5) ∧ (Writes Requester.svc wUp ∧
      Prevails Requester.svc (Reg.POS_STALL 0) wUp) ∧ (Writes Requester.svc wUp ∧
      Prevails Requester.svc Reg.TIM_INC_NS wUp) ∧ (Writes Requester.host wUp ∧
      1 ≠ wUp.blk.fld (Reg.POS_CTL 2) 7 5) := by
  and_intros <;> decide +kernel

theorem witness_EncoderFilter :
    (wHeldWait.blk.posOn = true ∧
      (∀ (q : EncPin), q ∈ [EncPin.a, EncPin.b, EncPin.z] → ∀ (h : Hold),
        h ∈ (wHeldWait.blk.ch 2).hold q → wHeldWait.blk.now + 3 < h.due) ∧
      (EncPin.a = (if false = true then EncPin.b else EncPin.a)) ∧ (wHeldWait.blk.ch 2).wait = some (false, hold1)) ∧
    (wPos.blk.posOn = true ∧ EncPin.a ≠ EncPin.z ∧ (wPos.blk.ch 2).hold EncPin.a = some hold1 ∧
      hold1.due ≤ wPos.blk.now + 3 ∧
      (∀ (q : EncPin), q ∈ [EncPin.a, EncPin.b, EncPin.z] → q ≠ EncPin.a → (wPos.blk.ch 2).hold q = none) ∧
      (wPos.blk.ch 2).wait = none ∧ wPos.blk.posEn 2 = true) ∧ (wHeld.blk.posOn = true ∧
      (∀ (q : EncPin), q ∈ [EncPin.a, EncPin.b, EncPin.z] → ∀ (h : Hold),
        h ∈ (wHeld.blk.ch 2).hold q → wHeld.blk.now + 3 < h.due) ∧
      (wHeld.blk.ch 2).waitsFor EncPin.a = false) := by
  and_intros <;> decide +kernel

theorem witness_AcceptedTransitionCounts :
    (wIndex.blk.posOn = true ∧ (wIndex.blk.ch 2).hold EncPin.z = some hold1 ∧ hold1.due ≤ wIndex.blk.now ∧
      (EncPin.a = (if EncPin.z = EncPin.a then EncPin.b else EncPin.a)) ∧ hold1.level = true ∧
      wIndex.blk.posEn 2 = true ∧ wIndex.blk.bit (Reg.POS_CTL 2) 2 = true ∧
      (wIndex.blk.bit (Reg.POS_CTL 2) 3 = false ∨ (wIndex.blk.ch 2).filtA = true ∧ (wIndex.blk.ch 2).filtB = true) ∧
      (wIndex.blk.ch 2).holdA = none ∧ (wIndex.blk.ch 2).holdB = none ∧ wIndex.blk.bit (Reg.POS_CTL 2) 4 = true ∧
      (wIndex.blk.ch 2).moved = true ∧ (wIndex.blk.ch 2).fwd = true) ∧ (wNear.blk.posOn = true ∧
      (wNear.blk.ch 2).hold EncPin.a = some hold1 ∧ hold1.due ≤ wNear.blk.now ∧
      (EncPin.b = (if EncPin.a = EncPin.a then EncPin.b else EncPin.a)) ∧ EncPin.a ≠ EncPin.z ∧
      wNear.blk.posEn 2 = true ∧ (wNear.blk.ch 2).hold EncPin.b = some holdB1 ∧ (wNear.blk.ch 2).wait = none ∧
      nearBy holdB1.cross hold1.cross = true ∧ (wNear.blk.now < holdB1.due ∨ hold1.cross.ref ≤ holdB1.cross.ref)) ∧
    (wDouble.blk.posOn = true ∧ (wDouble.blk.ch 2).hold EncPin.a = some hold1 ∧ hold1.due ≤ wDouble.blk.now ∧
      (EncPin.b = (if EncPin.a = EncPin.a then EncPin.b else EncPin.a)) ∧ EncPin.a ≠ EncPin.z ∧
      wDouble.blk.posEn 2 = true ∧ (wDouble.blk.ch 2).hold EncPin.b = none ∧
      (wDouble.blk.ch 2).wait = some (decide (EncPin.b = EncPin.a), holdB1) ∧
      nearBy holdB1.cross hold1.cross = true) ∧ (wPos.blk.posOn = true ∧ (wPos.blk.ch 2).hold EncPin.a = some hold1 ∧
      hold1.due ≤ wPos.blk.now ∧ (EncPin.b = (if EncPin.a = EncPin.a then EncPin.b else EncPin.a)) ∧
      EncPin.a ≠ EncPin.z ∧ wPos.blk.posEn 2 = true ∧ (wPos.blk.ch 2).hold EncPin.b = none ∧
      (wPos.blk.ch 2).wait = none) := by
  and_intros <;> decide +kernel

theorem witness_StandstillFreezesFraction :
    (wPos.blk.posOn = true ∧ wPos.blk.posEn 2 = true ∧ (wPos.blk.ch 2).standstill = false ∧
      (wPos.blk.ch 2).last = some { ref := 639000000, dev := 7 } ∧
      (wPos.blk.now < 639000000 + wPos.blk.stallTu 2 ∨ (wPos.blk.ch 2).wait.isSome = true)) ∧
    (wPosC.blk.posOn = true ∧ wPosC.blk.posEn 2 = true ∧ (wPosC.blk.ch 2).standstill = false ∧
      (wPosC.blk.ch 2).last = some { ref := 638000000, dev := 7 } ∧ 638000000 + wPosC.blk.stallTu 2 ≤ wPosC.blk.now ∧
      (wPosC.blk.ch 2).wait = none) := by
  and_intros <;> decide +kernel

theorem witness_IncrementTakesEffect :
    Writes Requester.host wUp ∧ Prevails Requester.host Reg.TIM_INC_NS wUp ∧ 1 ≤ wUp.blk.stage_ ∧
    wUp.blk.tim.set = none ∧ wUp.blk.tim.steps = [] := by
  and_intros <;> decide +kernel

theorem witness_TimeEvents :
    (1 ≤ wTimB.blk.stage_ ∧ wTimB.blk.tim.train = some ({ trainA with count := none } : Train) ∧
      ({ trainA with count := none } : Train).start + ({ trainA with count := none } : Train).k *
        ({ trainA with count := none } : Train).period ≤ wTimB.blk.ns ∧
      ({ trainA with count := none } : Train).count = none) ∧ (5 ≤ wTim.blk.stage_ ∧
      wTim.blk.bit Reg.TIM_CTL 5 = true ∧
      wTim.blk.tim.ptmAuto + max 1 (wTim.blk.fld Reg.TIM_CTL 15 8) * tuMs ≤ wTim.blk.now ∧
      wTim.blk.host.ptmEn = true ∧ wTim.blk.host.dlUp = true ∧ wTim.blk.tim.ptmOut = none) ∧ (1 ≤ wTim.blk.stage_ ∧
      wTim.blk.tim.train = some trainA ∧ trainA.start + trainA.k * trainA.period ≤ wTim.blk.ns ∧
      wTim.blk.toutOn = true ∧ wTim.blk.tim.pulseEnd = none) ∧ (1 ≤ wTim.blk.stage_ ∧
      wTim.blk.tim.train = some trainA ∧ trainA.start + trainA.k * trainA.period ≤ wTim.blk.ns ∧
      trainA.count = some (trainA.k + 1)) ∧ (5 ≤ wTimB.blk.stage_ ∧ wTimB.blk.bit Reg.TIM_CTL 0 = true ∧
      wTimB.blk.tim.ppsLast = some 3 ∧ 3 + 1100 * tuMs < wTimB.blk.now) ∧ (1 ≤ wTimB.blk.stage_ ∧
      wTimB.blk.tim.pulseEnd = some 1000000 ∧ 1000000 ≤ wTimB.blk.ns ∧ wTimB.blk.toutOn = true) ∧
    (wPtm.blk.tim.ptmOut = some (638000000, 999000) ∧ wPtm.blk.host.ptmEn = true ∧ wPtm.blk.host.dlUp = true) ∧
    (wPtm.blk.tim.ptmOut = some (638000000, 999000) ∧ wPtm.blk.tim.ptmPrev = some (990000, 990500)) ∧
    (5 ≤ wTim.blk.stage_ ∧ wTim.blk.bit Reg.TIM_CTL 0 = true ∧ true = !wTim.blk.bit Reg.TIM_CTL 1) ∧
    (wPtm.blk.tim.ptmOut = some (638000000, 999000) ∧ 638000000 + 100 * tuUs ≤ wPtm.blk.now) ∧
    (wTimB.blk.tim.route.holdEnd = some 640000000 ∧ 640000000 ≤ wTimB.blk.now) := by
  and_intros <;> decide +kernel

theorem witness_StrikeGroupWrites :
    (Writes Requester.host wStk ∧ Prevails Requester.host (Reg.STK_GRP_CTL 3) wStk ∧
      (37109 : BitVec 16).getLsbD 0 = true ∧
      (wStk.blk.stkEn 3 = false ∨ wStk.blk.stkSrc 3 ≠ fieldOf 37109 6 4 ∨ wStk.blk.fld (Reg.STK_GRP_CTL 3) 2 1 ≠
        fieldOf 37109 2 1)) ∧
    (Writes Requester.host wStk ∧ Prevails Requester.host (Reg.STK_GRP_CTL 3) wStk ∧
      (33 : BitVec 16).getLsbD 0 = true ∧ wStk.blk.stkEn 3 = true ∧ wStk.blk.stkSrc 3 = fieldOf 33 6 4 ∧
      wStk.blk.fld (Reg.STK_GRP_CTL 3) 2 1 = fieldOf 33 2 1) ∧ (Writes Requester.host wStk ∧
      Prevails Requester.host (Reg.STK_GRP_CTL 3) wStk ∧ (16 : BitVec 16).getLsbD 0 = false) ∧
    (Writes Requester.host wStk ∧ Prevails Requester.host (Reg.STK_PORT 4) wStk) ∧ (Writes Requester.host wStkOff ∧
      wStkOff.blk.stkEn 3 = false) := by
  and_intros <;> decide +kernel

theorem witness_StrikesIssue :
    ((wStkDec (some 638999999)).blk.posOn = true ∧
      ((wStkDec (some 638999999)).blk.grp 3).decided = dec1 :: ([{ dec1 with idle := true }]) ∧
      ((wStkDec (some 638999999)).blk.grp 3).last = some 638999999 ∧
      dec1.inst.ref < 638999999 + (wStkDec (some 638999999)).blk.minint 3 * tuNs) ∧ (wStk.blk.posOn = true ∧
      SMap.get (fun _ => []) wStk.blk.sched 4 = [({ stamp := 5, at_ := 640000000 } : Sched)] ∧
      ({ stamp := 5, at_ := 640000000 } : Sched).at_ ≤ wStk.blk.now ∧ wStk.blk.laneStrikes 4 = true) ∧
    ((wStkDec none).blk.posOn = true ∧ ((wStkDec none).blk.grp 3).decided = dec1 :: ([{ dec1 with idle := true }]) ∧
      InTime (wStkDec none).blk 3 dec1.inst) := by
  and_intros <;> decide +kernel

theorem witness_StrikeTests :
    (sStrikeTests2.blk.posOn = true ∧
      (∀ (y : Nat × ActEntry),
        y ∈ sStrikeTests2.blk.act.entries → y.snd.kind = 10 ∨ y.snd.kind = 11 → y.snd.target ≠ 3) ∧
      Calm sStrikeTests2.blk 3 ∧ (sStrikeTests2.blk.ch (sStrikeTests2.blk.stkSrc 3)).evals = [evalF] ∧
      sStrikeTests2.blk.stkEn 3 = true ∧ sStrikeTests2.blk.stkInterp 3 = true ∧
      (sStrikeTests2.blk.grp 3).preds = [predA 640000000] ∧ evalF.cross.ref < (predA 640000000).at_ ∧
      evalF.fwd = true ∧
      posDiff evalF.base ((sStrikeTests2.blk.grp 3).next + BitVec.ofNat 48 (sStrikeTests2.blk.stkPitch 3)) < 0 ∧
      -2 ^ 40 < posDiff evalF.base ((sStrikeTests2.blk.grp 3).next + BitVec.ofNat 48 (sStrikeTests2.blk.stkPitch 3)) ∧
      InTime sStrikeTests2.blk 3 evalF.cross) ∧ (sStrikeTests1.blk.posOn = true ∧
      (∀ (y : Nat × ActEntry),
        y ∈ sStrikeTests1.blk.act.entries → y.snd.kind = 10 ∨ y.snd.kind = 11 → y.snd.target ≠ 3) ∧
      Calm sStrikeTests1.blk 3 ∧
      (sStrikeTests1.blk.ch (sStrikeTests1.blk.stkSrc 3)).evals = [({ evalF with fwd := false, base := 0x4F00 } :
        Eval)] ∧
      sStrikeTests1.blk.stkEn 3 = true ∧ sStrikeTests1.blk.stkInterp 3 = true ∧
      (sStrikeTests1.blk.grp 3).preds = [predA 639999999] ∧
      ({ evalF with fwd := false, base := 0x4F00 } : Eval).cross.ref < (predA 639999999).at_ ∧
      ({ evalF with fwd := false, base := 0x4F00 } : Eval).fwd = false) ∧ (sStrikeTests3.blk.posOn = true ∧
      (∀ (y : Nat × ActEntry),
        y ∈ sStrikeTests3.blk.act.entries → y.snd.kind = 10 ∨ y.snd.kind = 11 → y.snd.target ≠ 3) ∧
      (sStrikeTests3.blk.ch (sStrikeTests3.blk.stkSrc 3)).evals = [] ∧ (sStrikeTests3.blk.grp 3).preds = [] ∧
      (sStrikeTests3.blk.grp 3).decided = [] ∧ (sStrikeTests3.blk.grp 3).manual = false ∧
      (sStrikeTests3.blk.grp 3).idle = some 640000000 ∧ 640000000 ≤ sStrikeTests3.blk.now ∧
      sStrikeTests3.blk.idleCond 3 = true) ∧ (sStrikeTests6.blk.posOn = true ∧
      (∀ (y : Nat × ActEntry),
        y ∈ sStrikeTests6.blk.act.entries → y.snd.kind = 10 ∨ y.snd.kind = 11 → y.snd.target ≠ 3) ∧
      Calm sStrikeTests6.blk 3 ∧ (sStrikeTests6.blk.ch (sStrikeTests6.blk.stkSrc 3)).evals = [evalF] ∧
      sStrikeTests6.blk.stkEn 3 = true ∧ sStrikeTests6.blk.stkInterp 3 = false ∧
      (sStrikeTests6.blk.grp 3).preds = [] ∧ evalF.fwd = true ∧ evalF.behind = false ∧
      0 ≤ posDiff evalF.base (sStrikeTests6.blk.grp 3).next ∧ InTime sStrikeTests6.blk 3 evalF.cross) ∧
    (sStrikeTests4.blk.posOn = true ∧
      (∀ (y : Nat × ActEntry),
        y ∈ sStrikeTests4.blk.act.entries → y.snd.kind = 10 ∨ y.snd.kind = 11 → y.snd.target ≠ 3) ∧
      Calm sStrikeTests4.blk 3 ∧ (sStrikeTests4.blk.ch (sStrikeTests4.blk.stkSrc 3)).evals = [] ∧
      (sStrikeTests4.blk.grp 3).preds = [predA 639999000] ∧
      (predA 639999000).at_ + sStrikeTests4.blk.filtNs (sStrikeTests4.blk.stkSrc 3) * tuNs ≤ sStrikeTests4.blk.now) ∧
    (sStrikeTests5.blk.posOn = true ∧
      (∀ (y : Nat × ActEntry),
        y ∈ sStrikeTests5.blk.act.entries → y.snd.kind = 10 ∨ y.snd.kind = 11 → y.snd.target ≠ 3) ∧
      Calm sStrikeTests5.blk 3 ∧ (sStrikeTests5.blk.ch (sStrikeTests5.blk.stkSrc 3)).evals = [] ∧
      (sStrikeTests5.blk.grp 3).preds = [predA 639999990] ∧
      sStrikeTests5.blk.now < (predA 639999990).at_ + sStrikeTests5.blk.filtNs (sStrikeTests5.blk.stkSrc 3) * tuNs) ∧
    (sStrikeTests7.blk.posOn = true ∧
      (∀ (y : Nat × ActEntry),
        y ∈ sStrikeTests7.blk.act.entries → y.snd.kind = 10 ∨ y.snd.kind = 11 → y.snd.target ≠ 3) ∧
      (sStrikeTests7.blk.ch (sStrikeTests7.blk.stkSrc 3)).evals = [] ∧ (sStrikeTests7.blk.grp 3).preds = [] ∧
      (sStrikeTests7.blk.grp 3).decided = [] ∧
      (∀ (u : Nat), u ∈ (sStrikeTests7.blk.grp 3).idle → sStrikeTests7.blk.now < u) ∧
      (sStrikeTests7.blk.grp 3).manual = true ∧ sStrikeTests7.blk.stkEn 3 = true ∧
      InTime sStrikeTests7.blk 3 sStrikeTests7.blk.inst) ∧ (sStrikeTests8.blk.posOn = true ∧
      (∀ (y : Nat × ActEntry),
        y ∈ sStrikeTests8.blk.act.entries → y.snd.kind = 10 ∨ y.snd.kind = 11 → y.snd.target ≠ 3) ∧
      (sStrikeTests8.blk.ch (sStrikeTests8.blk.stkSrc 3)).evals = [] ∧ (sStrikeTests8.blk.grp 3).preds = [] ∧
      (sStrikeTests8.blk.grp 3).decided = [] ∧
      (∀ (u : Nat), u ∈ (sStrikeTests8.blk.grp 3).idle → sStrikeTests8.blk.now < u) ∧
      ((sStrikeTests8.blk.grp 3).manual = false ∨ sStrikeTests8.blk.stkEn 3 = false)) := by
  and_intros <;> decide +kernel

theorem witness_HeadCommands :
    (wHeadG.blk.unitsOn = true ∧ wHeadG.blk.receives 4 = true ∧ (arrival 4 (rspOf 5 3) wHeadG.blk).linkUp 4 = true ∧
      (rspOf 5 3).starts = true ∧ (rspOf 5 3).response = some ((rspOf 5 3).response.getD rsp1) ∧
      ((rspOf 5 3).response.getD rsp1).crcOk = true ∧
      List.find? (fun o => o.tag == ((rspOf 5 3).response.getD rsp1).tag) ((arrival 4 (rspOf 5 3) wHeadG.blk).port
        4).outs = some ({ out1 with waits := true, cmd := { out1.cmd with org := .group } } : OutCmd) ∧
      ({ out1 with waits := true, cmd := { out1.cmd with org := .group } } : OutCmd).waits = true ∧
      ({ out1 with waits := true, cmd := { out1.cmd with org := .group } } : OutCmd).cmd.org ≠ CmdOrg.mailbox ∧
      ((rspOf 5 3).response.getD rsp1).rstat ≠ 0) ∧ (wHeadC.blk.unitsOn = true ∧ wHeadC.blk.receives 4 = true ∧
      (arrival 4 (rspOf 5 3) wHeadC.blk).linkUp 4 = true ∧ (rspOf 5 3).starts = true ∧
      (rspOf 5 3).response = some ((rspOf 5 3).response.getD rsp1) ∧ ((rspOf 5 3).response.getD rsp1).crcOk = true ∧
      List.find? (fun o => o.tag == ((rspOf 5 3).response.getD rsp1).tag) ((arrival 4 (rspOf 5 3) wHeadC.blk).port
        4).outs = some ({ out1 with attempt := 4 } : OutCmd) ∧
      ({ out1 with attempt := 4 } : OutCmd).cmd.org = CmdOrg.mailbox) ∧ (wHeadC.blk.unitsOn = true ∧
      List.find? (fun o => !o.waits && decide (o.deadline ≤ wHeadC.blk.now)) (wHeadC.blk.port 4).outs = some
        ({ out1 with attempt := 4 } : OutCmd) ∧
      (∀ (q : OutCmd),
        q ∈ (wHeadC.blk.port 4).outs → q.tag = ({ out1 with attempt := 4 } : OutCmd).tag → q =
          ({ out1 with attempt := 4 } : OutCmd)) ∧
      4 ≤ ({ out1 with attempt := 4 } : OutCmd).attempt ∧
      ({ out1 with attempt := 4 } : OutCmd).cmd.org = CmdOrg.mailbox) ∧ (wHead.blk.unitsOn = true ∧
      wHead.blk.receives 4 = true ∧ (arrival 4 (rspOf 5 3) wHead.blk).linkUp 4 = true ∧ (rspOf 5 3).starts = true ∧
      (rspOf 5 3).response = some ((rspOf 5 3).response.getD rsp1) ∧ ((rspOf 5 3).response.getD rsp1).crcOk = true ∧
      (∀ (o : OutCmd),
        o ∈ ((arrival 4 (rspOf 5 3) wHead.blk).port 4).outs → o.tag ≠ ((rspOf 5 3).response.getD rsp1).tag)) ∧
    (wHead.blk.unitsOn = true ∧ wHead.blk.receives 4 = true ∧
      (arrival 4 (Tests.spoil (rspOf 5 0)) wHead.blk).linkUp 4 = true ∧ (Tests.spoil (rspOf 5 0)).starts = true ∧
      (Tests.spoil (rspOf 5 0)).response = some ((Tests.spoil (rspOf 5 0)).response.getD rsp1) ∧
      ((Tests.spoil (rspOf 5 0)).response.getD rsp1).crcOk = false) ∧ (wHeadB.blk.unitsOn = true ∧
      List.find? (fun o => !o.waits && decide (o.deadline ≤ wHeadB.blk.now)) (wHeadB.blk.port 4).outs = some out1 ∧
      (∀ (q : OutCmd), q ∈ (wHeadB.blk.port 4).outs → q.tag = out1.tag → q = out1) ∧ out1.attempt < 4 ∧
      wHeadB.blk.laneOn 4 = true ∧ wHeadB.blk.laneFree 4 = true) ∧ (wHead.blk.unitsOn = true ∧
      wHead.blk.laneOn 4 = true ∧ wHead.blk.laneFree 4 = true ∧
      (∀ (o : OutCmd), o ∈ (wHead.blk.port 4).outs → o.waits = false) ∧
      (wHead.blk.port 4).queue = [({ opc := 2, payload := [9], org := .group } : HdCmd)] ∧
      (wHead.blk.port 4).outs.length < 16) ∧ (wHeadD.blk.unitsOn = true ∧ wHeadD.blk.laneOn 4 = true ∧
      wHeadD.blk.laneFree 4 = true ∧
      List.find? (fun x => x.waits) (wHeadD.blk.port 4).outs = some ({ out1 with waits := true } : OutCmd)) ∧
    (Writes Requester.host wHead ∧ wHead.blk.bit (Reg.HD_CMD 4) 31 = false) := by
  and_intros <;> decide +kernel

theorem witness_LinkTraining :
    (wHead.blk.unitsOn = true ∧ wHead.blk.receives 4 = true ∧ wHead.blk.bit (Reg.HD_LINK_STAT 4) (8 + 2) = true ∧
      (⟨2, List.replicate 16 0⟩ : LaneHeaders).headers.length ≤ 64 ∧
      16 ≤ (List.filter (fun g => !validSync g) (⟨2, List.replicate 16 0⟩ : LaneHeaders).headers).length) ∧
    (wHeadE.blk.unitsOn = true ∧ wHeadE.blk.receives 4 = true ∧ wHeadE.blk.bit (Reg.HD_LINK_STAT 4) (8 + 2) = false ∧
      64 ≤ (⟨2, List.replicate 64 1⟩ : LaneHeaders).headers.length ∧
      (∀ (g : BitVec 2), g ∈ (⟨2, List.replicate 64 1⟩ : LaneHeaders).headers → validSync g = true)) ∧
    (wHead.blk.unitsOn = true ∧ wHead.blk.receives 4 = true ∧ wHead.blk.fld (Reg.HD_LINK_STAT 4) 11 8 = 15) ∧
    (Writes Requester.host wHeadB ∧ wHeadB.blk.bound 4 = false ∧ wHeadB.blk.linkUp 4 = false) ∧
    (Writes Requester.host wHead ∧ wHead.blk.bound 4 = false ∧ wHead.blk.linkUp 4 = true) ∧
    (Writes Requester.host wBound ∧ wBound.blk.bound 4 = true) ∧ wHeadOff.blk.receives 4 = false := by
  and_intros <;> decide +kernel

theorem witness_CharacterisationEnds :
    (wLoadGood.blk.unitsOn = true ∧ (wLoadGood.blk.port 4).load = some ({ load1 with hdr := some bsGood } : Load) ∧
      ({ load1 with hdr := some bsGood } : Load).hdr = some bsGood ∧
      ({ load1 with hdr := some bsGood } : Load).got = (parseHdr bsGood false).caratLen + (parseHdr bsGood
        false).tblLen ∧
      imageCrc bsGood (SMap.getList (fun _ => 0) ({ load1 with hdr := some bsGood } : Load).carat 0 (parseHdr bsGood
        false).caratLen) (SMap.getList (fun _ => 0) ({ load1 with hdr := some bsGood } : Load).table 0 (parseHdr bsGood
        false).tblLen) = (parseHdr bsGood false).crc) ∧
    (wLoad.blk.unitsOn = true ∧ (wLoad.blk.port 4).load = some load1 ∧ load1.hdr = some (List.replicate 64 0) ∧
      load1.got = (parseHdr (List.replicate 64 0) false).caratLen + (parseHdr (List.replicate 64 0) false).tblLen ∧
      imageCrc (List.replicate 64 0) (SMap.getList (fun _ => 0) load1.carat 0 (parseHdr (List.replicate 64 0)
        false).caratLen) (SMap.getList (fun _ => 0) load1.table 0 (parseHdr (List.replicate 64 0) false).tblLen) ≠
        (parseHdr (List.replicate 64 0) false).crc) ∧
    (wLoad.blk.unitsOn = true ∧ (wLoad.blk.port 4).load = some load1 ∧ load1.deadline ≤ wLoad.blk.now) := by
  and_intros <;> decide +kernel

theorem witness_LaneDelay :
    (wHead.blk.unitsOn = true ∧ wHead.blk.linkUp 4 = true ∧ (wHead.blk.port 4).measure = some 639999000 ∧
      (wHead.blk.port 4).hdr = some hdr1 ∧ wHead.blk.now + 5 - 639999000 < 65535) ∧ (wHeadB.blk.unitsOn = true ∧
      (wHeadB.blk.port 4).measure = some 639000000 ∧ 639000000 + 10 * tuUs ≤ wHeadB.blk.now) ∧
    (Writes Requester.host wHead ∧ wHead.blk.laneOn 4 = true) := by
  and_intros <;> decide +kernel

theorem witness_LinePacketTests :
    (sLinePacketTests1.blk.unitsOn = true ∧ sLinePacketTests1.blk.receives 4 = true ∧
      (arrival 4 (lineOf 4 1) sLinePacketTests1.blk).linkUp 4 = true ∧ (lineOf 4 1).starts = true ∧
      (lineOf 4 1).line ((arrival 4 (lineOf 4 1) sLinePacketTests1.blk).lineFmt 4) = some line1 ∧
      BitVec.toNat line1.head = 4 ∧ (arrival 4 (lineOf 4 1) sLinePacketTests1.blk).bound 4 = true ∧
      (arrival 4 (lineOf 4 1) sLinePacketTests1.blk).ready 4 = true ∧
      ((arrival 4 (lineOf 4 1) sLinePacketTests1.blk).hd 4).openFrame = some ({ frame0 with num := 6, id := 1 } :
        Frame) ∧
      line1.crcOk = true ∧ line1.fits ((arrival 4 (lineOf 4 1) sLinePacketTests1.blk).lineFmt 4) = true ∧
      ({ frame0 with num := 6, id := 1 } : Frame).num ≠ line1.frame ∧
      line1.line.toNat < (arrival 4 (lineOf 4 1) sLinePacketTests1.blk).rowsOf 4 ∧
      (arrival 4 (lineOf 4 1) sLinePacketTests1.blk).bit (Reg.HD_BIND 4) 30 = false ∧
      ({ frame0 with num := 6, id := 1 } : Frame).id < ((arrival 4 (lineOf 4 1) sLinePacketTests1.blk).hd 4).nextId) ∧
    (wBound.blk.unitsOn = true ∧ wBound.blk.receives 4 = true ∧ (arrival 4 (lineOf 4 1) wBound.blk).linkUp 4 = true ∧
      (lineOf 4 1).starts = true ∧ (lineOf 4 1).line ((arrival 4 (lineOf 4 1) wBound.blk).lineFmt 4) = some line1 ∧
      BitVec.toNat line1.head = 4 ∧ (arrival 4 (lineOf 4 1) wBound.blk).bound 4 = true ∧
      (arrival 4 (lineOf 4 1) wBound.blk).ready 4 = true ∧
      ((arrival 4 (lineOf 4 1) wBound.blk).hd 4).openFrame = some frame0 ∧ line1.crcOk = true ∧
      line1.fits ((arrival 4 (lineOf 4 1) wBound.blk).lineFmt 4) = true ∧ frame0.num = line1.frame ∧
      line1.line.toNat < (arrival 4 (lineOf 4 1) wBound.blk).rowsOf 4 ∧
      (∀ (y : Nat), y ∈ frame0.lastY → y < line1.line.toNat) ∧
      (∀ (x : StrikeRec),
        x ∈ ((arrival 4 (lineOf 4 1) wBound.blk).grp ((arrival 4 (lineOf 4 1) wBound.blk).portGroup 4)).recs → x.stamp
          ≠ line1.stamp)) ∧
    ((wBoundF (frameL 1)).blk.unitsOn = true ∧ (wBoundF (frameL 1)).blk.receives 4 = true ∧
      (arrival 4 (lineOf 4 1) (wBoundF (frameL 1)).blk).linkUp 4 = true ∧ (lineOf 4 1).starts = true ∧
      (lineOf 4 1).line ((arrival 4 (lineOf 4 1) (wBoundF (frameL 1)).blk).lineFmt 4) = some line1 ∧
      BitVec.toNat line1.head = 4 ∧ (arrival 4 (lineOf 4 1) (wBoundF (frameL 1)).blk).bound 4 = true ∧
      (arrival 4 (lineOf 4 1) (wBoundF (frameL 1)).blk).ready 4 = true ∧
      ((arrival 4 (lineOf 4 1) (wBoundF (frameL 1)).blk).hd 4).openFrame = some (frameL 1) ∧ line1.crcOk = true ∧
      line1.fits ((arrival 4 (lineOf 4 1) (wBoundF (frameL 1)).blk).lineFmt 4) = true ∧ (frameL 1).num = line1.frame ∧
      line1.line.toNat < (arrival 4 (lineOf 4 1) (wBoundF (frameL 1)).blk).rowsOf 4 ∧ (frameL 1).lastY = some 1 ∧
      line1.line.toNat ≤ 1) ∧ ((wBoundF (frameL 1)).blk.unitsOn = true ∧ (wBoundF (frameL 1)).blk.receives 4 = true ∧
      (arrival 4 lineFmtBad (wBoundF (frameL 1)).blk).linkUp 4 = true ∧ lineFmtBad.starts = true ∧
      lineFmtBad.line ((arrival 4 lineFmtBad (wBoundF (frameL 1)).blk).lineFmt 4) = some (lineOr lineFmtBad) ∧
      BitVec.toNat (lineOr lineFmtBad).head = 4 ∧ (arrival 4 lineFmtBad (wBoundF (frameL 1)).blk).bound 4 = true ∧
      (arrival 4 lineFmtBad (wBoundF (frameL 1)).blk).ready 4 = true ∧
      ((arrival 4 lineFmtBad (wBoundF (frameL 1)).blk).hd 4).openFrame = some (frameL 1) ∧
      ((lineOr lineFmtBad).crcOk = false ∨ (lineOr lineFmtBad).fits ((arrival 4 lineFmtBad (wBoundF (frameL
        1)).blk).lineFmt 4) = false) ∧
      2 = (match (frameL 1).lastY with   | some z => z + 1   | none => 0) ∧ (frameL 1).rows ≤ 2) ∧
    (wBound.blk.unitsOn = true ∧ wBound.blk.receives 4 = true ∧ (arrival 4 (lineOf 4 2) wBound.blk).linkUp 4 = true ∧
      (lineOf 4 2).starts = true ∧
      (lineOf 4 2).line ((arrival 4 (lineOf 4 2) wBound.blk).lineFmt 4) = some (lineOr (lineOf 4 2)) ∧
      BitVec.toNat (lineOr (lineOf 4 2)).head = 4 ∧ (arrival 4 (lineOf 4 2) wBound.blk).bound 4 = true ∧
      (arrival 4 (lineOf 4 2) wBound.blk).ready 4 = true ∧
      ((arrival 4 (lineOf 4 2) wBound.blk).hd 4).openFrame = some frame0 ∧ (lineOr (lineOf 4 2)).crcOk = true ∧
      (lineOr (lineOf 4 2)).fits ((arrival 4 (lineOf 4 2) wBound.blk).lineFmt 4) = true ∧
      frame0.num = (lineOr (lineOf 4 2)).frame ∧
      (arrival 4 (lineOf 4 2) wBound.blk).rowsOf 4 ≤ (lineOr (lineOf 4 2)).line.toNat) ∧ (wBound.blk.unitsOn = true ∧
      wBound.blk.receives 4 = true ∧ (arrival 4 lineFmtBad wBound.blk).linkUp 4 = true ∧ lineFmtBad.starts = true ∧
      lineFmtBad.line ((arrival 4 lineFmtBad wBound.blk).lineFmt 4) = some (lineOr lineFmtBad) ∧
      BitVec.toNat (lineOr lineFmtBad).head = 4 ∧ (arrival 4 lineFmtBad wBound.blk).bound 4 = true ∧
      (arrival 4 lineFmtBad wBound.blk).ready 4 = true ∧
      ((arrival 4 lineFmtBad wBound.blk).hd 4).openFrame = some frame0 ∧
      ((lineOr lineFmtBad).crcOk = false ∨ (lineOr lineFmtBad).fits ((arrival 4 lineFmtBad wBound.blk).lineFmt 4) =
        false) ∧
      0 = (match frame0.lastY with   | some z => z + 1   | none => 0) ∧ 0 < frame0.rows) ∧ (wHead.blk.unitsOn = true ∧
      wHead.blk.receives 4 = true ∧ (arrival 4 (lineOf 4 1) wHead.blk).linkUp 4 = true ∧ (lineOf 4 1).starts = true ∧
      (lineOf 4 1).line ((arrival 4 (lineOf 4 1) wHead.blk).lineFmt 4) = some line1 ∧ BitVec.toNat line1.head = 4 ∧
      ((arrival 4 (lineOf 4 1) wHead.blk).bound 4 = false ∨ (arrival 4 (lineOf 4 1) wHead.blk).ready 4 = false)) ∧
    (wHead.blk.unitsOn = true ∧ wHead.blk.receives 4 = true ∧ (arrival 4 (lineOf 5 1) wHead.blk).linkUp 4 = true ∧
      (lineOf 5 1).starts = true ∧
      (lineOf 5 1).line ((arrival 4 (lineOf 5 1) wHead.blk).lineFmt 4) = some (lineOr (lineOf 5 1)) ∧
      BitVec.toNat (lineOr (lineOf 5 1)).head ≠ 4) ∧ (wHeadOff.blk.unitsOn = true ∧
      wHeadOff.blk.receives 4 = false) := by
  and_intros <;> decide +kernel

theorem witness_FramesClose :
    (sFramesClose1.blk.unitsOn = true ∧ sFramesClose1.blk.receives 4 = true ∧
      (arrival 4 (trailerOf 4) sFramesClose1.blk).linkUp 4 = true ∧ (trailerOf 4).starts = true ∧
      (trailerOf 4).trailer = some trailer1 ∧ BitVec.toNat trailer1.head = 4 ∧
      (arrival 4 (trailerOf 4) sFramesClose1.blk).bound 4 = true ∧
      (arrival 4 (trailerOf 4) sFramesClose1.blk).ready 4 = true ∧ trailer1.crcOk = true ∧
      ((arrival 4 (trailerOf 4) sFramesClose1.blk).hd 4).openFrame = some ({ frame0 with num := 6, id := 1 } : Frame) ∧
      ({ frame0 with num := 6, id := 1 } : Frame).num ≠ trailer1.frame) ∧ (wBound.blk.unitsOn = true ∧
      wBound.blk.receives 4 = true ∧ (arrival 4 (Tests.spoil (trailerOf 4)) wBound.blk).linkUp 4 = true ∧
      (Tests.spoil (trailerOf 4)).starts = true ∧
      (Tests.spoil (trailerOf 4)).trailer = some ((Tests.spoil (trailerOf 4)).trailer.getD trailer1) ∧
      BitVec.toNat ((Tests.spoil (trailerOf 4)).trailer.getD trailer1).head = 4 ∧
      (arrival 4 (Tests.spoil (trailerOf 4)) wBound.blk).bound 4 = true ∧
      (arrival 4 (Tests.spoil (trailerOf 4)) wBound.blk).ready 4 = true ∧
      ((Tests.spoil (trailerOf 4)).trailer.getD trailer1).crcOk = false) ∧ (wBound.blk.unitsOn = true ∧
      wBound.blk.receives 4 = true ∧ (arrival 4 (trailerOf 4) wBound.blk).linkUp 4 = true ∧
      (trailerOf 4).starts = true ∧ (trailerOf 4).trailer = some trailer1 ∧ BitVec.toNat trailer1.head = 4 ∧
      (arrival 4 (trailerOf 4) wBound.blk).bound 4 = true ∧ (arrival 4 (trailerOf 4) wBound.blk).ready 4 = true ∧
      trailer1.crcOk = true ∧ ((arrival 4 (trailerOf 4) wBound.blk).hd 4).openFrame = some frame0 ∧
      frame0.num = trailer1.frame) ∧ (wBoundShut.blk.unitsOn = true ∧ wBoundShut.blk.receives 4 = true ∧
      (arrival 4 (trailerOf 4) wBoundShut.blk).linkUp 4 = true ∧ (trailerOf 4).starts = true ∧
      (trailerOf 4).trailer = some trailer1 ∧ BitVec.toNat trailer1.head = 4 ∧
      (arrival 4 (trailerOf 4) wBoundShut.blk).bound 4 = true ∧
      (arrival 4 (trailerOf 4) wBoundShut.blk).ready 4 = true ∧ trailer1.crcOk = true ∧
      (arrival 4 (trailerOf 4) wBoundShut.blk).frameOpen 4 = false) ∧ (wBound.blk.unitsOn = true ∧
      (wBound.blk.hd 4).openFrame = some frame0 ∧
      (wBound.blk.port 4).lastPkt + max 1 (wBound.blk.fld (Reg.HD_LINK_CTL 4) 31 24) * tuMs ≤ wBound.blk.now) := by
  and_intros <;> decide +kernel

theorem witness_Binding :
    (3 = fieldOf 3 4 0 ∧ 0 = fieldOf 3 11 6 ∧ 0 = fieldOf 3 21 12 ∧
      800000064 = sBinding2.blk.colsOf 4 * sBinding2.blk.rowsOf 4 * sBinding2.blk.num (Reg.HD_RATE 4) ∧
      (0 = (if sBinding2.blk.bandMode 4 = true then sBinding2.blk.colsOf 4 * sBinding2.blk.rowsOf 4 * 4 else 0)) ∧
      sBinding2.blk.bit (Reg.HD_LINK_STAT 4) 4 = true ∧ sBinding2.blk.bit (Reg.HD_BIND 4) 31 = false ∧
      sBinding2.blk.bit (Reg.PL_STAT 3) 8 = false ∧ (sBinding2.blk.pl 3).reserved = false ∧
      sBinding2.blk.bit (Reg.PL_STAT 3) 11 = false ∧ sBinding2.blk.bit (Reg.PL_STAT 3) 10 = false ∧
      (sBinding2.blk.pl 3).bistWait = false ∧ sBinding2.blk.geomOk 4 0 0 = true) ∧ (3 = fieldOf 3 4 0 ∧
      0 = fieldOf 3 11 6 ∧ 0 = fieldOf 3 21 12 ∧
      6400 = sBinding3.blk.colsOf 4 * sBinding3.blk.rowsOf 4 * sBinding3.blk.num (Reg.HD_RATE 4) ∧
      (0 = (if sBinding3.blk.bandMode 4 = true then sBinding3.blk.colsOf 4 * sBinding3.blk.rowsOf 4 * 4 else 0)) ∧
      sBinding3.blk.bit (Reg.HD_LINK_STAT 4) 4 = true ∧ sBinding3.blk.bit (Reg.HD_BIND 4) 31 = false ∧
      sBinding3.blk.bit (Reg.PL_STAT 3) 8 = false ∧ (sBinding3.blk.pl 3).reserved = false ∧
      (sBinding3.blk.bit (Reg.PL_STAT 3) 11 = true ∨ sBinding3.blk.bit (Reg.PL_STAT 3) 10 = true ∨ (sBinding3.blk.pl
        3).bistWait = true)) ∧
    (3 = fieldOf 3 4 0 ∧ 0 = fieldOf 3 11 6 ∧ 0 = fieldOf 3 21 12 ∧
      6400 = (wAdmit [] 12000000000 0).blk.colsOf 4 * (wAdmit [] 12000000000 0).blk.rowsOf 4 * (wAdmit [] 12000000000
        0).blk.num (Reg.HD_RATE 4) ∧
      (0 = (if (wAdmit [] 12000000000 0).blk.bandMode 4 = true then (wAdmit [] 12000000000 0).blk.colsOf 4 * (wAdmit []
        12000000000 0).blk.rowsOf 4 * 4 else 0)) ∧
      (wAdmit [] 12000000000 0).blk.bit (Reg.HD_LINK_STAT 4) 4 = true ∧
      (wAdmit [] 12000000000 0).blk.bit (Reg.HD_BIND 4) 31 = false ∧
      (wAdmit [] 12000000000 0).blk.bit (Reg.PL_STAT 3) 8 = false ∧
      ((wAdmit [] 12000000000 0).blk.pl 3).reserved = false ∧
      (wAdmit [] 12000000000 0).blk.bit (Reg.PL_STAT 3) 11 = false ∧
      (wAdmit [] 12000000000 0).blk.bit (Reg.PL_STAT 3) 10 = false ∧
      ((wAdmit [] 12000000000 0).blk.pl 3).bistWait = false ∧ (wAdmit [] 12000000000 0).blk.geomOk 4 0 0 = true ∧
      12000000000 < 6400 + (List.map (fun e => e.snd.rate) (wAdmit [] 12000000000 0).blk.heads).sum) ∧
    (3 = fieldOf 3 4 0 ∧ 0 = fieldOf 3 11 6 ∧ 0 = fieldOf 3 21 12 ∧
      6400 = sBinding4.blk.colsOf 4 * sBinding4.blk.rowsOf 4 * sBinding4.blk.num (Reg.HD_RATE 4) ∧
      (0 = (if sBinding4.blk.bandMode 4 = true then sBinding4.blk.colsOf 4 * sBinding4.blk.rowsOf 4 * 4 else 0)) ∧
      sBinding4.blk.bit (Reg.HD_LINK_STAT 4) 4 = true ∧ sBinding4.blk.bit (Reg.HD_BIND 4) 31 = false ∧
      (sBinding4.blk.bit (Reg.PL_STAT 3) 8 = true ∨ (sBinding4.blk.pl 3).reserved = true)) ∧ (3 = fieldOf 3 4 0 ∧
      0 = fieldOf 3 11 6 ∧ 0 = fieldOf 3 21 12 ∧
      6400 = sBinding1.blk.colsOf 4 * sBinding1.blk.rowsOf 4 * sBinding1.blk.num (Reg.HD_RATE 4) ∧
      (0 = (if sBinding1.blk.bandMode 4 = true then sBinding1.blk.colsOf 4 * sBinding1.blk.rowsOf 4 * 4 else 0)) ∧
      sBinding1.blk.bit (Reg.HD_LINK_STAT 4) 4 = false) ∧ (3 = fieldOf 3 4 0 ∧ 0 = fieldOf 3 11 6 ∧
      0 = fieldOf 3 21 12 ∧ 6400 = wHead.blk.colsOf 4 * wHead.blk.rowsOf 4 * wHead.blk.num (Reg.HD_RATE 4) ∧
      (0 = (if wHead.blk.bandMode 4 = true then wHead.blk.colsOf 4 * wHead.blk.rowsOf 4 * 4 else 0)) ∧
      wHead.blk.bit (Reg.HD_LINK_STAT 4) 4 = true ∧ wHead.blk.bit (Reg.HD_BIND 4) 31 = false ∧
      wHead.blk.bit (Reg.PL_STAT 3) 8 = false ∧ (wHead.blk.pl 3).reserved = false ∧
      wHead.blk.bit (Reg.PL_STAT 3) 11 = false ∧ wHead.blk.bit (Reg.PL_STAT 3) 10 = false ∧
      (wHead.blk.pl 3).bistWait = false ∧ wHead.blk.geomOk 4 0 0 = true ∧
      6400 + (List.map (fun e => e.snd.rate) wHead.blk.heads).sum ≤ 12000000000) ∧ (3 = fieldOf 131 4 0 ∧
      2 = fieldOf 131 11 6 ∧ 0 = fieldOf 131 21 12 ∧
      6400 = wHead.blk.colsOf 4 * wHead.blk.rowsOf 4 * wHead.blk.num (Reg.HD_RATE 4) ∧
      (0 = (if wHead.blk.bandMode 4 = true then wHead.blk.colsOf 4 * wHead.blk.rowsOf 4 * 4 else 0)) ∧
      wHead.blk.bit (Reg.HD_LINK_STAT 4) 4 = true ∧ wHead.blk.bit (Reg.HD_BIND 4) 31 = false ∧
      wHead.blk.bit (Reg.PL_STAT 3) 8 = false ∧ (wHead.blk.pl 3).reserved = false ∧
      wHead.blk.bit (Reg.PL_STAT 3) 11 = false ∧ wHead.blk.bit (Reg.PL_STAT 3) 10 = false ∧
      (wHead.blk.pl 3).bistWait = false ∧ wHead.blk.geomOk 4 2 0 = false) ∧ (3 = fieldOf 3 4 0 ∧ 0 = fieldOf 3 11 6 ∧
      0 = fieldOf 3 21 12 ∧ 6400 = wBound.blk.colsOf 4 * wBound.blk.rowsOf 4 * wBound.blk.num (Reg.HD_RATE 4) ∧
      (0 = (if wBound.blk.bandMode 4 = true then wBound.blk.colsOf 4 * wBound.blk.rowsOf 4 * 4 else 0)) ∧
      Writes Requester.host wBound ∧ wBound.blk.bound 4 = true ∧ wBound.blk.bit (Reg.HD_BIND 4) 30 = false) ∧
    (3 = fieldOf 3 4 0 ∧ 0 = fieldOf 3 11 6 ∧ 0 = fieldOf 3 21 12 ∧
      6400 = wBound.blk.colsOf 4 * wBound.blk.rowsOf 4 * wBound.blk.num (Reg.HD_RATE 4) ∧
      (0 = (if wBound.blk.bandMode 4 = true then wBound.blk.colsOf 4 * wBound.blk.rowsOf 4 * 4 else 0)) ∧
      wBound.blk.bit (Reg.HD_LINK_STAT 4) 4 = true ∧ wBound.blk.bit (Reg.HD_BIND 4) 31 = true) ∧
    (3 = fieldOf 131 4 0 ∧ 2 = fieldOf 131 11 6 ∧ 0 = fieldOf 131 21 12 ∧
      6400 = wHead.blk.colsOf 4 * wHead.blk.rowsOf 4 * wHead.blk.num (Reg.HD_RATE 4) ∧
      (0 = (if wHead.blk.bandMode 4 = true then wHead.blk.colsOf 4 * wHead.blk.rowsOf 4 * 4 else 0)) ∧
      Writes Requester.host wHead ∧ admission 4 3 2 0 wHead.blk ≠ 0) ∧ (3 = fieldOf 3 4 0 ∧ 0 = fieldOf 3 11 6 ∧
      0 = fieldOf 3 21 12 ∧ 6400 = wHead.blk.colsOf 4 * wHead.blk.rowsOf 4 * wHead.blk.num (Reg.HD_RATE 4) ∧
      (0 = (if wHead.blk.bandMode 4 = true then wHead.blk.colsOf 4 * wHead.blk.rowsOf 4 * 4 else 0)) ∧
      Writes Requester.host wHead ∧ admission 4 3 0 0 wHead.blk = 0) := by
  and_intros <;> decide +kernel

theorem witness_CoefficientBanks :
    (wBank.blk.unitsOn = true ∧ wBank.blk.digestRuns 4 = true ∧ (wBank.blk.hd 4).dig = some dig1 ∧
      dig1.dirty = false ∧ dig1.restore = false ∧ wBank.blk.calState 4 ≠ 6 ∧ (wBank.blk.hd 4).digOwed = false) ∧
    (Writes Requester.host wHead ∧ wHead.blk.bit (Reg.HD_BANK 4) 3 = false ∧
      (wHead.blk.bound 4 = false ∨ wHead.blk.frameOpen 4 = false)) ∧ (Writes Requester.host wBound ∧
      wBound.blk.bit (Reg.HD_BANK 4) 3 = false ∧ wBound.blk.bound 4 = true ∧ wBound.blk.frameOpen 4 = true) ∧
    (Writes Requester.host wHeadD ∧ wHeadD.blk.bit (Reg.HD_BANK 4) 4 = false ∧ (wHeadD.blk.port 4).loaded = true) ∧
    (Writes Requester.host wBank ∧ wBank.blk.bit (Reg.HD_BANK 4) 3 = true) := by
  and_intros <;> decide +kernel

theorem witness_RotationAndBist :
    (Writes Requester.host (wMoves 11) ∧ (wMoves 11).blk.bit (Reg.PL_STAT 3) 10 = false ∧
      ((wMoves 11).blk.pl 3).bistWait = false ∧ (wMoves 11).blk.bit (Reg.PL_STAT 3) 12 = false ∧
      (wMoves 11).blk.bit (Reg.PL_STAT 3) 11 = false ∧ (wMoves 11).blk.bit (Reg.PL_STAT 3) 8 = true ∧
      (wMoves 11).blk.headOf 3 = some 4 ∧ (wMoves 11).blk.frameOpen 4 = true ∧
      (wMoves 11).blk.bit (Reg.HD_BIND ((wMoves 11).blk.fld (Reg.PL_STAT 3) 4 0)) 30 = false ∧
      (wMoves 11).blk.laterMoves 3 = [7] ∧ ((wMoves 11).blk.pl 7).moveTo = 9 ∧
      (wMoves 11).blk.bit (Reg.PL_STAT 9) 8 = false ∧ (wMoves 11).blk.bit (Reg.PL_STAT 9) 10 = false ∧
      (wMoves 11).blk.bit (Reg.PL_STAT 9) 11 = false ∧ ((wMoves 11).blk.pl 9).bistWait = false ∧
      (wMoves 11).blk.bit (Reg.PL_STAT 3) 9 = false ∧ (wMoves 11).blk.lowestSpare = some 11) ∧
    (Writes Requester.host wBound ∧ wBound.blk.bit (Reg.PL_STAT 3) 10 = false ∧ (wBound.blk.pl 3).bistWait = false ∧
      wBound.blk.bit (Reg.PL_STAT 3) 12 = false ∧ wBound.blk.bit (Reg.PL_STAT 3) 11 = false ∧
      wBound.blk.bit (Reg.PL_STAT 3) 8 = true ∧ wBound.blk.headOf 3 = some 4 ∧ wBound.blk.frameOpen 4 = true ∧
      wBound.blk.bit (Reg.HD_BIND (wBound.blk.fld (Reg.PL_STAT 3) 4 0)) 30 = false ∧ wBound.blk.laterMoves 3 = []) ∧
    (Writes Requester.host wBistB ∧
      (wBistB.blk.bit (Reg.PL_STAT 5) 10 = true ∨ (wBistB.blk.pl 5).bistWait = true ∨ wBistB.blk.bit (Reg.PL_STAT 5) 12
        = true) ∧
      (wBistB.blk.bit (Reg.PL_STAT 5) 12 = true → Option.all wBistB.blk.frameOpen (wBistB.blk.headOf 5) = true)) ∧
    (Writes Requester.host wBist ∧ wBist.blk.bit (Reg.PL_STAT 5) 10 = false ∧ (wBist.blk.pl 5).bistWait = false ∧
      wBist.blk.bit (Reg.PL_STAT 5) 12 = false ∧
      (wBist.blk.bit (Reg.PL_STAT 5) 11 = true ∨ wBist.blk.bit (Reg.PL_STAT 5) 8 = false)) ∧
    (Writes Requester.host wBistC ∧ wBistC.blk.bit (Reg.PL_STAT 5) 12 = true) ∧ (wBistB.blk.unitsOn = true ∧
      wBistB.blk.bit (Reg.PL_STAT 5) 10 = true) ∧ (wBistC.blk.unitsOn = true ∧ wBistC.blk.mayBist 5 = true) := by
  and_intros <;> decide +kernel

theorem witness_LinesAndSeals :
    (wLineBand.blk.unitsOn = true ∧ ((frameSlotFreed 4 wLineBand.blk).hd 4).nextLine = some (fB, raw1) ∧
      fB.snap = some snap1 ∧
      (frameSlotFreed 4 wLineBand.blk).lostReads 4 fB raw1.y [{ pixel := { line := 0, col := 1 } },
        { pixel := { line := 0, col := 0 }, prefetch := true }] ≠ []) ∧
    (wLine.blk.unitsOn = true ∧ ((frameSlotFreed 4 wLine.blk).hd 4).nextLine = some (fA, raw1) ∧
      fA.snap = some snap1 ∧
      ((frameSlotFreed 4 wLine.blk).lostBuffers 4 fA raw1.y [{ line := 0, col := 0 }] ≠ [] ∨ fA.lostPrefetch raw1.y []
        ≠ [])) ∧
    (wRestrike.blk.unitsOn = true ∧ (wRestrike.blk.hd 4).restriking = some ({frame1 with st := .restriking} : Frame) ∧
      ({frame1 with st := .restriking} : Frame).snap = some snap1 ∧ wRestrike.blk.regPipe 4 < 26) ∧
    (wQueued.blk.unitsOn = true ∧ (wQueued.blk.hd 4).restriking = none ∧
      List.find? (fun f => f.st == FState.queued) (wQueued.blk.hd 4).frames = some ({frame1 with st := .queued} :
        Frame)) ∧
    (wLineBand.blk.unitsOn = true ∧ ((frameSlotFreed 4 wLineBand.blk).hd 4).nextLine = some (fB, raw1) ∧
      fB.snap = some snap1 ∧ fB.band = true) ∧ (wLine.blk.unitsOn = true ∧
      ((frameSlotFreed 4 wLine.blk).hd 4).nextLine = some (fA, raw1) ∧ fA.snap = some snap1 ∧ fA.decided = false) ∧
    (wLine.blk.unitsOn = true ∧ ((frameSlotFreed 4 wLine.blk).hd 4).nextLine = some (fA, raw1) ∧
      fA.snap = some snap1 ∧ fA.band = false) ∧ (wDecide.blk.unitsOn = true ∧
      wDecide.blk.decisionDue 4 = some frame1 ∧ frame1.meas = some read1 ∧ wDecide.blk.regPipe 4 < 26) ∧
    (Writes Requester.host wLine ∧ wLine.blk.headOf 3 = some 4) ∧ (Writes Requester.host wUp ∧
      wUp.blk.headOf 3 = none) := by
  and_intros <;> decide +kernel

theorem witness_DefectTable :
    (Writes Requester.host wDefBusy ∧ wDefBusy.blk.defQueue.length < 64 ∧
      defBadKey 0 (wDefBusy.blk.rd Reg.DEF_KEY) wDefBusy.blk = false ∧
      (wDefBusy.blk.bound (defHead (wDefBusy.blk.rd Reg.DEF_KEY)) = true ∨ wDefBusy.blk.defEdit.isSome = true)) ∧
    (Writes Requester.host wDefBusy ∧ wDefBusy.blk.defQueue.length < 64 ∧
      defBadKey 1 (wDefBusy.blk.rd Reg.DEF_KEY) wDefBusy.blk = false ∧
      (wDefBusy.blk.bound (defHead (wDefBusy.blk.rd Reg.DEF_KEY)) = true ∨ wDefBusy.blk.defEdit.isSome = true)) ∧
    (Writes Requester.host wDefBusy ∧ wDefBusy.blk.defQueue.length < 64 ∧
      defBadKey 2 (wDefBusy.blk.rd Reg.DEF_KEY) wDefBusy.blk = false ∧
      (wDefBusy.blk.bound (defHead (wDefBusy.blk.rd Reg.DEF_KEY)) = true ∨ wDefBusy.blk.defEdit.isSome = true)) ∧
    (Writes Requester.host wDef ∧ wDef.blk.defQueue.length < 64 ∧
      defBadKey 0 (wDef.blk.rd Reg.DEF_KEY) wDef.blk = false ∧
      wDef.blk.bound (defHead (wDef.blk.rd Reg.DEF_KEY)) = false ∧ wDef.blk.defEdit = none) ∧
    (Writes Requester.host wDef ∧ wDef.blk.defQueue.length < 64 ∧
      defBadKey 1 (wDef.blk.rd Reg.DEF_KEY) wDef.blk = false ∧
      wDef.blk.bound (defHead (wDef.blk.rd Reg.DEF_KEY)) = false ∧ wDef.blk.defEdit = none) ∧
    (Writes Requester.host wDef ∧ wDef.blk.defQueue.length < 64 ∧
      defBadKey 2 (wDef.blk.rd Reg.DEF_KEY) wDef.blk = false ∧
      wDef.blk.bound (defHead (wDef.blk.rd Reg.DEF_KEY)) = false ∧ wDef.blk.defEdit = none) ∧
    (wDef.blk.reaches Requester.svc = true ∧ wDef.blk.bud.down = false ∧
      ((wDef.blk) = if wDef.blk.freshWord Reg.DEF_DATA = true ∨ wDef.blk.stage_ ≠ wDef.prev.stage_ then wDef.blk else
        wDef.prev)) ∧
    (Writes Requester.host wDefBad ∧ wDefBad.blk.defQueue.length < 64 ∧
      defBadKey 0 (wDefBad.blk.rd Reg.DEF_KEY) wDefBad.blk = true) ∧ (Writes Requester.host wDefBad ∧
      wDefBad.blk.defQueue.length < 64 ∧ defBadKey 1 (wDefBad.blk.rd Reg.DEF_KEY) wDefBad.blk = true) ∧
    (Writes Requester.host wDefBad ∧ wDefBad.blk.defQueue.length < 64 ∧
      defBadKey 2 (wDefBad.blk.rd Reg.DEF_KEY) wDefBad.blk = true) ∧ ((wEdit 0).blk.unitsOn = true ∧
      (wEdit 0).blk.defEdit = some (0, 419432450, false) ∧ defKey 134217729 ≠ defKey 419432450) ∧
    ((wEdit 1).blk.unitsOn = true ∧ (wEdit 1).blk.defEdit = some (1, 419432450, false)) ∧
    ((wEdit 2).blk.unitsOn = true ∧ (wEdit 2).blk.defEdit = some (2, 419432450, false)) := by
  and_intros <;> decide +kernel

theorem witness_CurvesAndTables :
    (wCurve.blk.reaches Requester.svc = true ∧ wCurve.blk.bud.down = false ∧
      ((wCurve.blk) = if wCurve.blk.freshWord (Reg.PL_TBL_DATA 3) = true ∨ wCurve.blk.stage_ ≠ wCurve.prev.stage_ then
        wCurve.blk else wCurve.prev)) ∧
    (Writes Requester.svc (wTbl 0x1BFF) ∧ Prevails Requester.svc (Reg.PL_TBL_DATA 3) (wTbl 0x1BFF) ∧
      6144 ≤ (wTbl 0x1BFF).blk.fld (Reg.PL_TBL_IDX 3) 12 0 ∧ (wTbl 0x1BFF).blk.fld (Reg.PL_TBL_IDX 3) 12 0 < 7168) ∧
    (Writes Requester.svc (wTbl 0x1C00) ∧ Prevails Requester.svc (Reg.PL_TBL_DATA 3) (wTbl 0x1C00) ∧
      7168 ≤ (wTbl 0x1C00).blk.fld (Reg.PL_TBL_IDX 3) 12 0 ∧ (wTbl 0x1C00).blk.fld (Reg.PL_TBL_IDX 3) 12 0 < 7424) ∧
    (Writes Requester.svc wCurveFree ∧ Prevails Requester.svc (Reg.PL_TBL_DATA 3) wCurveFree ∧
      5376 ≤ wCurveFree.blk.fld (Reg.PL_TBL_IDX 3) 12 0 ∧ wCurveFree.blk.fld (Reg.PL_TBL_IDX 3) 12 0 < 5632) ∧
    (Writes Requester.svc wCurve ∧ Prevails Requester.svc (Reg.PL_TBL_DATA 3) wCurve ∧
      5120 ≤ wCurve.blk.fld (Reg.PL_TBL_IDX 3) 12 0 ∧ wCurve.blk.fld (Reg.PL_TBL_IDX 3) 12 0 < 5376) ∧
    (Writes Requester.host wCurve ∧ (wCurve.blk.headOf 3 = none ∨ ∃ k, wCurve.blk.headOf 3 = some k ∧
      (wCurve.blk.hd k).curveBusy = true)) ∧ (Writes Requester.host wCurveFree ∧ wCurveFree.blk.headOf 3 = some 4 ∧
      wCurveFree.blk.curPipe 4 = 3 ∧ wCurveFree.blk.frameOpen 4 = false) ∧ (Writes Requester.svc wCurve ∧
      Prevails Requester.svc (Reg.PL_TBL_DATA 5) wCurve ∧ wCurve.blk.fld (Reg.PL_TBL_IDX 5) 12 0 < 5120) ∧
    (wCurveFree.blk.unitsOn = true ∧ (wCurveFree.blk.hd 4).curveBusy = true ∧ wCurveFree.blk.frameOpen 4 = false) ∧
    (wCurve.blk.unitsOn = true ∧ (wCurve.blk.hd 4).curveBusy = true ∧ wCurve.blk.frameOpen 4 = true) ∧
    (Writes Requester.host wCurve ∧ wCurve.blk.headOf 3 = some 4 ∧ wCurve.blk.frameOpen 4 = true) ∧
    (Writes Requester.host wCurve ∧ wCurve.blk.headOf 5 = none) := by
  and_intros <;> decide +kernel

theorem witness_MergeRuns :
    (wMergeStandby.blk.unitsOn = true ∧ (wMergeStandby.blk.hd 4).mg = some run1 ∧ run1.pairs = [(0, 1), (1, 2)] ∧
      wMergeStandby.blk.cBulk = true ∧
      (∀ (f : Frame),
        f ∈ (wMergeStandby.blk.hd 4).frames → f.merge = some 0 ∨ f.merge = some 1 → f.st = FState.sealed) ∧
      (run1.closing = false ∨ [(1, 2)] ≠ [])) ∧ (wMergeStandby.blk.unitsOn = true ∧
      (wMergeStandby.blk.hd 4).mg = some run1 ∧ run1.pairs = [(0, 1), (1, 2)] ∧ wMergeStandby.blk.cBulk = true ∧
      (∀ (f : Frame),
        f ∈ (wMergeStandby.blk.hd 4).frames → f.merge = some 0 ∨ f.merge = some 1 → f.st = FState.sealed) ∧
      wMergeStandby.blk.bad = []) ∧ (Writes Requester.host wMergeCal ∧ wMergeCal.blk.headOf 3 = some 4 ∧
      (wMergeCal.blk.hd 4).mg = none ∧ wMergeCal.blk.tfBad 4 = false ∧ (2 ≤ wMergeCal.blk.calState 4 ∧
      wMergeCal.blk.calState 4 ≤ 8)) ∧ ((wMergeRun false).blk.unitsOn = true ∧
      ((wMergeRun false).blk.hd 4).mg = some run1 ∧ run1.begun = false ∧ (wMergeRun false).blk.mayMerge 4 = true ∧
      (wMergeRun false).blk.standby = false) ∧ (Writes Requester.host wMerge ∧ wMerge.blk.headOf 3 = some 4 ∧
      (wMerge.blk.hd 4).mg = none ∧ wMerge.blk.tfBad 4 = false ∧ (¬(2 ≤ wMerge.blk.calState 4 ∧
      wMerge.blk.calState 4 ≤ 8))) ∧ (Writes Requester.host (wMergeRun false) ∧
      (wMergeRun false).blk.headOf 3 = some 4 ∧ (wMergeRun false).blk.curPipe 4 = 3 ∧
      ((wMergeRun false).blk.hd 4).mg = some run1) ∧ (wMergeStandby.blk.unitsOn = true ∧
      (wMergeStandby.blk.hd 4).mg = some run1 ∧ run1.begun = false ∧ wMergeStandby.blk.mayMerge 4 = true ∧
      wMergeStandby.blk.standby = true) ∧ (Writes Requester.host wMergeBad ∧ wMergeBad.blk.headOf 3 = some 4 ∧
      (wMergeBad.blk.hd 4).mg = none ∧ wMergeBad.blk.tfBad 4 = true) ∧ (Writes Requester.host wMerge ∧
      wMerge.blk.headOf 5 = none) := by
  and_intros <;> decide +kernel

theorem witness_BandsStripsVerdicts :
    (sBandsStripsVerdicts1.blk.unitsOn = true ∧
      sBandsStripsVerdicts1.blk.vrd.jobs = [({ jobA with sealed := true } : VJob), job1] ∧
      sBandsStripsVerdicts1.blk.bit Reg.VRD_CTL 0 = true ∧
      (({ jobA with sealed := true } : VJob).shuttered = false ∨ ({ jobA with sealed := true } : VJob).ln.head = 31) ∧
      sBandsStripsVerdicts1.blk.zoneHas 0 ({ jobA with sealed := true } : VJob).ln.pos = true ∧
      sBandsStripsVerdicts1.blk.ruleSet 0 0 ({ jobA with sealed := true } : VJob).x0 ({ jobA with sealed := true } :
        VJob).pix.length = some (ruleA 4096) ∧
      (∀ (z' : Nat), z' < 256 → ∀ (k' : Nat),
        k' < 4 → sBandsStripsVerdicts1.blk.zoneHas z' ({ jobA with sealed := true } : VJob).ln.pos = true → z' = 0 ∧
      k' = 0 ∨ Option.all (fun rs' => (rs'.compare ({ jobA with sealed := true } : VJob).x0
        ({ jobA with sealed := true } : VJob).pix).isEmpty) (sBandsStripsVerdicts1.blk.ruleSet z' k'
        ({ jobA with sealed := true } : VJob).x0 ({ jobA with sealed := true } : VJob).pix.length) = true) ∧
      (ruleA 4096).compare ({ jobA with sealed := true } : VJob).x0 ({ jobA with sealed := true } : VJob).pix ≠ [] ∧
      ({ jobA with sealed := true } : VJob).lapsed = false ∧ ({ jobA with sealed := true } : VJob).sealed = true ∧
      (ruleA 4096).final ((ruleA 4096).compare ({ jobA with sealed := true } : VJob).x0 ({ jobA with sealed := true } :
        VJob).pix) = none) ∧
    (sBandsStripsVerdicts3.blk.unitsOn = true ∧
      sBandsStripsVerdicts3.blk.vrd.jobs = [({ jobA with sealed := true } : VJob), job1] ∧
      sBandsStripsVerdicts3.blk.bit Reg.VRD_CTL 0 = true ∧
      (({ jobA with sealed := true } : VJob).shuttered = false ∨ ({ jobA with sealed := true } : VJob).ln.head = 31) ∧
      sBandsStripsVerdicts3.blk.zoneHas 0 ({ jobA with sealed := true } : VJob).ln.pos = true ∧
      sBandsStripsVerdicts3.blk.ruleSet 0 0 ({ jobA with sealed := true } : VJob).x0 ({ jobA with sealed := true } :
        VJob).pix.length = some (ruleA 5) ∧
      (∀ (z' : Nat), z' < 256 → ∀ (k' : Nat),
        k' < 4 → sBandsStripsVerdicts3.blk.zoneHas z' ({ jobA with sealed := true } : VJob).ln.pos = true → z' = 0 ∧
      k' = 0 ∨ Option.all (fun rs' => (rs'.compare ({ jobA with sealed := true } : VJob).x0
        ({ jobA with sealed := true } : VJob).pix).isEmpty) (sBandsStripsVerdicts3.blk.ruleSet z' k'
        ({ jobA with sealed := true } : VJob).x0 ({ jobA with sealed := true } : VJob).pix.length) = true) ∧
      (ruleA 5).compare ({ jobA with sealed := true } : VJob).x0 ({ jobA with sealed := true } : VJob).pix ≠ [] ∧
      ({ jobA with sealed := true } : VJob).lapsed = false ∧ ({ jobA with sealed := true } : VJob).sealed = true ∧
      ((ruleA 5).final ((ruleA 5).compare ({ jobA with sealed := true } : VJob).x0 ({ jobA with sealed := true } :
        VJob).pix)).isSome = true) ∧
    (sBandsStripsVerdicts4.blk.unitsOn = true ∧
      sBandsStripsVerdicts4.blk.vrd.jobs = [({ jobA with lapsed := true } : VJob), job1] ∧
      sBandsStripsVerdicts4.blk.bit Reg.VRD_CTL 0 = true ∧
      (({ jobA with lapsed := true } : VJob).shuttered = false ∨ ({ jobA with lapsed := true } : VJob).ln.head = 31) ∧
      sBandsStripsVerdicts4.blk.zoneHas 0 ({ jobA with lapsed := true } : VJob).ln.pos = true ∧
      sBandsStripsVerdicts4.blk.ruleSet 0 0 ({ jobA with lapsed := true } : VJob).x0 ({ jobA with lapsed := true } :
        VJob).pix.length = some (ruleA 5) ∧
      (∀ (z' : Nat), z' < 256 → ∀ (k' : Nat),
        k' < 4 → sBandsStripsVerdicts4.blk.zoneHas z' ({ jobA with lapsed := true } : VJob).ln.pos = true → z' = 0 ∧
      k' = 0 ∨ Option.all (fun rs' => (rs'.compare ({ jobA with lapsed := true } : VJob).x0
        ({ jobA with lapsed := true } : VJob).pix).isEmpty) (sBandsStripsVerdicts4.blk.ruleSet z' k'
        ({ jobA with lapsed := true } : VJob).x0 ({ jobA with lapsed := true } : VJob).pix.length) = true) ∧
      (ruleA 5).compare ({ jobA with lapsed := true } : VJob).x0 ({ jobA with lapsed := true } : VJob).pix ≠ [] ∧
      ({ jobA with lapsed := true } : VJob).lapsed = true) ∧ (sBandsStripsVerdicts2.blk.unitsOn = true ∧
      sBandsStripsVerdicts2.blk.vrd.jobs = [jobA, job1] ∧ sBandsStripsVerdicts2.blk.bit Reg.VRD_CTL 0 = true ∧
      (jobA.shuttered = false ∨ jobA.ln.head = 31) ∧ sBandsStripsVerdicts2.blk.zoneHas 0 jobA.ln.pos = true ∧
      sBandsStripsVerdicts2.blk.ruleSet 0 0 jobA.x0 jobA.pix.length = some (ruleA 2304) ∧
      (∀ (z' : Nat), z' < 256 → ∀ (k' : Nat),
        k' < 4 → sBandsStripsVerdicts2.blk.zoneHas z' jobA.ln.pos = true → z' = 0 ∧
      k' = 0 ∨ Option.all (fun rs' => (rs'.compare jobA.x0 jobA.pix).isEmpty) (sBandsStripsVerdicts2.blk.ruleSet z' k'
        jobA.x0 jobA.pix.length) = true) ∧
      (ruleA 2304).compare jobA.x0 jobA.pix ≠ [] ∧ jobA.lapsed = false ∧ jobA.sealed = false ∧
      decideOf ((ruleA 2304).mets (if jobA.hold = true then JMode.hold else JMode.scruple) ((ruleA 2304).compare
        jobA.x0 jobA.pix)) = none ∧
      (ruleA 2304).pends (if jobA.hold = true then JMode.hold else JMode.scruple) ((ruleA 2304).compare jobA.x0
        jobA.pix) = true ∧
      4096 ≤ sBandsStripsVerdicts2.blk.pendCount) ∧ ((wRule 0x900 jobA [pendA]).blk.unitsOn = true ∧
      (wRule 0x900 jobA [pendA]).blk.vrd.jobs = [jobA, job1] ∧
      (wRule 0x900 jobA [pendA]).blk.bit Reg.VRD_CTL 0 = true ∧ (jobA.shuttered = false ∨ jobA.ln.head = 31) ∧
      (wRule 0x900 jobA [pendA]).blk.zoneHas 0 jobA.ln.pos = true ∧
      (wRule 0x900 jobA [pendA]).blk.ruleSet 0 0 jobA.x0 jobA.pix.length = some (ruleA 2304) ∧
      (∀ (z' : Nat), z' < 256 → ∀ (k' : Nat),
        k' < 4 → (wRule 0x900 jobA [pendA]).blk.zoneHas z' jobA.ln.pos = true → z' = 0 ∧
      k' = 0 ∨ Option.all (fun rs' => (rs'.compare jobA.x0 jobA.pix).isEmpty) ((wRule 0x900 jobA [pendA]).blk.ruleSet
        z' k' jobA.x0 jobA.pix.length) = true) ∧
      (ruleA 2304).compare jobA.x0 jobA.pix ≠ [] ∧ jobA.lapsed = false ∧ jobA.sealed = false ∧
      decideOf ((ruleA 2304).mets (if jobA.hold = true then JMode.hold else JMode.scruple) ((ruleA 2304).compare
        jobA.x0 jobA.pix)) = none ∧
      ((ruleA 2304).pends (if jobA.hold = true then JMode.hold else JMode.scruple) ((ruleA 2304).compare jobA.x0
        jobA.pix) = true → (wRule 0x900 jobA [pendA]).blk.pendCount < 4096)) ∧
    ((wRule 5 jobA [pendA]).blk.unitsOn = true ∧ (wRule 5 jobA [pendA]).blk.vrd.jobs = [jobA, job1] ∧
      (wRule 5 jobA [pendA]).blk.bit Reg.VRD_CTL 0 = true ∧ (jobA.shuttered = false ∨ jobA.ln.head = 31) ∧
      (wRule 5 jobA [pendA]).blk.zoneHas 0 jobA.ln.pos = true ∧
      (wRule 5 jobA [pendA]).blk.ruleSet 0 0 jobA.x0 jobA.pix.length = some (ruleA 5) ∧
      (∀ (z' : Nat), z' < 256 → ∀ (k' : Nat),
        k' < 4 → (wRule 5 jobA [pendA]).blk.zoneHas z' jobA.ln.pos = true → z' = 0 ∧
      k' = 0 ∨ Option.all (fun rs' => (rs'.compare jobA.x0 jobA.pix).isEmpty) ((wRule 5 jobA [pendA]).blk.ruleSet z' k'
        jobA.x0 jobA.pix.length) = true) ∧
      (ruleA 5).compare jobA.x0 jobA.pix ≠ [] ∧ jobA.lapsed = false ∧ jobA.sealed = false ∧
      decideOf ((ruleA 5).mets (if jobA.hold = true then JMode.hold else JMode.scruple) ((ruleA 5).compare jobA.x0
        jobA.pix)) = some { col := 1, value := 2304, margin := 2299, met := 2 }) ∧
    (wBandFirst.blk.unitsOn = true ∧ (wBandFirst.blk.hd 4).tdi.ready = [1] ∧
      (wBandFirst.blk.hd 4).bandsBefore 1 = false ∧
      List.find? (fun f => f.id == 1) (wBandFirst.blk.hd 4).frames = some bandF ∧
      bandF.lines.head?.bind RawLine.pos = some 20480 ∧ bandF.slotLost = false ∧
      (wBandFirst.blk.tdiNow (if wBandFirst.blk.curPipe 4 < 26 then wBandFirst.blk.curPipe 4 else bandF.pipe)).en =
        true ∧
      (wBandFirst.blk.hd 4).tdi.cfg = none ∧ (wBandFirst.blk.hd 4).tdi.lines = [] ∧
      (wBandFirst.blk.hd 4).tdi.last = none ∧
      List.filter ((fun j l => !l.crcBad && (wBandFirst.blk.tdiNow (if wBandFirst.blk.curPipe 4 < 26 then
        wBandFirst.blk.curPipe 4 else bandF.pipe)).lineOf ((wBandFirst.blk.tdiNow (if wBandFirst.blk.curPipe 4 < 26
        then wBandFirst.blk.curPipe 4 else bandF.pipe)).rowAt 20480 l.y) == j) 80) bandF.lines =
        [({ raw1 with got := 1 } : RawLine)] ∧
      wBandFirst.blk.bad = []) ∧ (Writes Requester.host (wBandFlush true) ∧ (wBandFlush true).blk.headOf 3 = some 4 ∧
      ((wBandFlush true).blk.hd 4).tdi.cfg ≠ none ∧ ((wBandFlush true).blk.hd 4).tdi.lines = [oline1] ∧
      ((wBandFlush true).blk.hd 4).tdi.last = none ∧ ((wBandFlush true).blk.stitchedAt 4).isSome = true) ∧
    (wSeam.blk.unitsOn = true ∧ wSeam.blk.stitching = true ∧ (Instr.stripLineForm = Instr.stripLineForm ∧
      wSeam.blk.stripNext = some 3 ∧ wSeam.blk.stripReady 3 = true ∨ Instr.stripLineForm = Instr.seamWaitExpiry ∧
      wSeam.blk.stripLowest = some 3 ∧ wSeam.blk.stripLate 3 = true)) ∧ (Writes Requester.host (wBandFlush false) ∧
      (wBandFlush false).blk.headOf 3 = some 4 ∧ ((wBandFlush false).blk.hd 4).tdi.cfg ≠ none ∧
      ((wBandFlush false).blk.hd 4).tdi.lines = [oline1] ∧ ((wBandFlush false).blk.hd 4).tdi.last = none ∧
      (wBandFlush false).blk.stitchedAt 4 = none) ∧ (Writes Requester.host wTrim ∧
      Prevails Requester.host (Reg.SEAM_H_RG 4) wTrim ∧
      SMap.get (fun _ => none) wTrim.blk.seam.updated 4 = some (640000000, 5, 6) ∧ 640000000 = wTrim.blk.now) ∧
    (Writes Requester.host wTrim ∧ Prevails Requester.host (Reg.SEAM_H_RO 4) wTrim ∧
      SMap.get (fun _ => none) wTrim.blk.seam.updated 4 = some (640000000, 5, 6) ∧ 640000000 = wTrim.blk.now) ∧
    (Writes Requester.svc wVrd ∧ Prevails Requester.svc (Reg.SEAM_H_RG 4) wVrd ∧
      Option.all (fun u => u.fst != wVrd.blk.now) (SMap.get (fun _ => none) wVrd.blk.seam.updated 4) = true) ∧
    (Writes Requester.svc wVrd ∧ Prevails Requester.svc (Reg.SEAM_H_RO 4) wVrd ∧
      Option.all (fun u => u.fst != wVrd.blk.now) (SMap.get (fun _ => none) wVrd.blk.seam.updated 4) = true) ∧
    (wVrd.blk.unitsOn = true ∧ wVrd.blk.vrd.jobs = [job1, job1] ∧ wVrd.blk.bit Reg.VRD_CTL 0 = true ∧
      job1.shuttered = true ∧ job1.ln.head ≠ 31) ∧ (wVrdOff.blk.unitsOn = true ∧ wVrdOff.blk.vrd.jobs = [job1, job1] ∧
      wVrdOff.blk.bit Reg.VRD_CTL 0 = false) ∧ (fieldOf default 31 28 < 15 ∧ fieldOf default 27 0 + 0 < 2 ^ 28) ∧
    (Writes Requester.host wVrd ∧ wVrd.blk.headOf 5 = none) ∧ (wSeam.blk.unitsOn = true ∧
      wSeam.blk.relayDue = true) := by
  and_intros <;> decide +kernel

theorem witness_ActionQueue :
    ((wActTurn 0x00010009).blk.unitsOn = true ∧ (wActTurn 0x00010009).blk.act.backlog = [9] ∧
      (wActTurn 0x00010009).blk.act.done < 16 ∧ (wActTurn 0x00010009).blk.isBad (Upset.action 9) = false ∧
      ((wActTurn 0x00010009).blk.actE 9).reached.isSome = true ∧ (wActTurn 0x00010009).blk.standby = false ∧
      ((wActTurn 0x00010009).blk.actE 9).kind = 9 ∧ ((wActTurn 0x00010009).blk.actE 9).target < 4) ∧
    ((wActTurn 0x00030001).blk.unitsOn = true ∧ (wActTurn 0x00030001).blk.act.backlog = [9] ∧
      (wActTurn 0x00030001).blk.act.done < 16 ∧ (wActTurn 0x00030001).blk.isBad (Upset.action 9) = false ∧
      ((wActTurn 0x00030001).blk.actE 9).reached.isSome = true ∧ (wActTurn 0x00030001).blk.standby = false ∧
      ((wActTurn 0x00030001).blk.actE 9).kind ≠ 4 ∧ ((wActTurn 0x00030001).blk.actE 9).kind ≠ 5) ∧
    ((wActTurn 0x00030001).blk.unitsOn = true ∧ (wActTurn 0x00030001).blk.act.backlog = [9] ∧
      (wActTurn 0x00030001).blk.act.done < 16 ∧ (wActTurn 0x00030001).blk.isBad (Upset.action 9) = false ∧
      ((wActTurn 0x00030001).blk.actE 9).reached.isSome = true ∧ (wActTurn 0x00030001).blk.standby = false ∧
      ((wActTurn 0x00030001).blk.actE 9).kind = 1) ∧ ((wActTurn 0x00030002).blk.unitsOn = true ∧
      (wActTurn 0x00030002).blk.act.backlog = [9] ∧ (wActTurn 0x00030002).blk.act.done < 16 ∧
      (wActTurn 0x00030002).blk.isBad (Upset.action 9) = false ∧
      ((wActTurn 0x00030002).blk.actE 9).reached.isSome = true ∧ (wActTurn 0x00030002).blk.standby = false ∧
      ((wActTurn 0x00030002).blk.actE 9).kind = 2) ∧ (Writes Requester.host wActBad ∧
      ((wActBad.blk.actE 5).st ≠ 0 ∨ wActBad.blk.split ≤ 5 ∨ actOk ((wActBad.blk.staged Requester.host 5).ctrl &&&
        2033663) ((7 : Word).setWidth 24) = false)) ∧
    (Writes Requester.host wActBad ∧ (wActBad.blk.actE 3).st = 0 ∧ 3 < wActBad.blk.split ∧
      actOk ((wActBad.blk.staged Requester.host 3).ctrl &&& 2033663) ((7 : Word).setWidth 24) = true) ∧
    (wActBad.blk.unitsOn = true ∧
      (∀ (j : Nat), j ∈ wActBad.blk.act.backlog → wActBad.blk.isBad (Upset.action (Fin.ofNat 4096 j)) = false)) ∧
    (wActBadQ.blk.unitsOn = true ∧ wActBadQ.blk.act.backlog = [5, 9] ∧ wActBadQ.blk.act.done < 16 ∧
      wActBadQ.blk.isBad (Upset.action 5) = true) ∧ (wActBad.blk.unitsOn = true ∧
      (wActBad.blk.act.backlog.head? ≠ some 5 ∨ 16 ≤ wActBad.blk.act.done)) ∧ (Writes Requester.host wActBad ∧
      (wActBad.blk.actE 9).st ≠ 1) ∧ (Writes Requester.host wActBad ∧ (wActBad.blk.actE 5).st = 1) := by
  and_intros <;> decide +kernel

theorem witness_EventLines :
    (wEo.blk.unitsOn = true ∧ wEo.blk.pulse 3 = some pulse1 ∧ pulse1.ends ≤ wEo.blk.inst.t16) ∧
    (wEo.blk.unitsOn = true ∧ wEo.blk.eiDue 0 true = some hold1) ∧ wEoShut.blk.unitsOn = false ∧
    Writes Requester.svc wEo := by
  and_intros <;> decide +kernel

theorem witness_CalibrationRequests :
    (sCalibrationRequests1.blk.unitsOn = true ∧ sCalibrationRequests1.blk.calState 4 = 9 ∧
      sCalibrationRequests1.blk.bit Reg.CAL_CTL 0 = true ∧ sCalibrationRequests1.blk.bound 4 = true ∧
      (sCalibrationRequests1.blk.hd 4).cal.retryAt = some 639000000 ∧ 639000000 ≤ sCalibrationRequests1.blk.now) ∧
    (wBank.blk.unitsOn = true ∧ wBank.blk.bit Reg.CAL_CTL 0 = true ∧ wBank.blk.bound 4 = true ∧
      wBank.blk.calState 4 = 0 ∧ (wBank.blk.hd 4).cal.stopped = false ∧
      max 1 (wBank.blk.num Reg.CAL_RECAL_MAX) < (wBank.blk.calAge 4).getD 4294967295) ∧ (Writes Requester.host wCal7 ∧
      (wCal7.blk.calState 4 ≠ 0 ∨ wCal7.blk.bit (Reg.HD_BANK 4) 2 = true ∨ wCal7.blk.bit (Reg.HD_BANK 4) 1 = true ∨
        wCal7.blk.bit (Reg.HD_BANK 4) 4 = true)) ∧
    (Writes Requester.host wBank ∧ wBank.blk.calState 4 = 0 ∧ wBank.blk.bit (Reg.HD_BANK 4) 2 = false ∧
      wBank.blk.bit (Reg.HD_BANK 4) 1 = false ∧ wBank.blk.bit (Reg.HD_BANK 4) 4 = false) ∧
    (Writes Requester.host wCal7 ∧ 1 ≤ wCal7.blk.calState 4 ∧ wCal7.blk.calState 4 ≤ 8 ∧ wCal7.blk.calState 4 = 7 ∧
      wCal7.blk.bit (Reg.HD_BANK 4) 3 = true) ∧ (Writes Requester.svc wBank ∧ wBank.blk.bound 4 = true ∧
      (wBank.blk.calState 4 = 0 ∨ wBank.blk.calState 4 = 9)) ∧ (Writes Requester.svc wCal7 ∧
      wCal7.blk.bound 4 = true ∧ wCal7.blk.calState 4 ≠ 0 ∧ wCal7.blk.calState 4 ≠ 9) ∧ (Writes Requester.host wBank ∧
      (wBank.blk.calState 4 = 0 ∨ 9 ≤ wBank.blk.calState 4)) ∧ (Writes Requester.svc (wCalFree 0) ∧
      (wCalFree 0).blk.bound 4 = false) := by
  and_intros <;> decide +kernel

theorem witness_CalibrationRuns :
    ((wCal 1 {}).blk.unitsOn = true ∧ (wCal 1 {}).blk.calState 4 = 1 ∧ (wCal 1 {}).blk.standby = false ∧
      (wCal 1 {}).blk.calMayStart 4 = true ∧ (∀ (g : Nat), g < 24 → ¬((wCal 1 {}).blk.calState g = 1 ∧
      (wCal 1 {}).blk.calMayStart g = true ∧ (wCal 1 {}).blk.pendsBefore g 4 = true)) ∧
      (wCal 1 {}).blk.bound 4 = true ∧ (wCal 1 {}).blk.tfBad 4 = false) ∧ ((wCalFree 1).blk.unitsOn = true ∧
      (wCalFree 1).blk.calState 4 = 1 ∧ (wCalFree 1).blk.standby = false ∧ (wCalFree 1).blk.calMayStart 4 = true ∧
      (∀ (g : Nat), g < 24 → ¬((wCalFree 1).blk.calState g = 1 ∧ (wCalFree 1).blk.calMayStart g = true ∧
      (wCalFree 1).blk.pendsBefore g 4 = true)) ∧ (wCalFree 1).blk.bound 4 = false) ∧ (wCalBad.blk.unitsOn = true ∧
      wCalBad.blk.calState 4 = 1 ∧ wCalBad.blk.standby = false ∧ wCalBad.blk.calMayStart 4 = true ∧
      (∀ (g : Nat), g < 24 → ¬(wCalBad.blk.calState g = 1 ∧ wCalBad.blk.calMayStart g = true ∧
      wCalBad.blk.pendsBefore g 4 = true)) ∧ wCalBad.blk.bound 4 = true ∧ wCalBad.blk.tfBad 4 = true) ∧
    (sCalibrationRuns1.blk.unitsOn = true ∧ (sCalibrationRuns1.blk.hd 4).cal.settleAt = some 639000000 ∧
      639000000 ≤ sCalibrationRuns1.blk.now ∧ sCalibrationRuns1.blk.calState 4 = 4) ∧
    (sCalibrationRuns2.blk.unitsOn = true ∧ (sCalibrationRuns2.blk.hd 4).cal.settleAt = some 639000000 ∧
      639000000 ≤ sCalibrationRuns2.blk.now ∧ sCalibrationRuns2.blk.calState 4 = 8) ∧ (wCalWrite.blk.unitsOn = true ∧
      wCalWrite.blk.calState 4 = 6 ∧ (wCalWrite.blk.hd 4).cal.pass = true ∧ (wCalWrite.blk.hd 4).cal.written = false ∧
      wCalWrite.blk.bit (Reg.HD_BANK 4) 2 = false ∧ wCalWrite.blk.bit (Reg.HD_BANK 4) 1 = false) ∧
    ((wCal 2 {}).blk.unitsOn = true ∧ (wCal 2 {}).blk.mayCal 4 = true ∧ (wCal 2 {}).blk.standby = false) := by
  and_intros <;> decide +kernel

theorem witness_TroekMemory :
    (Issues 2 (Instr.ldcd 2 5 1 0) sTroekMemory2 ∧
      ctrlBad (sTroekMemory2.blk.greg 2 1 + (0 : BitVec 16).signExtend 64) = false ∧
      ctrlBad (sTroekMemory2.blk.greg 2 1 + (0 : BitVec 16).signExtend 64 + 4) = false ∧
      (sTroekMemory2.blk.readHeld (sTroekMemory2.blk.greg 2 1 + (0 : BitVec 16).signExtend 64).toNat = true ∨
        sTroekMemory2.blk.readHeld ((sTroekMemory2.blk.greg 2 1 + (0 : BitVec 16).signExtend 64).toNat + 4) = true)) ∧
    (Issues 2 (Instr.ldcd 2 5 1 0) (wTrk (.ldcd 2 5 1 0)) ∧
      ctrlBad ((wTrk (.ldcd 2 5 1 0)).blk.greg 2 1 + (0 : BitVec 16).signExtend 64) = false ∧
      ctrlBad ((wTrk (.ldcd 2 5 1 0)).blk.greg 2 1 + (0 : BitVec 16).signExtend 64 + 4) = false ∧
      (wTrk (.ldcd 2 5 1 0)).blk.readHeld ((wTrk (.ldcd 2 5 1 0)).blk.greg 2 1 + (0 : BitVec 16).signExtend 64).toNat =
        false ∧
      (wTrk (.ldcd 2 5 1 0)).blk.readHeld (((wTrk (.ldcd 2 5 1 0)).blk.greg 2 1 + (0 : BitVec 16).signExtend 64).toNat
        + 4) = false ∧
      (wTrk (.ldcd 2 5 1 0)).blk.journalLost ((wTrk (.ldcd 2 5 1 0)).blk.greg 2 1 + (0 : BitVec 16).signExtend
        64).toNat = false ∧
      (wTrk (.ldcd 2 5 1 0)).blk.journalLost (((wTrk (.ldcd 2 5 1 0)).blk.greg 2 1 + (0 : BitVec 16).signExtend
        64).toNat + 4) = false) ∧
    (sTroekMemory3.blk.issuesLate 2 (Instr.stc 2 5 1 0) = true ∧
      inLedger (sTroekMemory3.blk.greg 2 1 + (0 : BitVec 16).signExtend 64).toNat = true ∧
      (sTroekMemory3.blk.greg 2 1 + (0 : BitVec 16).signExtend 64).toNat % 4 = 0 ∧
      sTroekMemory3.blk.writeHeld (sTroekMemory3.blk.greg 2 1 + (0 : BitVec 16).signExtend 64).toNat = true) ∧
    (Issues 2 (Instr.ldc 2 5 1 0) sTroekMemory4 ∧
      ctrlBad (sTroekMemory4.blk.greg 2 1 + (0 : BitVec 16).signExtend 64) = false ∧
      sTroekMemory4.blk.readHeld (sTroekMemory4.blk.greg 2 1 + (0 : BitVec 16).signExtend 64).toNat = true) ∧
    (sTroekMemory1.blk.issuesLate 2 (Instr.stc 2 5 1 0) = true ∧
      (sTroekMemory1.blk.greg 2 1 + (0 : BitVec 16).signExtend 64).toNat ∈ [Reg.GLB_IEN, Reg.GLB_BADACC, Reg.TIM_STEP,
        Reg.TIM_STAT, Reg.TIM_CNT, Reg.VRD_CNT_A] ∧
      sTroekMemory1.blk.standby = false) ∧ (Issues 2 (Instr.stw 2 5 1 0) (wTrk (.stw 2 5 1 0)) ∧
      ((wTrk (.stw 2 5 1 0)).blk.greg 2 1 + (0 : BitVec 16).signExtend 64).toNat < 65536 ∧
      ((wTrk (.stw 2 5 1 0)).blk.greg 2 1 + (0 : BitVec 16).signExtend 64).toNat % 4 = 0 ∧
      (263 < ((wTrk (.stw 2 5 1 0)).blk.greg 2 1 + (0 : BitVec 16).signExtend 64).toNat ∨ ((wTrk (.stw 2 5 1
        0)).blk.greg 2 1 + (0 : BitVec 16).signExtend 64).toNat + 4 ≤ 263)) ∧
    (Issues 2 (Instr.st 2 5 2 0) (wTrk (.st 2 5 2 0)) ∧
      ((wTrk (.st 2 5 2 0)).blk.greg 2 2 + (0 : BitVec 16).signExtend 64).toNat < 65536 ∧
      ((wTrk (.st 2 5 2 0)).blk.greg 2 2 + (0 : BitVec 16).signExtend 64).toNat % 8 = 0 ∧
      (256 < ((wTrk (.st 2 5 2 0)).blk.greg 2 2 + (0 : BitVec 16).signExtend 64).toNat ∨ ((wTrk (.st 2 5 2 0)).blk.greg
        2 2 + (0 : BitVec 16).signExtend 64).toNat + 8 ≤ 256)) ∧
    (Issues 2 (Instr.ldc 2 5 1 0) (wTrk (.ldc 2 5 1 0)) ∧
      ctrlBad ((wTrk (.ldc 2 5 1 0)).blk.greg 2 1 + (0 : BitVec 16).signExtend 64) = false ∧
      (wTrk (.ldc 2 5 1 0)).blk.readHeld ((wTrk (.ldc 2 5 1 0)).blk.greg 2 1 + (0 : BitVec 16).signExtend 64).toNat =
        false ∧
      (wTrk (.ldc 2 5 1 0)).blk.journalLost ((wTrk (.ldc 2 5 1 0)).blk.greg 2 1 + (0 : BitVec 16).signExtend 64).toNat
        = false) ∧
    (Issues 2 (Instr.ldw 2 5 2 8) (wTrk (.ldw 2 5 2 8)) ∧
      (65536 ≤ ((wTrk (.ldw 2 5 2 8)).blk.greg 2 2 + (8 : BitVec 16).signExtend 64).toNat ∨ ((wTrk (.ldw 2 5 2
        8)).blk.greg 2 2 + (8 : BitVec 16).signExtend 64).toNat % 4 ≠ 0 ∨ (wTrk (.ldw 2 5 2 8)).blk.dmemSpoilt ((wTrk
        (.ldw 2 5 2 8)).blk.greg 2 2 + (8 : BitVec 16).signExtend 64).toNat 4 = true)) ∧
    (Issues 2 (Instr.ldw 2 5 1 0) (wTrk (.ldw 2 5 1 0)) ∧
      ((wTrk (.ldw 2 5 1 0)).blk.greg 2 1 + (0 : BitVec 16).signExtend 64).toNat < 65536 ∧
      ((wTrk (.ldw 2 5 1 0)).blk.greg 2 1 + (0 : BitVec 16).signExtend 64).toNat % 4 = 0 ∧
      (wTrk (.ldw 2 5 1 0)).blk.dmemSpoilt ((wTrk (.ldw 2 5 1 0)).blk.greg 2 1 + (0 : BitVec 16).signExtend 64).toNat 4
        = false) ∧
    (Issues 2 (Instr.ld 2 5 2 4) (wTrk (.ld 2 5 2 4)) ∧
      (65536 ≤ ((wTrk (.ld 2 5 2 4)).blk.greg 2 2 + (4 : BitVec 16).signExtend 64).toNat ∨ ((wTrk (.ld 2 5 2
        4)).blk.greg 2 2 + (4 : BitVec 16).signExtend 64).toNat % 8 ≠ 0 ∨ (wTrk (.ld 2 5 2 4)).blk.dmemSpoilt ((wTrk
        (.ld 2 5 2 4)).blk.greg 2 2 + (4 : BitVec 16).signExtend 64).toNat 8 = true)) ∧
    (Issues 2 (Instr.ld 2 5 1 0) (wTrk (.ld 2 5 1 0)) ∧
      ((wTrk (.ld 2 5 1 0)).blk.greg 2 1 + (0 : BitVec 16).signExtend 64).toNat < 65536 ∧
      ((wTrk (.ld 2 5 1 0)).blk.greg 2 1 + (0 : BitVec 16).signExtend 64).toNat % 8 = 0 ∧
      (wTrk (.ld 2 5 1 0)).blk.dmemSpoilt ((wTrk (.ld 2 5 1 0)).blk.greg 2 1 + (0 : BitVec 16).signExtend 64).toNat 8 =
        false) ∧
    (Issues 2 (Instr.ldcd 2 5 1 1) (wTrk (.ldcd 2 5 1 1)) ∧
      (ctrlBad ((wTrk (.ldcd 2 5 1 1)).blk.greg 2 1 + (1 : BitVec 16).signExtend 64) = true ∨ ctrlBad ((wTrk (.ldcd 2 5
        1 1)).blk.greg 2 1 + (1 : BitVec 16).signExtend 64 + 4) = true)) ∧
    (Issues 2 (Instr.stw 2 5 2 8) (wTrk (.stw 2 5 2 8)) ∧
      (65536 ≤ ((wTrk (.stw 2 5 2 8)).blk.greg 2 2 + (8 : BitVec 16).signExtend 64).toNat ∨ ((wTrk (.stw 2 5 2
        8)).blk.greg 2 2 + (8 : BitVec 16).signExtend 64).toNat % 4 ≠ 0)) ∧
    (Issues 2 (Instr.st 2 5 2 4) (wTrk (.st 2 5 2 4)) ∧
      (65536 ≤ ((wTrk (.st 2 5 2 4)).blk.greg 2 2 + (4 : BitVec 16).signExtend 64).toNat ∨ ((wTrk (.st 2 5 2
        4)).blk.greg 2 2 + (4 : BitVec 16).signExtend 64).toNat % 8 ≠ 0)) ∧
    ((wTrk (.stc 2 5 1 1)).blk.issuesLate 2 (Instr.stc 2 5 1 1) = true ∧
      ctrlBad ((wTrk (.stc 2 5 1 1)).blk.greg 2 1 + (1 : BitVec 16).signExtend 64) = true) ∧
    (Issues 2 (Instr.ldc 2 5 1 1) (wTrk (.ldc 2 5 1 1)) ∧
      ctrlBad ((wTrk (.ldc 2 5 1 1)).blk.greg 2 1 + (1 : BitVec 16).signExtend 64) = true) := by
  and_intros <;> decide +kernel

theorem witness_TroekWaits :
    (sTroekWaits1.blk.seqOn = true ∧ sTroekWaits1.blk.tState 2 = 2 ∧
      (sTroekWaits1.blk.thr 2).wait = some (Instr.waitp 2 5 3 4 7) ∧ sTroekWaits1.blk.pair.handAt = none ∧
      sTroekWaits1.blk.standby = false ∧ sTroekWaits1.blk.waitMet (Instr.waitp 2 5 3 4 7) = none ∧
      (sTroekWaits1.blk.thr 2).stepping = true) ∧ (sTroekWaits9.blk.seqOn = true ∧ sTroekWaits9.blk.tState 2 = 2 ∧
      (sTroekWaits9.blk.thr 2).wait = some (Instr.waitp 2 5 3 4 7) ∧ sTroekWaits9.blk.pair.handAt = none ∧
      sTroekWaits9.blk.standby = false ∧ sTroekWaits9.blk.waitMet (Instr.waitp 2 5 3 4 7) = none ∧
      (sTroekWaits9.blk.thr 2).stepping = false) ∧ (sTroekWaits6.blk.seqOn = true ∧ sTroekWaits6.blk.tState 2 = 2 ∧
      (sTroekWaits6.blk.thr 2).wait = some (Instr.waitp 2 5 3 4 7) ∧ sTroekWaits6.blk.pair.handAt = none ∧
      sTroekWaits6.blk.standby = false ∧ sTroekWaits6.blk.waitMet (Instr.waitp 2 5 3 4 7) = some (0, 0)) ∧
    (240 &&& BitVec.ofNat 8 (if 7 = 1 ∨ 7 = 2 then sTroekWaits13.blk.fld Reg.ACT_EI_STAT 7 0 ^^^ if 7 = 2 then 255 else
      0 else sTroekWaits13.blk.fld (Reg.SEQ_T_WAKE 2) 7 0) = 240 &&& BitVec.ofNat 8 (if 7 = 1 ∨ 7 = 2 then
      sTroekWaits13.blk.fld Reg.ACT_EI_STAT 7 0 ^^^ if 7 = 2 then 255 else 0 else sTroekWaits13.blk.fld (Reg.SEQ_T_WAKE
      2) 7 0)) ∧
    (sTroekWaits2.blk.seqOn = true ∧ sTroekWaits2.blk.tState 2 = 2 ∧
      (sTroekWaits2.blk.thr 2).wait = some (Instr.waite 2 5 4 0 240) ∧ (sTroekWaits2.blk.thr 2).stall = none ∧
      sTroekWaits2.blk.waitMet (Instr.waite 2 5 4 0 240) = some (256, 0)) ∧ (sTroekWaits4.blk.seqOn = true ∧
      sTroekWaits4.blk.tState 2 = 2 ∧ (sTroekWaits4.blk.thr 2).wait = some (Instr.waitt 2 5 3) ∧
      (sTroekWaits4.blk.thr 2).stall = none ∧ sTroekWaits4.blk.waitMet (Instr.waitt 2 5 3) = some (0, 0)) ∧
    (sTroekWaits5.blk.seqOn = true ∧ sTroekWaits5.blk.tState 2 = 2 ∧
      (sTroekWaits5.blk.thr 2).wait = some (Instr.waite 2 5 4 0 240) ∧ (sTroekWaits5.blk.thr 2).stall = none ∧
      sTroekWaits5.blk.waitMet (Instr.waite 2 5 4 0 240) = none) ∧ (sTroekWaits12.blk.seqOn = true ∧
      sTroekWaits12.blk.tState 2 = 2 ∧ (sTroekWaits12.blk.thr 2).wait = some (Instr.waitt 2 5 3) ∧
      (sTroekWaits12.blk.thr 2).stall = none ∧ sTroekWaits12.blk.waitMet (Instr.waitt 2 5 3) = none) ∧
    (Issues 2 (Instr.waite 2 5 4 0 240) sTroekWaits3 ∧ sTroekWaits3.blk.waitMet (Instr.waite 2 5 4 0 240) = none ∧
      (sTroekWaits3.blk.thr 2).stepping = true) ∧ (Issues 2 (Instr.waite 2 5 4 0 240) sTroekWaits7 ∧
      sTroekWaits7.blk.waitMet (Instr.waite 2 5 4 0 240) = none ∧ (sTroekWaits7.blk.thr 2).stepping = false) ∧
    (Issues 2 (Instr.waitt 2 5 3) sTroekWaits10 ∧ sTroekWaits10.blk.waitMet (Instr.waitt 2 5 3) = none ∧
      (sTroekWaits10.blk.thr 2).stepping = true) ∧ (Issues 2 (Instr.waitt 2 5 3) sTroekWaits13 ∧
      sTroekWaits13.blk.waitMet (Instr.waitt 2 5 3) = none ∧ (sTroekWaits13.blk.thr 2).stepping = false) ∧
    (Issues 2 (Instr.waite 2 5 4 7 240) sTroekWaits8 ∧
      sTroekWaits8.blk.waitMet (Instr.waite 2 5 4 7 240) = some (256, 0)) ∧
    (Issues 2 (Instr.waitt 2 5 3) sTroekWaits11 ∧ sTroekWaits11.blk.waitMet (Instr.waitt 2 5 3) = some (0, 0)) ∧
    0 ≤ posDiff (sTroekWaits6.blk.hwmNow 7) (BitVec.setWidth 48 (sTroekWaits6.blk.greg 2 3)) ∧
    posDiff (sTroekWaits13.blk.hwmNow 7) (BitVec.setWidth 48 (sTroekWaits13.blk.greg 2 3)) < 0 ∧
    Issues 2 (Instr.waitp 2 5 3 4 7) (wTrkWith (.waitp 2 5 3 4 7) [(3, 1000001), (4, 0)]) ∧
    Issues 2 (Instr.sig 2 3 165) (wTrkWith (.sig 2 3 0xA5) [(3, 1000001), (4, 0)]) ∧
    Writes Requester.host sTroekWaits13 := by
  and_intros <;> decide +kernel

set_option maxRecDepth 100000 in
theorem witness_TroekUnits :
    (BitVec.setWidth 32 (sTroekUnits4.blk.greg 2 4) = 8388616 ∧ Issues 2 (Instr.lwr 2 5 3 4) sTroekUnits4 ∧
      (sTroekUnits4.blk.greg 2 3).toNat = 65528 ∧ (sTroekUnits4.blk.greg 2 4).toNat % 65536 = 8 ∧
      (sTroekUnits4.blk.greg 2 4).toNat / 65536 % 256 = 128 ∧ sTroekUnits4.blk.dmemSpoilt 65528 8 = false ∧
      (userBytes (128#8) (sTroekUnits4.blk.dmemReads 65528 8) 1 sTroekUnits4.blk).fst ≠ none) ∧
    (BitVec.setWidth 32 (sTroekUnits1.blk.greg 2 4) = 8388616 ∧ Issues 2 (Instr.lwr 2 5 3 4) sTroekUnits1 ∧
      (sTroekUnits1.blk.greg 2 3).toNat = 65528 ∧ (sTroekUnits1.blk.greg 2 4).toNat % 65536 = 8 ∧
      (sTroekUnits1.blk.greg 2 4).toNat / 65536 % 256 = 128 ∧
      (65536 < 65528 + 8 ∨ sTroekUnits1.blk.dmemSpoilt 65528 8 = true)) ∧
    (BitVec.setWidth 32 (sTroekUnits7.blk.greg 2 4) = 0 ∧ Issues 2 (Instr.log 2 5 3 0) sTroekUnits7 ∧
      (sTroekUnits7.blk.greg 2 3).toNat % 8 = 0 ∧ (sTroekUnits7.blk.greg 2 3).toNat + 32 ≤ 65536 ∧
      sTroekUnits7.blk.dmemSpoilt (sTroekUnits7.blk.greg 2 3).toNat 32 = false ∧
      ((0 : BitVec 16).getLsbD 0 = true ∨ sTroekUnits7.blk.logTooSoon = false) ∧
      sTroekUnits7.blk.ldg.queue.length < 32) ∧ (BitVec.setWidth 32 (sTroekUnits2.blk.greg 2 4) = 196609 ∧
      sTroekUnits2.blk.issuesLate 2 (Instr.arm 2 5 3 4) = true ∧
      sTroekUnits2.blk.freeEntry 0 sTroekUnits2.blk.split = some 0 ∧
      actOk (196609 &&& 2033663) (BitVec.setWidth 24 (sTroekUnits2.blk.greg 2 4 >>> 32)) = true) ∧
    (BitVec.setWidth 32 (sTroekUnits5.blk.greg 2 4) = 8389121 ∧ Issues 2 (Instr.lwr 2 5 3 4) sTroekUnits5 ∧
      (sTroekUnits5.blk.greg 2 3).toNat = 256 ∧ (sTroekUnits5.blk.greg 2 4).toNat % 65536 = 513 ∧
      (sTroekUnits5.blk.greg 2 4).toNat / 65536 % 256 = 128) ∧ (BitVec.setWidth 32 (sTroekUnits3.blk.greg 2 4) = 0 ∧
      Issues 2 (Instr.log 2 5 3 0) sTroekUnits3 ∧ (sTroekUnits3.blk.greg 2 3).toNat = 65504 ∧
      (65504 % 8 ≠ 0 ∨ 65536 < 65504 + 32 ∨ sTroekUnits3.blk.dmemSpoilt 65504 32 = true)) ∧
    (BitVec.setWidth 32 (sTroekUnits6.blk.greg 2 4) = 0 ∧ Issues 2 (Instr.lwr 2 5 3 4) sTroekUnits6 ∧
      (sTroekUnits6.blk.greg 2 3).toNat = 65536 ∧ (sTroekUnits6.blk.greg 2 4).toNat % 65536 = 0 ∧
      (sTroekUnits6.blk.greg 2 4).toNat / 65536 % 256 = 0) ∧ (BitVec.setWidth 32 (wLwrFull.blk.greg 2 4) = 8389120 ∧
      Issues 2 (Instr.lwr 2 5 3 4) wLwrFull ∧ (wLwrFull.blk.greg 2 3).toNat = 256 ∧
      (wLwrFull.blk.greg 2 4).toNat % 65536 = 512 ∧ (wLwrFull.blk.greg 2 4).toNat / 65536 % 256 = 128 ∧
      wLwrFull.blk.dmemSpoilt 256 512 = false ∧
      (userBytes (128#8) (wLwrFull.blk.dmemReads 256 512) 1 wLwrFull.blk).fst = none) ∧
    (BitVec.setWidth 32 ((wTrk (.arm 2 5 3 4)).blk.greg 2 4) = 127 ∧
      (wTrk (.arm 2 5 3 4)).blk.issuesLate 2 (Instr.arm 2 5 3 4) = true ∧
      (wTrk (.arm 2 5 3 4)).blk.freeEntry 0 (wTrk (.arm 2 5 3 4)).blk.split = some 0 ∧
      actOk (127 &&& 2033663) (BitVec.setWidth 24 ((wTrk (.arm 2 5 3 4)).blk.greg 2 4 >>> 32)) = false) ∧
    (BitVec.setWidth 32 (wLogSoon.blk.greg 2 4) = 0 ∧ Issues 2 (Instr.log 2 5 3 0) wLogSoon ∧
      (wLogSoon.blk.greg 2 3).toNat % 8 = 0 ∧ (wLogSoon.blk.greg 2 3).toNat + 32 ≤ 65536 ∧
      wLogSoon.blk.dmemSpoilt (wLogSoon.blk.greg 2 3).toNat 32 = false ∧ (0 : BitVec 16).getLsbD 0 = false ∧
      wLogSoon.blk.logTooSoon = true) ∧ (BitVec.setWidth 32 (sTroekUnits10.blk.greg 2 4) = 3 ∧
      Issues 2 (Instr.bind 2 5 3 4) sTroekUnits10 ∧ (sTroekUnits10.blk.greg 2 3).toNat = 4 ∧
      admission 4 (fieldOf 3 4 0) (fieldOf 3 11 6) (fieldOf 3 21 12) sTroekUnits10.blk = 0) ∧
    (BitVec.setWidth 32 ((wTrkUnbind 0x83000000).blk.greg 2 4) = 0 ∧
      Issues 2 (Instr.unbind 2 5 3) (wTrkUnbind 0x83000000) ∧ ((wTrkUnbind 0x83000000).blk.greg 2 3).toNat = 4 ∧
      (wTrkUnbind 0x83000000).blk.bound 4 = true ∧ (wTrkUnbind 0x83000000).blk.bit (Reg.HD_BIND 4) 30 = false) ∧
    (BitVec.setWidth 32 ((wTrkUnbind 0xC3000000).blk.greg 2 4) = 0 ∧
      Issues 2 (Instr.unbind 2 5 3) (wTrkUnbind 0xC3000000) ∧ ((wTrkUnbind 0xC3000000).blk.greg 2 3).toNat = 4 ∧
      (wTrkUnbind 0xC3000000).blk.bound 4 = true ∧ (wTrkUnbind 0xC3000000).blk.bit (Reg.HD_BIND 4) 30 = true) ∧
    (BitVec.setWidth 32 (wLogFull.blk.greg 2 4) = 0 ∧ Issues 2 (Instr.log 2 5 3 0) wLogFull ∧
      (wLogFull.blk.greg 2 3).toNat = 256 ∧ wLogFull.blk.dmemSpoilt 256 32 = false ∧
      ((0 : BitVec 16).getLsbD 0 = true ∨ wLogFull.blk.logTooSoon = false) ∧ 32 ≤ wLogFull.blk.ldg.queue.length) ∧
    (BitVec.setWidth 32 (sTroekUnits11.blk.greg 2 4) = 3 ∧ Issues 2 (Instr.unbind 2 5 3) sTroekUnits11 ∧
      (sTroekUnits11.blk.greg 2 3).toNat = 4 ∧ sTroekUnits11.blk.bound 4 = false) ∧
    (BitVec.setWidth 32 (sTroekUnits8.blk.greg 2 4) = 0 ∧ Issues 2 (Instr.bind 2 5 3 4) sTroekUnits8 ∧
      23 < (sTroekUnits8.blk.greg 2 3).toNat) ∧ (BitVec.setWidth 32 (sTroekUnits9.blk.greg 2 4) = 0 ∧
      Issues 2 (Instr.unbind 2 5 3) sTroekUnits9 ∧ 23 < (sTroekUnits9.blk.greg 2 3).toNat) ∧
    (BitVec.setWidth 32 ((wCana 5).blk.greg 2 4) = 0 ∧ (wCana 5).blk.issuesLate 2 (Instr.cana 2 5 3) = true ∧
      ((wCana 5).blk.greg 2 3).toNat % 4096 = 5 ∧ 5 < (wCana 5).blk.split ∧ ((wCana 5).blk.actE 5).st = 1) ∧
    (BitVec.setWidth 32 ((wCana 6).blk.greg 2 4) = 0 ∧ (wCana 6).blk.issuesLate 2 (Instr.cana 2 5 3) = true ∧
      ((wCana 6).blk.greg 2 3).toNat % 4096 = 6 ∧ 6 < (wCana 6).blk.split ∧ ((wCana 6).blk.actE 6).st ≠ 1) ∧
    (BitVec.setWidth 32 ((wCana 8).blk.greg 2 4) = 0 ∧ (wCana 8).blk.issuesLate 2 (Instr.cana 2 5 3) = true ∧
      ((wCana 8).blk.greg 2 3).toNat % 4096 = 8 ∧ (wCana 8).blk.split ≤ 8) ∧
    (BitVec.setWidth 32 (wArmFull.blk.greg 2 4) = 196609 ∧ wArmFull.blk.issuesLate 2 (Instr.arm 2 5 3 4) = true ∧
      wArmFull.blk.freeEntry 0 wArmFull.blk.split = none) ∧
    (BitVec.setWidth 32 ((wTrkWith (.temp 2 5) []).blk.greg 2 4) = 0 ∧
      Issues 2 (Instr.temp 2 5) (wTrkWith (.temp 2 5) [])) := by
  and_intros <;> decide +kernel

theorem witness_Threads :
    (Writes Requester.host sThreads2 ∧ sThreads2.blk.tState 2 = 1 ∧
      ((sThreads2.blk.thr 2).stall ≠ none ∨ (sThreads2.blk.thr 2).ready ≤ sThreads2.blk.now ∧
      (sThreads2.blk.thr 2).late ≠ none)) ∧ (Writes Requester.host sThreads5 ∧
      sThreads5.blk.bit Reg.SEQ_STAT 11 = false ∧ 1 ≤ sThreads5.blk.fld Reg.SEQ_SP 13 0 ∧
      sThreads5.blk.fld Reg.SEQ_SP 13 0 ≤ 12288 ∧
      sThreads5.blk.fld Reg.SEQ_SP 29 16 < sThreads5.blk.fld Reg.SEQ_SP 13 0) ∧ (Writes Requester.host sThreads3 ∧
      sThreads3.blk.tState 2 = 1 ∧ (sThreads3.blk.thr 2).stall = none ∧
      sThreads3.blk.now < (sThreads3.blk.thr 2).ready) ∧ (Writes Requester.host sThreads6 ∧
      sThreads6.blk.bit Reg.SEQ_STAT 11 = false ∧
      (sThreads6.blk.fld Reg.SEQ_SP 13 0 = 0 ∨ 12288 < sThreads6.blk.fld Reg.SEQ_SP 13 0 ∨ sThreads6.blk.fld Reg.SEQ_SP
        13 0 ≤ sThreads6.blk.fld Reg.SEQ_SP 29 16)) ∧
    (Writes Requester.host sThreads7 ∧ sThreads7.blk.tState 2 = 1 ∧ (sThreads7.blk.thr 2).stall = none ∧
      (sThreads7.blk.thr 2).late = none ∧ (sThreads7.blk.thr 2).ready ≤ sThreads7.blk.now) ∧
    (sThreads4.blk.bit Reg.SEQ_STAT 11 = true ∧ sThreads4.blk.ldg.prog = none ∧
      (∀ (q : LdgReq), q ∈ sThreads4.blk.ldg.queue → q.isProgram = false)) ∧
    ((sThreads1.blk.thr 2).stall = some (Stall.hold (Instr.nop 2) 639999999) ∧ 639999999 < sThreads1.blk.now) ∧
    (sThreads4.blk.bit Reg.SEQ_STAT 11 = true ∧ Writes Requester.host sThreads4 ∧
      (Instr.save = Instr.save ∨ Instr.save = Instr.erase)) ∧ (Writes Requester.host sThreads6 ∧
      sThreads6.blk.seqOn = true ∧ (sThreads6.blk.tState 2 = 0 ∨ sThreads6.blk.tState 2 = 3)) ∧
    (Writes Requester.host sThreads6 ∧ sThreads6.blk.seqOn = true ∧ sThreads6.blk.tState 2 = 0) ∧
    (Writes Requester.host sThreads8 ∧ sThreads8.blk.tState 2 = 2) := by
  and_intros <;> decide +kernel

theorem witness_HostMemory :
    (((st up).blk.perst = false ∨ (st up).blk.bud.down = true) ∧ (st up).blk.stage_ ≠ 0 ∧
      (st up).blk.b2Waits = false ∧ (st up).blk.bud.down = false ∧ (st up).blk.standby = false ∧
      [some 1, none, some 3].length ≤ 2 ^ 34 ∧
      (∀ (i : Nat), i < [some 1, none, some 3].length → ((st up).blk.b2Addr 2952790016 + i) % 2 ^ 34 = 0 → [some 1,
        none, some 3].getD i none = none ∨ (st up).blk.b2Denied 0 = true)) ∧
    ((sHostMemory1.blk.perst = false ∨ sHostMemory1.blk.bud.down = true) ∧ sHostMemory1.blk.stage_ ≠ 0 ∧
      sHostMemory1.blk.b2Waits = false ∧ sHostMemory1.blk.bud.down = true) ∧
    ((wStandby.blk.perst = false ∨ wStandby.blk.bud.down = true) ∧ wStandby.blk.stage_ ≠ 0 ∧
      wStandby.blk.b2Waits = false ∧ wStandby.blk.bud.down = false ∧ wStandby.blk.standby = true ∧
      (enabledBytes (wStandby.blk.b2Addr 2952790016) [some 1, none, some 3]).isEmpty = false) ∧
    (((st up).blk.perst = false ∨ (st up).blk.bud.down = true) ∧ (st up).blk.stage_ ≠ 0 ∧
      (st up).blk.b2Waits = false ∧ (st up).blk.bud.down = false ∧
      (true = true ∨ (st up).blk.spoiltRead ((st up).blk.b2Addr 2952790016) 4 = true)) ∧
    (((st up).blk.perst = false ∨ (st up).blk.bud.down = true) ∧ (st up).blk.stage_ ≠ 0 ∧
      (st up).blk.b2Waits = false ∧ (st up).blk.bud.down = false ∧
      (st up).blk.spoiltRead ((st up).blk.b2Addr 2952790016) 4 = false) ∧
    ((sHostMemory2.blk.perst = false ∨ sHostMemory2.blk.bud.down = true) ∧ sHostMemory2.blk.stage_ ≠ 0 ∧
      sHostMemory2.blk.b2Waits = true) ∧ ((st up).blk.reaches Requester.host = true ∧ (st up).blk.bud.down = false ∧
      Prevails Requester.host (if true = true then Reg.HOST_B2_BASE_HI else Reg.HOST_B2_BASE_LO) (st up)) ∧
    ((st up).blk.perst = false ∧ (st up).blk.stage_ ≠ 0 ∧ (st up).blk.bud.down = false) := by
  and_intros <;> decide +kernel

theorem witness_StreamsAndRings :
    (sStreamsAndRings2.blk.egressOn = true ∧ sStreamsAndRings2.blk.ringReady 0 = false ∧
      sStreamsAndRings2.blk.ringReady 1 = false ∧
      (List.any sStreamsAndRings2.blk.host.strs fun e => sStreamsAndRings2.blk.mayComplete e.fst) = false ∧
      0 < (sStreamsAndRings2.blk.str 9).ready) ∧ (sStreamsAndRings1.blk.mayComplete 9 = true ∧
      sStreamsAndRings1.blk.ringReady 0 = false ∧ sStreamsAndRings1.blk.ringReady 1 = false ∧
      (sStreamsAndRings1.blk.str 9).descs = [({ de .writing true 0 with issued := 64 } : Desc),
        de DState.held false 1] ∧
      sStreamsAndRings1.blk.bit (Reg.STR_CTL 9) 3 = true) ∧
    ((sStreamsAndRings3.blk.str 9).descs[0]? = some (de DState.filling true 0) ∧
      (de DState.filling true 0).st = DState.filling ∧ (de DState.filling true 0).openAt = some 5 ∧
      sStreamsAndRings3.blk.fld (Reg.STR_CTL 9) 31 16 ≠ 0 ∧
      5 + sStreamsAndRings3.blk.fld (Reg.STR_CTL 9) 31 16 * tuUs ≤ sStreamsAndRings3.blk.now) ∧
    (sStreamsAndRings4.blk.reaches Requester.host = true ∧ sStreamsAndRings4.blk.bud.down = false ∧
      sStreamsAndRings4.blk.hostHeld = false ∧ isStream 9 = true ∧ sStreamsAndRings4.blk.strEn 9 = false ∧
      Prevails Requester.host (Reg.STR_CTL 9) sStreamsAndRings4) ∧
    (sStreamsAndRings4.blk.reaches Requester.host = true ∧ sStreamsAndRings4.blk.bud.down = false ∧
      sStreamsAndRings4.blk.hostHeld = false ∧ isStream 9 = true ∧
      sStreamsAndRings4.blk.ringSize 9 ≤ fieldOf 255 11 0) ∧ ((wLaunch 0 5 true).blk.reaches Requester.host = true ∧
      (wLaunch 0 5 true).blk.bud.down = false ∧ (wLaunch 0 5 true).blk.hostHeld = false ∧ isStream 9 = true ∧
      (wLaunch 0 5 true).blk.strEn 9 = true ∧ Prevails Requester.host (Reg.STR_CTL 9) (wLaunch 0 5 true) ∧
      (wLaunch 0 5 true).blk.egressOn = true ∧ ((wLaunch 0 5 true).blk.str 9).stopped = false ∧
      ({ de .held false 0 with d := { d1 with lkind := 1, lkey := 5, late := 0 } } : Desc) ∈ ((wLaunch 0 5
        true).blk.str 9).descs ∧
      (({ de .held false 0 with d := { d1 with lkind := 1, lkey := 5, late := 0 } } : Desc).st = DState.fetched ∨
        ({ de .held false 0 with d := { d1 with lkind := 1, lkey := 5, late := 0 } } : Desc).st = DState.filling ∨
        ({ de .held false 0 with d := { d1 with lkind := 1, lkey := 5, late := 0 } } : Desc).st = DState.held)) ∧
    (sStreamsAndRings4.blk.ringReady 1 = true ∧ (1 = 0 ∨ sStreamsAndRings4.blk.ringReady 0 = false) ∧
      (SMap.get (fun _ => { }) sStreamsAndRings4.blk.host.rings 1).next = some (List.replicate 64 7,
        ({ staged := [it, it], drops := none } : RecRing))) ∧
    ((sStreamsAndRings3.blk.str 9).descs[1]? = some (de DState.held false 1) ∧
      (de DState.held false 1).launched = false ∧
      launchHit (de DState.held false 1).d sStreamsAndRings3.blk = some default) ∧
    (((wLaunch 1 5 true).blk.str 9).descs[0]? = some
      ({ de .held false 0 with d := { d1 with lkind := 1, lkey := 5, late := 1 } } : Desc) ∧
      ({ de .held false 0 with d := { d1 with lkind := 1, lkey := 5, late := 1 } } : Desc).launched = false ∧
      launchHit ({ de .held false 0 with d := { d1 with lkind := 1, lkey := 5, late := 1 } } : Desc).d (wLaunch 1 5
        true).blk = some (some 999995) ∧
      (wLaunch 1 5 true).blk.keepsLate ({ de .held false 0 with d := { d1 with lkind := 1, lkey := 5, late := 1 } } :
        Desc).d 999995 = false) ∧
    (((wLaunch 1 5000000 true).blk.str 9).descs[0]? = some
      ({ de .held false 0 with d := { d1 with lkind := 1, lkey := 5000000, late := 1 } } : Desc) ∧
      (({ de .held false 0 with d := { d1 with lkind := 1, lkey := 5000000, late := 1 } } : Desc).launched = true ∨ 1 =
        2 ∨ launchHit ({ de .held false 0 with d := { d1 with lkind := 1, lkey := 5000000, late := 1 } } : Desc).d
        (wLaunch 1 5000000 true).blk = none) ∧
      ({ de .held false 0 with d := { d1 with lkind := 1, lkey := 5000000, late := 1 } } : Desc).st = DState.held) ∧
    (({ wStr 0 with blk := { (wStr 0).blk with perst := true } } : State).blk.reaches Requester.host = true ∧
      ({ wStr 0 with blk := { (wStr 0).blk with perst := true } } : State).blk.bud.down = false ∧
      ({ wStr 0 with blk := { (wStr 0).blk with perst := true } } : State).blk.hostHeld = true) ∧
    (wStrOld.blk.reaches Requester.host = true ∧ wStrOld.blk.bud.down = false ∧ wStrOld.blk.hostHeld = false ∧
      isStream 9 = true ∧ fieldOf 33 11 0 < wStrOld.blk.ringSize 9 ∧
      Prevails Requester.host (Reg.STR_TAIL 9) wStrOld) ∧ (((wStr 1).blk.str 9).fetching ≠ 0 ∧
      ((wStr 1).blk.str 9).stale = 0 ∧ (wStr 1).blk.strEn 9 = true ∧ (FetchEnd.timeout = FetchEnd.timeout ∧
      (wStr 1).blk.host.cplDisable = false ∨ FetchEnd.timeout = FetchEnd.error)) ∧
    (wStrOld.blk.reaches Requester.host = true ∧ wStrOld.blk.bud.down = false ∧ wStrOld.blk.hostHeld = false ∧
      isStream 9 = true ∧ Prevails Requester.host (Reg.HOST_RING_RDIDX 0) wStrOld) ∧
    ({ wStr 1 with blk := { (wStr 1).blk with host := { (wStr 1).blk.host with cplDisable := true } } } :
      State).blk.host.cplDisable = true ∧
    ((wStrOld.blk.str 9).stale ≠ 0 ∧ (FetchEnd.error ≠ FetchEnd.timeout ∨ wStrOld.blk.host.cplDisable = false) ∧
      FetchEnd.error ≠ FetchEnd.timeout) ∧ ((wStrOld.blk.str 9).stale ≠ 0 ∧
      (FetchEnd.timeout ≠ FetchEnd.timeout ∨ wStrOld.blk.host.cplDisable = false)) ∧
    (((wStr 0).blk.str 9).fetching = 0 ∧ ((wStr 0).blk.str 9).stale = 0 ∧ FetchEnd.error ≠ FetchEnd.timeout) ∧
    wStrOld.blk.mayFetch 9 = true := by
  and_intros <;> decide +kernel

theorem witness_InterruptsAndConfiguration :
    (SMap.get (fun _ => { }) sInterruptsAndConfiguration2.blk.host.vecs 0 =
      ({ ends := some 4, again := true, imod := 0 } : Moder) ∧
      ({ ends := some 4, again := true, imod := 0 } : Moder).ends = some 4 ∧
      4 ≤ sInterruptsAndConfiguration2.blk.now ∧ ({ ends := some 4, again := true, imod := 0 } : Moder).again = true ∧
      sInterruptsAndConfiguration2.blk.host.msixEn = true ∧ sInterruptsAndConfiguration2.blk.hostHeld = false ∧
      sInterruptsAndConfiguration2.blk.host.msixMask = false ∧
      sInterruptsAndConfiguration2.blk.bit (Reg.MSIX_TABLE_CTRL (sInterruptsAndConfiguration2.blk.vecOf 0)) 0 = false ∧
      sInterruptsAndConfiguration2.blk.host.bme = true ∧ sInterruptsAndConfiguration2.blk.host.d3hot = false ∧
      sInterruptsAndConfiguration2.blk.host.dlUp = true) ∧
    (SMap.get (fun _ => { }) sInterruptsAndConfiguration1.blk.host.vecs 0 =
      ({ ends := some 4, again := true, imod := 0 } : Moder) ∧
      ({ ends := some 4, again := true, imod := 0 } : Moder).ends = some 4 ∧
      4 ≤ sInterruptsAndConfiguration1.blk.now ∧ ({ ends := some 4, again := true, imod := 0 } : Moder).again = true ∧
      sInterruptsAndConfiguration1.blk.host.msixEn = true ∧ sInterruptsAndConfiguration1.blk.hostHeld = false ∧
      (sInterruptsAndConfiguration1.blk.host.msixMask = true ∨ sInterruptsAndConfiguration1.blk.bit
        (Reg.MSIX_TABLE_CTRL (sInterruptsAndConfiguration1.blk.vecOf 0)) 0 = true)) ∧
    (SMap.get (fun _ => { }) sInterruptsAndConfiguration3.blk.host.vecs 40 =
      ({ ends := some 4, again := false, imod := 7 } : Moder) ∧
      ({ ends := some 4, again := false, imod := 7 } : Moder).ends = some 4 ∧
      4 ≤ sInterruptsAndConfiguration3.blk.now ∧
      ({ ends := some 4, again := false, imod := 7 } : Moder).again = false) ∧
    (sInterruptsAndConfiguration3.blk.cfgReady = true ∧ sInterruptsAndConfiguration3.blk.host.dlUp = true) ∧
    (sInterruptsAndConfiguration4.blk.cfgReady = false ∧ sInterruptsAndConfiguration4.blk.perst = false ∧
      sInterruptsAndConfiguration4.blk.stage_ ≠ 0) := by
  and_intros <;> decide +kernel

theorem witness_BudgetAndShutdown :
    ((wBud {} []).blk.reaches Requester.svc = true ∧ (wBud {} []).blk.bud.down = false ∧
      (wBud {} []).blk.bud.calcStep ≤ 4 ∧ (BitVec.ofNat 21 Reg.BUD_CTL).toNat = Reg.BUD_CTL ∧
      Prevails Requester.svc Reg.BUD_CTL (wBud {} [])) ∧ (2 ≤ wStop.blk.stage_ ∧ wStop.blk.bud.evalAt = none ∧
      wStop.blk.bud.lastRef + wStop.blk.staleTu ≤ wStop.blk.now) ∧ (1 ≤ wShut.blk.stage_ ∧
      wShut.blk.bud.calcStep ≤ 4 ∧ (∀ (h : Nat), h < 24 → wShut.blk.calState h ≠ 5)) ∧ (2 ≤ wShut.blk.stage_ ∧
      wShut.blk.bud.evalAt = some 640000000 ∧ 640000000 ≤ wShut.blk.now) ∧ (wShut.blk.reaches Requester.svc = true ∧
      Prevails Requester.svc Reg.THM_AMB wShut) ∧ (wStop.blk.reaches Requester.host = true ∧
      wStop.blk.bud.evalAt = none) ∧ wStop.blk.mayStop = true := by
  and_intros <;> decide +kernel

set_option maxRecDepth 100000 in
theorem witness_LedgerWrites :
    (3 ≤ sLedgerWrites4.blk.stage_ ∧ sLedgerWrites4.blk.ldg.prog = none ∧ sLedgerWrites4.blk.coreLow = false ∧
      sLedgerWrites4.blk.bud.down = false ∧
      sLedgerWrites4.blk.nextWrite = some (LdgReq.shutdown (List.replicate 16 3)) ∧
      ({ req := .shutdown (List.replicate 16 3), seq := LdgReq.seqAt sLedgerWrites4.blk (.shutdown (List.replicate 16 3)), pages := toPages (shutdownBytes (List.replicate 16 3) sLedgerWrites4.blk) } : LdgProg) = { req := LdgReq.shutdown (List.replicate 16 3), seq := LdgReq.seqAt sLedgerWrites4.blk (LdgReq.shutdown (List.replicate 16 3)), pages := toPages (shutdownBytes (List.replicate 16 3) sLedgerWrites4.blk) }) ∧
    (3 ≤ sLedgerWrites1.blk.stage_ ∧ sLedgerWrites1.blk.ldg.prog = none ∧ sLedgerWrites1.blk.coreLow = false ∧
      sLedgerWrites1.blk.bud.down = false ∧ sLedgerWrites1.blk.bud.shutting = false ∧
      sLedgerWrites1.blk.nextWrite = some (LdgReq.log 7 2 false 5 (List.replicate 12 0))) ∧
    (3 ≤ sLedgerWrites5.blk.stage_ ∧ sLedgerWrites5.blk.ldg.prog = none ∧ sLedgerWrites5.blk.coreLow = false ∧
      sLedgerWrites5.blk.bud.down = false ∧ sLedgerWrites5.blk.bud.shutting = false ∧
      sLedgerWrites5.blk.nextWrite = some (LdgReq.twin 2 0 (List.replicate 16 3))) ∧
    (sLedgerWrites6.blk.reaches Requester.host = true ∧ sLedgerWrites6.blk.bud.down = false ∧
      128 ≤ sLedgerWrites6.blk.fld Reg.LDG_UKIND 7 0 ∧ sLedgerWrites6.blk.fld Reg.LDG_UKIND 7 0 ≤ 191 ∧
      (udirEntry (udirOf sLedgerWrites6.blk).fst (sLedgerWrites6.blk.fld Reg.LDG_UKIND 7 0)).snd.snd = true) ∧
    (3 ≤ sLedgerWrites7.blk.stage_ ∧ sLedgerWrites7.blk.ldg.prog = none ∧ sLedgerWrites7.blk.coreLow = false ∧
      sLedgerWrites7.blk.bud.down = false ∧ sLedgerWrites7.blk.bud.shutting = false ∧
      sLedgerWrites7.blk.nextWrite = some (LdgReq.raw [(196608, 1), (196671, 2), (196672, 3)])) ∧
    (1 ≤ sLedgerWrites3.blk.stage_ ∧ sLedgerWrites3.blk.ldg.prog = some prog2 ∧
      sLedgerWrites3.blk.bud.shutting = true ∧ sLedgerWrites3.blk.ldg.held = [] ∧ prog2.req.isShutdown = false ∧
      1 < prog2.pages.length) ∧ (3 ≤ sLedgerWrites10.blk.stage_ ∧ sLedgerWrites10.blk.ldg.prog = none ∧
      sLedgerWrites10.blk.coreLow = false ∧ sLedgerWrites10.blk.bud.down = false ∧
      sLedgerWrites10.blk.bud.shutting = true ∧ sLedgerWrites10.blk.ldg.queue.any LdgReq.isShutdown = false) ∧
    (sLedgerWrites8.blk.reaches Requester.svc = true ∧ sLedgerWrites8.blk.bud.down = false ∧
      sLedgerWrites8.blk.writeHeld (524288 + (182272 : BitVec 21).toNat / 4 * 4) = false ∧
      inUserArea ((182272 : BitVec 21).toNat / 4 * 4) = true) ∧ (sLedgerWrites10.blk.reaches Requester.host = true ∧
      sLedgerWrites10.blk.bud.down = false ∧
      sLedgerWrites10.blk.writeHeld (524288 + (0 : BitVec 21).toNat / 4 * 4) = false ∧
      inUserArea ((0 : BitVec 21).toNat / 4 * 4) = false) ∧ (3 ≤ sLedgerWrites2.blk.stage_ ∧
      sLedgerWrites2.blk.ldg.wantJsum = true ∧ sLedgerWrites2.blk.jsumDue = true) ∧
    (wLdgOld.blk.reaches Requester.host = true ∧ wLdgOld.blk.bud.down = false ∧
      (wLdgOld.blk.fld Reg.LDG_UKIND 7 0 < 128 ∨ 191 < wLdgOld.blk.fld Reg.LDG_UKIND 7 0 ∨ (udirEntry (udirOf
        wLdgOld.blk).fst (wLdgOld.blk.fld Reg.LDG_UKIND 7 0)).snd.snd = false)) ∧
    (sLedgerWrites9.blk.reaches Requester.svc = true ∧ sLedgerWrites9.blk.bud.down = false ∧
      sLedgerWrites9.blk.writeHeld (524288 + (182271 : BitVec 21).toNat / 4 * 4) = true) ∧
    (1 ≤ sLedgerWrites9.blk.stage_ ∧ sLedgerWrites9.blk.ldg.prog = some prog1 ∧
      sLedgerWrites9.blk.bud.shutting = false ∧ sLedgerWrites9.blk.ldg.held = []) ∧ (3 ≤ wLdgOld.blk.stage_ ∧
      wLdgOld.blk.countersDue = true) := by
  and_intros <;> decide +kernel

theorem witness_ServiceTarget :
    (2 ≤ sServiceTarget2.blk.stage_ ∧
      sServiceTarget2.blk.svc.tgt = some ({ hdr := some (true, true, 0x1FFFFC), next := some 9 } : Tgt) ∧
      ({ hdr := some (true, true, 0x1FFFFC), next := some 9 } : Tgt).bad = false ∧
      ({ hdr := some (true, true, 0x1FFFFC), next := some 9 } : Tgt).hdr = some (true, true,
        (2097148 : BitVec 21).toNat) ∧
      ({ hdr := some (true, true, 0x1FFFFC), next := some 9 } : Tgt).next = some 9 ∧
      (inLedger ((2097148 : BitVec 21).toNat) && sServiceTarget2.blk.ldg.prog.isSome) = false ∧
      sServiceTarget2.blk.journalLost ((2097148 : BitVec 21).toNat) = false) ∧ (2 ≤ sServiceTarget1.blk.stage_ ∧
      sServiceTarget1.blk.svc.tgt = some ({ hdr := some (true, false, 0x80000), next := some 9 } : Tgt) ∧
      ({ hdr := some (true, false, 0x80000), next := some 9 } : Tgt).bad = false ∧
      ({ hdr := some (true, false, 0x80000), next := some 9 } : Tgt).hdr = some (true, false,
        (524288 : BitVec 21).toNat) ∧
      ({ hdr := some (true, false, 0x80000), next := some 9 } : Tgt).next = some 9 ∧
      (inLedger ((524288 : BitVec 21).toNat) && sServiceTarget1.blk.ldg.prog.isSome) = true) ∧
    (2 ≤ sServiceTarget3.blk.stage_ ∧
      sServiceTarget3.blk.svc.tgt = some ({ hdr := some (false, true, Reg.SVC_AMB_CMD) } : Tgt) ∧
      ({ hdr := some (false, true, Reg.SVC_AMB_CMD) } : Tgt).bad = false ∧
      ({ hdr := some (false, true, Reg.SVC_AMB_CMD) } : Tgt).hdr = some (false, true,
        (BitVec.ofNat 21 Reg.SVC_AMB_CMD).toNat) ∧
      (BitVec.ofNat 21 Reg.SVC_AMB_CMD).toNat = Reg.SVC_AMB_CMD ∧ sServiceTarget3.blk.bud.down = false) ∧
    (2 ≤ sServiceTarget4.blk.stage_ ∧
      sServiceTarget4.blk.svc.tgt = some ({ hdr := some (true, true, 0x1FFFFC) } : Tgt) ∧
      ({ hdr := some (true, true, 0x1FFFFC) } : Tgt).bad = false ∧
      ({ hdr := some (true, true, 0x1FFFFC) } : Tgt).hdr = some (true, true, (2097148 : BitVec 21).toNat) ∧
      ({ hdr := some (true, true, 0x1FFFFC) } : Tgt).next = none) ∧
    ((wSvc (sel1 {}) []).blk.reaches Requester.svc = true ∧ (wSvc (sel1 {}) []).blk.bud.down = false ∧
      (BitVec.ofNat 21 Reg.SVC_CTL).toNat = Reg.SVC_CTL ∧ Prevails Requester.svc Reg.SVC_CTL (wSvc (sel1 {}) [])) ∧
    (2 ≤ (wSvc (sel1 {}) []).blk.stage_ ∧ (wSvc (sel1 {}) []).blk.svc.tgt = some ({} : Tgt) ∧ ({} : Tgt).hdr = none ∧
      ({} : Tgt).bad = false ∧ fieldOf 2147483648 29 21 = 0 ∧ fieldOf 2147483648 1 0 = 0) ∧
    (2 ≤ (wSvc (sel1 {}) []).blk.stage_ ∧ (wSvc (sel1 {}) []).blk.svc.tgt = some ({} : Tgt) ∧ ({} : Tgt).hdr = none ∧
      ({} : Tgt).bad = false ∧ (fieldOf 2 29 21 ≠ 0 ∨ fieldOf 2 1 0 ≠ 0)) ∧ (2 ≤ sServiceTarget5.blk.stage_ ∧
      sServiceTarget5.blk.svc.tgt = some ({ bad := true } : Tgt) ∧ ({ bad := true } : Tgt).bad = true) ∧
    (2 ≤ (wSvc { sel := true } []).blk.stage_ ∧ (wSvc { sel := true } []).blk.svc.sel = true ∧
      (wSvc { sel := true } []).blk.svc.tgt = none) ∧ (2 ≤ (wSvc (sel1 {}) []).blk.stage_ ∧
      (wSvc (sel1 {}) []).blk.svc.sel = true ∧ (wSvc (sel1 {}) []).blk.svc.tgt = some ({} : Tgt)) ∧
    (2 ≤ sServiceTarget6.blk.stage_ ∧ sServiceTarget6.blk.svc.sel = false) ∧
    (st { up with stage_ := 1 }).blk.stage_ < 2 := by
  and_intros <;> decide +kernel

theorem witness_ServiceController :
    (2 ≤ sServiceController1.blk.stage_ ∧
      sServiceController1.blk.svc.xfer = some ({ xfer1 with poll := true, st := .driving } : Xfer) ∧
      ({ xfer1 with poll := true, st := .driving } : Xfer).st = XferSt.driving ∧
      sServiceController1.blk.svc.sel = false ∧ ({ xfer1 with poll := true, st := .driving } : Xfer).poll = true ∧
      BitVec.toNat (([0,
        400] : List Word).getD 1 4294967295) % 2 ^ ({ xfer1 with poll := true, st := .driving } : Xfer).wlen ≠ 0 ∧
      BitVec.toNat (([0,
        400] : List Word).getD 1 4294967295) % 2 ^ ({ xfer1 with poll := true, st := .driving } : Xfer).wlen ≠ 2 ^
          ({ xfer1 with poll := true, st := .driving } : Xfer).wlen - 1 ∧
      ambientOf 8 0 144 = ambientOf ({ xfer1 with poll := true, st := .driving } : Xfer).wlen
        (sServiceController1.blk.fld Reg.SVC_AMB_CTL 19 16) (BitVec.toNat (([0, 400] : List Word).getD 1 4294967295) %
        2 ^ ({ xfer1 with poll := true, st := .driving } : Xfer).wlen) ∧
      sServiceController1.blk.bud.ambHost = some sServiceController1.blk.now) ∧ (2 ≤ sServiceController7.blk.stage_ ∧
      sServiceController7.blk.svc.xfer = some ({ xfer1 with st := .driving, poll := true } : Xfer) ∧
      ({ xfer1 with st := .driving, poll := true } : Xfer).st = XferSt.driving ∧
      sServiceController7.blk.svc.sel = false ∧ ({ xfer1 with st := .driving, poll := true } : Xfer).poll = true ∧
      BitVec.toNat (([0,
        400] : List Word).getD 1 4294967295) % 2 ^ ({ xfer1 with st := .driving, poll := true } : Xfer).wlen ≠ 0 ∧
      BitVec.toNat (([0,
        400] : List Word).getD 1 4294967295) % 2 ^ ({ xfer1 with st := .driving, poll := true } : Xfer).wlen ≠ 2 ^
          ({ xfer1 with st := .driving, poll := true } : Xfer).wlen - 1 ∧
      sServiceController7.blk.bud.ambHost ≠ some sServiceController7.blk.now) ∧ (2 ≤ sServiceController5.blk.stage_ ∧
      sServiceController5.blk.bit Reg.SVC_AMB_CTL 0 = true ∧ sServiceController5.blk.bit Reg.SVC_CTL 1 = true ∧
      sServiceController5.blk.svc.pollFrom + max 1 (sServiceController5.blk.fld Reg.SVC_AMB_CTL 31 20) * tuMs ≤
        sServiceController5.blk.now ∧
      sServiceController5.blk.svc.xfer = some ({ xfer1 with st := .driving } : Xfer) ∧
      ({ xfer1 with st := .driving } : Xfer).poll = false ∧
      ({ xfer1 with st := .driving } : Xfer).st ≠ XferSt.waiting) ∧ (2 ≤ sServiceController6.blk.stage_ ∧
      sServiceController6.blk.bit Reg.SVC_AMB_CTL 0 = true ∧ sServiceController6.blk.bit Reg.SVC_CTL 1 = true ∧
      sServiceController6.blk.svc.pollFrom + max 1 (sServiceController6.blk.fld Reg.SVC_AMB_CTL 31 20) * tuMs ≤
        sServiceController6.blk.now ∧
      sServiceController6.blk.svc.xfer = some ({ xfer1 with poll := true } : Xfer) ∧
      ({ xfer1 with poll := true } : Xfer).poll = true) ∧ (2 ≤ sServiceController7.blk.stage_ ∧
      sServiceController7.blk.svc.xfer = some ({ xfer1 with st := .driving, poll := true } : Xfer) ∧
      ({ xfer1 with st := .driving, poll := true } : Xfer).st = XferSt.driving ∧
      sServiceController7.blk.svc.sel = false ∧ ({ xfer1 with st := .driving, poll := true } : Xfer).poll = true ∧
      (BitVec.toNat (([0,
        0] : List Word).getD 1 4294967295) % 2 ^ ({ xfer1 with st := .driving, poll := true } : Xfer).wlen = 0 ∨
          BitVec.toNat (([0, 0] : List Word).getD 1 4294967295) % 2 ^ ({ xfer1 with st := .driving, poll := true } :
          Xfer).wlen = 2 ^ ({ xfer1 with st := .driving, poll := true } : Xfer).wlen - 1)) ∧
    (2 ≤ sServiceController2.blk.stage_ ∧
      sServiceController2.blk.svc.xfer = some ({ xfer1 with st := .driving } : Xfer) ∧
      ({ xfer1 with st := .driving } : Xfer).st = XferSt.driving ∧ sServiceController2.blk.svc.sel = true ∧
      max 1 (sServiceController2.blk.fld Reg.SVC_CTL 31 28) ≤ ({ xfer1 with st := .driving } : Xfer).collisions + 1 ∧
      ({ xfer1 with st := .driving } : Xfer).poll = false) ∧ (2 ≤ sServiceController4.blk.stage_ ∧
      sServiceController4.blk.svc.xfer = some ({ xfer1 with st := .driving, poll := true } : Xfer) ∧
      ({ xfer1 with st := .driving, poll := true } : Xfer).st = XferSt.driving ∧
      sServiceController4.blk.svc.sel = true ∧
      max 1 (sServiceController4.blk.fld Reg.SVC_CTL 31 28) ≤ ({ xfer1 with st := .driving, poll := true } :
        Xfer).collisions + 1 ∧
      ({ xfer1 with st := .driving, poll := true } : Xfer).poll = true) ∧ (2 ≤ sServiceController8.blk.stage_ ∧
      sServiceController8.blk.bit Reg.SVC_AMB_CTL 0 = true ∧ sServiceController8.blk.bit Reg.SVC_CTL 1 = true ∧
      sServiceController8.blk.svc.pollFrom + max 1 (sServiceController8.blk.fld Reg.SVC_AMB_CTL 31 20) * tuMs ≤
        sServiceController8.blk.now ∧
      sServiceController8.blk.svc.xfer = some xfer1 ∧ xfer1.poll = false ∧ xfer1.st = XferSt.waiting) ∧
    (2 ≤ sServiceController3.blk.stage_ ∧
      sServiceController3.blk.svc.xfer = some ({ xfer1 with st := .driving } : Xfer) ∧
      ({ xfer1 with st := .driving } : Xfer).st = XferSt.driving ∧ sServiceController3.blk.svc.sel = true ∧
      ({ xfer1 with st := .driving } : Xfer).collisions + 1 < max 1 (sServiceController3.blk.fld Reg.SVC_CTL 31 28)) ∧
    (2 ≤ sServiceController10.blk.stage_ ∧ sServiceController10.blk.bit Reg.SVC_AMB_CTL 0 = true ∧
      sServiceController10.blk.bit Reg.SVC_CTL 1 = true ∧
      sServiceController10.blk.svc.pollFrom + max 1 (sServiceController10.blk.fld Reg.SVC_AMB_CTL 31 20) * tuMs ≤
        sServiceController10.blk.now ∧
      sServiceController10.blk.svc.xfer = none) ∧ (2 ≤ sServiceController8.blk.stage_ ∧
      sServiceController8.blk.svc.xfer = some xfer1 ∧ (Instr.busIdleExpiry = Instr.busIdleExpiry ∧
      xfer1.st = XferSt.waiting ∧ 0 = 0 ∨ Instr.busIdleExpiry = Instr.backoffExpiry ∧ xfer1.st = XferSt.backoff ∧
      0 = sServiceController8.blk.fld Reg.SVC_CTL 23 16) ∧ sServiceController8.blk.busIdle 0 = true) ∧
    (2 ≤ sServiceController9.blk.stage_ ∧
      sServiceController9.blk.svc.xfer = some ({ xfer1 with st := .driving } : Xfer) ∧
      ({ xfer1 with st := .driving } : Xfer).st = XferSt.driving ∧ sServiceController9.blk.svc.sel = false ∧
      ({ xfer1 with st := .driving } : Xfer).poll = false ∧ ({ xfer1 with st := .driving } : Xfer).words.length ≤ 16 ∧
      ({ xfer1 with st := .driving } : Xfer).words.length ≤ 2) ∧
    (sServiceController11.blk.reaches Requester.host = true ∧ sServiceController11.blk.bud.down = false ∧
      sServiceController11.blk.fld Reg.SVC_MCTL 1 0 ≠ 0 ∧
      (sServiceController11.blk.bit Reg.SVC_STAT 0 = true ∨ sServiceController11.blk.bit Reg.SVC_CTL 1 = false)) ∧
    (sServiceController12.blk.reaches Requester.host = true ∧ sServiceController12.blk.bud.down = false ∧
      sServiceController12.blk.fld Reg.SVC_MCTL 1 0 ≠ 0 ∧ sServiceController12.blk.bit Reg.SVC_STAT 0 = false ∧
      sServiceController12.blk.bit Reg.SVC_CTL 1 = true) ∧ (sServiceController13.blk.reaches Requester.host = true ∧
      sServiceController13.blk.bud.down = false ∧ sServiceController13.blk.fld Reg.SVC_MCTL 1 0 = 0) := by
  and_intros <;> decide +kernel

theorem witness_PairFrames :
    (sPairFrames2.blk.unitsOn = true ∧ sPairFrames2.blk.hears = true ∧ sPairFrames2.blk.standby = true ∧
      (sPairFrames2.blk.actE 5).st = 1 ∧ (sPairFrames2.blk.actE 5).held = true ∧
      (sPairFrames2.blk.actE 5).reached.isSome = true ∧
      ((sPairFrames2.blk.actE 5).kind = 1 ∨ (sPairFrames2.blk.actE 5).kind = 2)) ∧ (sPairFrames1.blk.unitsOn = true ∧
      sPairFrames1.blk.hears = true ∧ List.find? (sameSubject (dig2 6)) sPairFrames1.blk.pair.own = some (dig2 5) ∧
      (dig2 5).value ≠ (dig2 6).value ∧ sPairFrames1.blk.bit Reg.PAIR_STAT 8 = false) ∧ (wPairDiv.blk.unitsOn = true ∧
      wPairDiv.blk.hears = true ∧ wPairDiv.blk.bit Reg.PAIR_STAT 8 = true ∧
      wPairDiv.blk.num Reg.PAIR_DIV = 4 * 256 + (crcs1 5).head.toNat ∧
      wPairDiv.blk.rd Reg.PAIR_DIV_FRAME = (crcs1 5).frame ∧
      List.find? (fun o => o.kind == (crcs1 5).kind && o.head == (crcs1 5).head && o.frame == (crcs1 5).frame)
        wPairDiv.blk.pair.ownCrcs = some (crcs1 9) ∧
      firstDiffer (crcs1 9).crcs (crcs1 5).crcs = some 65534 ∧ wPairDiv.blk.fld Reg.PAIR_DIV_LINE 15 0 = 65535) ∧
    ((wPair 5 0x30 withPartner).blk.unitsOn = true ∧ (wPair 5 0x30 withPartner).blk.hears = true ∧
      (wPair 5 0x30 withPartner).blk.pair.recover = none ∧
      ((wPair 5 0x30 withPartner).blk.role = 0 ∨ (wPair 5 0x30 withPartner).blk.role = 2 ∧
      (wPair 5 0x30 withPartner).blk.joinSt = 0) ∧ (wPair 5 0x30 withPartner).blk.pair.joinOver = false) ∧
    ((wPairLink 2 0x39).blk.unitsOn = true ∧ (wPairLink 2 0x39).blk.hears = true ∧ (wPairLink 2 0x39).blk.role = 1 ∧
      (wPairLink 2 0x39).blk.pair.recover = none ∧ (wPairLink 2 0x39).blk.released = false) ∧
    ((wPairEnt ent1).blk.unitsOn = true ∧ (wPairEnt ent1).blk.hears = true ∧ (wPairEnt ent1).blk.standby = true ∧
      ((wPairEnt ent1).blk.actE 5).st = 1 ∧ ((wPairEnt ent1).blk.actE 5).held = false) ∧
    ((wPairLink 4 0x3A).blk.unitsOn = true ∧ (wPairLink 4 0x3A).blk.hears = true ∧ (hb1 2).nak = true ∧
      (PairLink.acked (hb1 2).ack (wPairLink 4 0x3A).blk.trail.link).spent = true) ∧ (wPairDiv.blk.unitsOn = true ∧
      wPairDiv.blk.member = true ∧ wPairDiv.blk.bit Reg.PAIR_STAT 4 = true ∧
      wPairDiv.blk.pair.lastHb + 10 * tuUs ≤ wPairDiv.blk.now) ∧ (wPairDiv.blk.unitsOn = true ∧
      wPairDiv.blk.hears = true ∧ wPairDiv.blk.standby = true ∧ Prevails Requester.host (Reg.POS_FILT 7) wPairDiv) ∧
    (wPairNoTake.blk.unitsOn = true ∧ wPairNoTake.blk.hears = true ∧ wPairNoTake.blk.standby = true ∧
      wPairNoTake.blk.mayTakeOver = false) ∧ (wPairDiv.blk.unitsOn = true ∧ wPairDiv.blk.hears = true ∧
      wPairDiv.blk.standby = true ∧ wPairDiv.blk.b2Denied 17179869183 = false) ∧ (wPairDiv.blk.unitsOn = true ∧
      wPairDiv.blk.hears = true ∧ List.find? (sameSubject (dig2 6)) wPairDiv.blk.pair.own = none) ∧
    (wPairDiv.blk.unitsOn = true ∧ wPairDiv.blk.hears = true ∧ wPairDiv.blk.standby = true ∧
      (wPairDiv.blk.actE 4095).st = 0) ∧ (wPairDiv.blk.unitsOn = true ∧ wPairDiv.blk.hears = true ∧
      wPairDiv.blk.standby = true ∧ wPairDiv.blk.mayTakeOver = true) ∧ (wPairDiv.blk.unitsOn = true ∧
      wPairDiv.blk.hears = true ∧ wPairDiv.blk.pair.recover = none ∧ wPairDiv.blk.role = 2) ∧
    (wPairDiv.blk.unitsOn = true ∧ wPairDiv.blk.hears = true ∧ ({ hb1 2 with nak := false } : HbFrame).nak = false) ∧
    (wPairDiv.blk.unitsOn = true ∧ wPairDiv.blk.hears = true ∧ (hb1 2).echo ≠ 0) := by
  and_intros <;> decide +kernel

theorem witness_PairRoles :
    (sPairRoles1.blk.unitsOn = true ∧ sPairRoles1.blk.member = true ∧ sPairRoles1.blk.bit Reg.PAIR_STAT 5 = true ∧
      sPairRoles1.blk.pair.lastRx + (sPairRoles1.blk.fld Reg.PAIR_CTL 13 12 + 1) * 10 * tuUs ≤ sPairRoles1.blk.now ∧
      sPairRoles1.blk.standby = true ∧ sPairRoles1.blk.joinSt = 1) ∧ (sPairRoles1.blk.unitsOn = true ∧
      sPairRoles1.blk.member = true ∧ sPairRoles1.blk.standby = true ∧ sPairRoles1.blk.joinSt = 1 ∧
      sPairRoles1.blk.pair.bulkDone = true ∧
      (∀ h < 24, sPairRoles1.blk.bound h = true → h ∈ sPairRoles1.blk.pair.joinSeen)) ∧
    (sPairRoles5.blk.unitsOn = true ∧ sPairRoles5.blk.member = true ∧ sPairRoles5.blk.bit Reg.PAIR_STAT 5 = true ∧
      sPairRoles5.blk.pair.lastRx + (sPairRoles5.blk.fld Reg.PAIR_CTL 13 12 + 1) * 10 * tuUs ≤ sPairRoles5.blk.now ∧
      sPairRoles5.blk.mayTakeOver = true ∧ sPairRoles5.blk.fenceLow = false) ∧ (sPairRoles3.blk.unitsOn = true ∧
      sPairRoles3.blk.member = true ∧ sPairRoles3.blk.pair.enAt = some 0 ∧ sPairRoles3.blk.role = 0 ∧
      sPairRoles3.blk.pair.partner = none ∧ 0 + 1000 * tuMs ≤ sPairRoles3.blk.now ∧
      sPairRoles3.blk.fenceLow = false) ∧ (sPairRoles4.blk.unitsOn = true ∧ sPairRoles4.blk.member = true ∧
      sPairRoles4.blk.pair.enAt = some 0 ∧ sPairRoles4.blk.role = 0 ∧ sPairRoles4.blk.pair.partner = none ∧
      0 + 1000 * tuMs ≤ sPairRoles4.blk.now ∧ sPairRoles4.blk.fenceLow = true) ∧ (sPairRoles2.blk.unitsOn = true ∧
      sPairRoles2.blk.member = true ∧ sPairRoles2.blk.pair.enAt = none ∧ sPairRoles2.blk.pair.recover = some 0 ∧
      sPairRoles2.blk.role = 1 ∧ 0 + 1000 * tuMs ≤ sPairRoles2.blk.now) ∧ ((wGiver true 0x3A).blk.unitsOn = true ∧
      (wGiver true 0x3A).blk.member = true ∧ (wGiver true 0x3A).blk.pair.handAt = some 999900 ∧
      ((wGiver true 0x3A).blk.giver = true ∧ (wGiver true 0x3A).blk.role = 2 ∧
      999900 + 100 ≤ (wGiver true 0x3A).blk.ns ∨ (wGiver true 0x3A).blk.giver = false ∧
      (wGiver true 0x3A).blk.role = 1 ∧ 999900 ≤ (wGiver true 0x3A).blk.ns + 100)) ∧
    ((wGiver true 0x3A).blk.unitsOn = true ∧ (wGiver true 0x3A).blk.member = true ∧
      (wGiver true 0x3A).blk.bit Reg.PAIR_STAT 5 = true ∧
      (wGiver true 0x3A).blk.pair.lastRx + ((wGiver true 0x3A).blk.fld Reg.PAIR_CTL 13 12 + 1) * 10 * tuUs ≤ (wGiver
        true 0x3A).blk.now ∧
      (wGiver true 0x3A).blk.mayTakeOver = true ∧ (wGiver true 0x3A).blk.fenceLow = true) ∧
    ((wGiver true 0x39).blk.unitsOn = true ∧ (wGiver true 0x39).blk.member = true ∧
      (wGiver true 0x39).blk.bit Reg.PAIR_STAT 5 = true ∧
      (wGiver true 0x39).blk.pair.lastRx + ((wGiver true 0x39).blk.fld Reg.PAIR_CTL 13 12 + 1) * 10 * tuUs ≤ (wGiver
        true 0x39).blk.now ∧
      (wGiver true 0x39).blk.standby = false) ∧ ((wGiver true 0x39).blk.reaches Requester.host = true ∧
      (wGiver true 0x39).blk.bud.down = false ∧ (wGiver true 0x39).blk.hears = true ∧
      (wGiver true 0x39).blk.role = 1 ∧
      ((wGiver true 0x39).blk.pair.peerRole = 0 ∨ (wGiver true 0x39).blk.pair.peerRole = 2 ∧
      (wGiver true 0x39).blk.joinSt = 0)) ∧ ((wGiver false 0x3A).blk.unitsOn = true ∧
      (wGiver false 0x3A).blk.member = true ∧ (wGiver false 0x3A).blk.pair.handAt = some 1000100 ∧
      (wGiver false 0x3A).blk.giver = false ∧ (wGiver false 0x3A).blk.role = 2 ∧
      1000100 ≤ (wGiver false 0x3A).blk.ns + 100) ∧ ((wGiver true 0x3A).blk.unitsOn = true ∧
      (wGiver true 0x3A).blk.member = true ∧ (wGiver true 0x3A).blk.standby = true ∧
      (wGiver true 0x3A).blk.bit Reg.PAIR_STAT 5 = true ∧
      (wGiver true 0x3A).blk.pair.phaseAt + tuMs ≤ (wGiver true 0x3A).blk.now) ∧ (sPairRoles4.blk.unitsOn = true ∧
      sPairRoles4.blk.member = true ∧ sPairRoles4.blk.validPartner (partner1 1) = true ∧ sPairRoles4.blk.role = 0) ∧
    ((wGiver true 0x39).blk.unitsOn = true ∧ (wGiver true 0x39).blk.member = true ∧
      (wGiver true 0x39).blk.pair.handAt = some 999900 ∧ (wGiver true 0x39).blk.giver = true ∧
      (wGiver true 0x39).blk.role = 1 ∧ 999900 + 100 ≤ (wGiver true 0x39).blk.ns) ∧
    ((wGiver true 0x39).blk.reaches Requester.host = true ∧ (wGiver true 0x39).blk.bud.down = false ∧
      (wGiver true 0x39).blk.member = true ∧ (wGiver true 0x39).blk.role = 1 ∧ (wGiver true 0x39).blk.joinSt = 2) ∧
    ((wGiver true 0x39).blk.unitsOn = true ∧ (wGiver true 0x39).blk.member = true ∧
      (wGiver true 0x39).blk.validPartner ({ partner1 0 with member := true } : PartnerId) = false) ∧
    ((wGiver true 0x39).blk.unitsOn = true ∧ (wGiver true 0x39).blk.member = true ∧
      (wGiver true 0x39).blk.validPartner (partner1 1) = true ∧ (wGiver true 0x39).blk.role ≠ 0) := by
  and_intros <;> decide +kernel

theorem witness_SuppliesAndResets :
    (sSuppliesAndResets1.blk.reaches Requester.svc = true ∧ sSuppliesAndResets1.blk.bud.shutting = true ∧
      sSuppliesAndResets1.blk.thrAt Reg.THM_THR_SHUT - sSuppliesAndResets1.blk.thrHys 2 ≤ sSuppliesAndResets1.blk.est) ∧
    ((wStart 6 false true true).blk.stage_ ≠ 0 ∧ (wStart 6 false true true).blk.perst = false ∧
      (wStart 6 false true true).blk.perstSeen = true ∧ (wStart 6 false true true).blk.bud.shutting = false) ∧
    (wPerstShut.blk.reaches Requester.host = true ∧ wPerstShut.blk.bud.shutting = true ∧
      wPerstShut.blk.est < wPerstShut.blk.thrAt Reg.THM_THR_SHUT - wPerstShut.blk.thrHys 2) ∧
    ((wStart 6 true true true).blk.stage_ ≠ 0 ∧ (wStart 6 true true true).blk.bit Reg.SUP_STAT 0 = false ∧
      (15, 0) = if 0 % 2 = 1 then (31, 16) else (15, 0)) ∧ ((wStart 6 true true true).blk.stage_ ≠ 0 ∧
      (wStart 6 true true true).blk.perst = true ∧ (wStart 6 true true true).blk.bud.shutting = false) ∧
    ((wStart 0 true false false).blk.stage_ = 0 ∧
      (Instr.supplyReset 7 = Instr.supplyWarning 7 ∨ Instr.supplyReset 7 = Instr.supplyReset 7)) ∧
    (wPerstShut.blk.stage_ ≠ 0 ∧
      (wPerstShut.blk.perst = true ∨ wPerstShut.blk.perstSeen = false ∨ wPerstShut.blk.bud.shutting = true)) ∧
    (sSuppliesAndResets2.blk.stage_ ≠ 0 ∧ sSuppliesAndResets2.blk.bit Reg.SUP_STAT 0 = true) ∧
    ((wStart 6 true true true).blk.reaches Requester.svc = true ∧
      (wStart 6 true true true).blk.bud.shutting = false) ∧ (wPerstShut.blk.stage_ ≠ 0 ∧ wPerstShut.blk.perst = true ∧
      wPerstShut.blk.bud.shutting = true) ∧ (wPerstShut.blk.reaches Requester.host = true ∧
      wPerstShut.blk.bud.down = false) := by
  and_intros <;> decide +kernel

theorem witness_StartUp :
    (sStartUp1.blk.stage_ = 0 ∧ sStartUp1.blk.fld Reg.SUP_STAT 7 0 = 0 ∧
      (∀ (t : Nat), t ∈ sStartUp1.blk.lowTo → t + tuMs ≤ sStartUp1.blk.now)) ∧ (sStartUp2.blk.stage_ = 6 ∧
      sStartUp2.blk.perstSeen = true ∧ sStartUp2.blk.perst = false ∧ sStartUp2.blk.cfgReady = false) ∧
    ((wStartLow 0x80 none).blk.stage_ = 0 ∧
      ((wStartLow 0x80 none).blk.fld Reg.SUP_STAT 7 0 ≠ 0 ∨ ∃ t, t ∈ (wStartLow 0x80 none).blk.lowTo ∧
      (wStartLow 0x80 none).blk.now < t + tuMs)) ∧ (sStartUp3.blk.stage_ = 4 ∧
      (∀ (x : Nat × PosCh), x ∈ sStartUp3.blk.pos → x.snd.wait = none)) ∧ ((wStartWarm 5).blk.stage_ = 5 ∧
      (wStartWarm 5).blk.warmStart = true ∧ (wStartWarm 5).blk.held = []) ∧ ((wStartBad 5).blk.stage_ = 5 ∧
      (wStartBad 5).blk.warmStart = false ∧ (wStartBad 5).blk.held = []) ∧ (wStartPair.blk.stage_ = 2 ∧
      wStartPair.blk.ldg.prog = none) ∧ (wStart 1 false true false).blk.stage_ = 1 ∧ (wStartBad 3).blk.stage_ = 3 ∧
    wStartPair.blk.stage_ ≠ 4 ∧ wStart4.blk.stage_ ≠ 0 ∧ wStart4.blk.stage_ ≠ 1 ∧ wStart4.blk.stage_ ≠ 2 ∧
    wStart4.blk.stage_ ≠ 3 ∧ wStart4.blk.stage_ ≠ 5 ∧ wStart4.blk.stage_ ≠ 6 := by
  and_intros <;> decide +kernel

end Sys2Proof.Tests
end

namespace Sys2Proof.Machine

/-! ### What carrying out a command adds -/

theorem forEach_cons {α β : Type} (x : α) (xs : List α) (f : α → β → β) (b : β) :
    forEach (x :: xs) f b = forEach xs f (f x b) := rfl

/-- What holds of a state and is kept by every listed step holds after them all. -/
theorem forEach_induct {α β : Type} (P : β → Prop) {f : α → β → β} (xs : List α) {b : β} (h : P b)
    (step : ∀ x ∈ xs, ∀ c, P c → P (f x c)) : P (forEach xs f b) := by
  induction xs generalizing b with
  | nil => exact h
  | cons x xs ih =>
    rw [forEach_cons]
    exact ih (step x (by simp) b h) fun y hy => step y (by simp [hy])

/-- Block `t` is `b` after further emissions. -/
def Emitted (b t : Block) : Prop := ∃ o, t = { b with out := o ++ b.out }

theorem Emitted.refl (b : Block) : Emitted b b := ⟨[], rfl⟩

theorem Emitted.emit {b t : Block} (h : Emitted b t) (o : Out) : Emitted b (t.emit o) := by
  obtain ⟨l, rfl⟩ := h
  exact ⟨o :: l, rfl⟩

theorem Emitted.trans {b c t : Block} (h : Emitted b c) (k : Emitted c t) : Emitted b t := by
  obtain ⟨l, rfl⟩ := h
  obtain ⟨m, rfl⟩ := k
  exact ⟨m ++ l, by simp⟩

/-- Balls that follow their drives are told of, and nothing else changes. -/
theorem emitted_ballsSettle (old b : Block) : Emitted b (ballsSettle old b) := by
  have loop (told : List Out) : Emitted b (forEach (List.range 16) (fun k b =>
      if b.eoDrive k = old.eoDrive k || told.any (fun o => match o with
        | .eo j d _ => j == k && d == b.eoDrive k
        | _ => false)
      then b else b.emit (.eo k (b.eoDrive k) b.inst.t16)) b) := by
    refine forEach_induct _ _ (.refl b) fun k _ c hc => ?_
    split
    · exact hc
    · exact hc.emit _
  unfold ballsSettle
  dsimp only
  split <;> split
  · exact loop _
  · exact (loop _).emit _
  · exact (loop _).emit _
  · exact ((loop _).emit _).emit _

theorem emitted_idleSince (old b : Block) : Emitted b (idleSince old b) := by
  refine forEach_induct _ _ (.refl b) fun h _ c hc => ?_
  split
  · exact hc
  · exact hc.emit _

theorem mem_out_sendMsix {e : Out} (v : Nat) {b : Block} (h : e ∈ b.out) : e ∈ (sendMsix v b).out := by
  unfold sendMsix
  split
  · exact h
  · split
    · exact h
    · split
      · exact List.mem_cons_of_mem _ h
      · exact h

theorem mem_out_signalVec {e : Out} (src imod : Nat) {b : Block} (h : e ∈ b.out) : e ∈ (signalVec src imod b).out := by
  unfold signalVec
  dsimp only
  split
  · exact h
  · split
    · exact h
    · split <;> exact mem_out_sendMsix _ h

/-- Block `t` is `b` after what carrying out a command adds (R356, R374): emissions, the moderation and the pending bits
of vector 0, notes of the cycle and of the journal. -/
structure Settles (b t : Block) : Prop where
  frame : t = { b with regs := t.regs, cyc := t.cyc, out := t.out, trail := t.trail,
                       host := { b.host with vecs := t.host.vecs } }
  rd : ∀ off, off ≠ Reg.MSIX_PBA 0 → t.rd off = b.rd off
  out : ∀ e ∈ b.out, e ∈ t.out

namespace Settles

theorem refl (b : Block) : Settles b b := ⟨rfl, fun _ _ => rfl, fun _ h => h⟩

theorem trans {b c t : Block} (h : Settles b c) (k : Settles c t) : Settles b t where
  frame := by
    have hf := h.frame
    have kf := k.frame
    rw [hf] at kf
    exact kf
  rd off ho := (k.rd off ho).trans (h.rd off ho)
  out e he := k.out e (h.out e he)

theorem of_emitted {b t : Block} (h : Emitted b t) : Settles b t := by
  obtain ⟨o, rfl⟩ := h
  exact ⟨rfl, fun _ _ => rfl, fun _ he => List.mem_append_right _ he⟩

theorem trail (b : Block) (l : Trail) : Settles b { b with trail := l } := ⟨rfl, fun _ _ => rfl, fun _ h => h⟩

theorem noteWrite (b : Block) (k off : Nat) : Settles b (b.noteWrite k off) := ⟨rfl, fun _ _ => rfl, fun _ h => h⟩

theorem signalSummary (b : Block) (imod : Nat) : Settles b (signalVec 0 imod b) := by
  obtain ⟨r, o, x, e, hr⟩ := signalVec_eq 0 imod b
  refine ⟨by rw [e], fun off ho => ?_, fun _ he => mem_out_signalVec 0 imod he⟩
  rw [e]
  exact hr off (by simpa [Block.vecOf] using ho)

theorem requestSummary (old b : Block) : Settles b (requestSummary old b) := by
  unfold Machine.requestSummary
  split
  · exact refl b
  · exact signalSummary b _

theorem writeEvents (old : Block) (off : Nat) (val : Word) (b : Block) : Settles b (writeEvents old off val b) := by
  unfold Machine.writeEvents
  split
  · exact signalSummary b _
  · exact refl b

theorem mirror (w : PairWrite) (b : Block) : Settles b (mirror w b) := by
  unfold Machine.mirror pairSend
  split
  · exact (of_emitted ⟨[_], rfl⟩).trans (trail _ _)
  · exact refl b

theorem settle (old b : Block) : Settles b (settle old b) :=
  (((requestSummary old b).trans (of_emitted (emitted_ballsSettle old _))).trans
    (of_emitted (emitted_idleSince old _))).trans (trail _ _)

variable {b t : Block}

theorem core (h : Settles b t) : t.core = b.core := (congrArg Block.core h.frame).trans rfl

theorem now (h : Settles b t) : t.now = b.now := (congrArg Block.now h.frame).trans rfl

theorem hbm (h : Settles b t) : t.hbm = b.hbm := (congrArg Block.hbm h.frame).trans rfl

theorem heads (h : Settles b t) : t.heads = b.heads := (congrArg Block.heads h.frame).trans rfl

theorem bad (h : Settles b t) : t.bad = b.bad := (congrArg Block.bad h.frame).trans rfl

theorem ldg (h : Settles b t) : t.ldg = b.ldg := (congrArg Block.ldg h.frame).trans rfl

theorem aer (h : Settles b t) : t.host.aer = b.host.aer := (congrArg (fun x => x.host.aer) h.frame).trans rfl

end Settles

/-- What a command that does `f` ends with: `f`'s block, settled, the clock where it stood. -/
theorem ends_of_carryOut {c : Instr} {f : Block → Block} {s : State} {P : Block → Prop} (hc : exec c s = carryOut f s)
    (hP : ∀ t, Settles (f s.blk) t → P { t with now := s.blk.now }) : Ends c s P :=
  ⟨_, hc, rfl, rfl, hP _ (.settle _ _)⟩

/-- The same for an `f` that leaves the clock alone. -/
theorem ends_of_carryOut_now {c : Instr} {f : Block → Block} {s : State} {P : Block → Prop}
    (hc : exec c s = carryOut f s) (hn : (f s.blk).now = s.blk.now) (hP : ∀ t, Settles (f s.blk) t → P t) : Ends c s P := by
  refine ends_of_carryOut hc fun t ht => ?_
  rw [← hn, ← ht.now]
  exact hP t ht

end Sys2Proof.Machine

namespace Sys2Proof.Machine

/-! ### Registers after the named operations -/

section
variable (b : Block)

theorem Block.rd_setFld (off hi lo v o : Nat) :
    (b.setFld off hi lo v).rd o = if o = off then setFieldOf (b.rd off) hi lo v else b.rd o := b.rd_wr _ _ _

@[simp] theorem Block.rd_setUpd (off : Nat) (w : Word) (o : Nat) : (b.setUpd off w).rd o = b.rd o := rfl

@[simp] theorem Block.rd_noteAgain (off i o : Nat) : (b.noteAgain off i).rd o = b.rd o := by
  unfold Block.noteAgain
  split <;> rfl

theorem Block.rd_setBit (off i o : Nat) :
    (b.setBit off i).rd o = if o = off then setFieldOf (b.rd off) i i 1 else b.rd o := by
  simp [Block.setBit, Block.rd_setFld]

theorem Block.rd_putBit (off i o : Nat) (v : Bool) :
    (b.putBit off i v).rd o = if o = off then setFieldOf (b.rd off) i i (b2n v) else b.rd o := b.rd_setFld _ _ _ _ _

theorem Block.rd_clrBit (off i o : Nat) :
    (b.clrBit off i).rd o = if o = off then setFieldOf (b.rd off) i i 0 else b.rd o := b.rd_setFld _ _ _ _ _

theorem Block.rd_inc (off hi lo n o : Nat) :
    (b.inc off hi lo n).rd o =
      if o = off then setFieldOf (b.rd off) hi lo (satAdd (hi + 1 - lo) (b.fld off hi lo) n) else b.rd o :=
  Block.rd_setFld _ _ _ _ _ _

theorem Block.rd_wrN (off v o : Nat) : (b.wrN off v).rd o = if o = off then BitVec.ofNat 32 v else b.rd o := b.rd_wr _ _ _

variable {b} {off o : Nat}

theorem Block.rd_setFld_other (h : o ≠ off) (hi lo v : Nat) : (b.setFld off hi lo v).rd o = b.rd o := b.rd_wr_other _ _ _ h
theorem Block.rd_clrBit_other (h : o ≠ off) (i : Nat) : (b.clrBit off i).rd o = b.rd o := b.rd_wr_other _ _ _ h
theorem Block.rd_putBit_other (h : o ≠ off) (i : Nat) (v : Bool) : (b.putBit off i v).rd o = b.rd o := b.rd_wr_other _ _ _ h
theorem Block.rd_setBit_other (h : o ≠ off) (i : Nat) : (b.setBit off i).rd o = b.rd o := by simp [Block.rd_setBit, h]
theorem Block.rd_inc_other (h : o ≠ off) (hi lo n : Nat) : (b.inc off hi lo n).rd o = b.rd o := by simp [Block.rd_inc, h]
theorem Block.rd_wrN_other (h : o ≠ off) (v : Nat) : (b.wrN off v).rd o = b.rd o := b.rd_wr_other _ _ _ h

end

/-- A counter field after it has advanced by one (R14). -/
theorem Block.fld_inc_same (b : Block) (off hi lo : Nat) (h : hi < 32) (l : lo ≤ hi) (n : Nat) :
    (b.inc off hi lo n).fld off hi lo = min (b.fld off hi lo + n) (2 ^ (hi + 1 - lo) - 1) := by
  have hpos : 0 < 2 ^ (hi + 1 - lo) := by positivity
  rw [Block.fld, Block.rd_inc, if_pos rfl, fieldOf_setFieldOf_same _ _ _ _ h l, satAdd, Nat.mod_eq_of_lt (by omega)]

end Sys2Proof.Machine

namespace Sys2Proof.Machine

/-! ### Reports to the fault summary and the ledger queue -/

/-- The counters of ledger writes that are dropped or delayed (R313, R317). -/
def ledgerRegs : List Nat := [Reg.LDG_CNT_B, Reg.LDG_CNT_C]

/-- The registers that a report to the fault summary writes (R347). -/
def reportRegs : List Nat := [Reg.FLT_SUM, Reg.FLT_FIRST, Reg.FLT_FTIME_LO, Reg.FLT_FTIME_LO + 4] ++ ledgerRegs

/-- From block `a`, block `b` differs only in the ledger, the notes of the cycle and the listed registers. -/
structure Reported (offs : List Nat) (a b : Block) : Prop where
  frame : b = { a with regs := b.regs, cyc := b.cyc, ldg := b.ldg }
  rd : ∀ off, off ∉ offs → b.rd off = a.rd off

namespace Reported

variable {offs : List Nat} {a b c : Block}

theorem refl (offs : List Nat) (a : Block) : Reported offs a a := ⟨rfl, fun _ _ => rfl⟩

theorem trans (h : Reported offs a b) (k : Reported offs b c) : Reported offs a c where
  frame := by
    have hf := h.frame
    have kf := k.frame
    rw [hf] at kf
    exact kf
  rd off ho := (k.rd off ho).trans (h.rd off ho)

theorem mono {offs' : List Nat} (h : Reported offs a b) (hs : offs ⊆ offs') : Reported offs' a b :=
  ⟨h.frame, fun off ho => h.rd off fun hm => ho (hs hm)⟩

theorem setUpd (h : Reported offs a b) (off : Nat) (w : Word) : Reported offs a (b.setUpd off w) :=
  h.trans ⟨rfl, fun _ _ => rfl⟩

theorem noteAgain (h : Reported offs a b) (off i : Nat) : Reported offs a (b.noteAgain off i) := by
  unfold Block.noteAgain
  split
  · exact h.setUpd _ _
  · exact h

theorem wr (h : Reported offs a b) {off : Nat} (ho : off ∈ offs) (v : Word) : Reported offs a (b.wr off v) :=
  h.trans ⟨rfl, fun _ hk => b.rd_wr_other _ _ _ fun e => hk (e ▸ ho)⟩

theorem inc (h : Reported offs a b) {off : Nat} (ho : off ∈ offs) (hi lo n : Nat) :
    Reported offs a (b.inc off hi lo n) := (h.setUpd _ _).wr ho _

theorem ledger (h : Reported offs a b) (l : Ldg) : Reported offs a { b with ldg := l } := h.trans ⟨rfl, fun _ _ => rfl⟩

theorem queueWrite (h : Reported offs a b) (hs : ledgerRegs ⊆ offs) (q : LdgReq) : Reported offs a (queueWrite q b) := by
  unfold Machine.queueWrite delayWrites
  dsimp only
  split
  · exact ((h.ledger _).inc (hs (by simp [ledgerRegs])) _ _ _).ledger _
  · exact h.ledger _

theorem queueLog (h : Reported offs a b) (hs : ledgerRegs ⊆ offs) (code : BitVec 16) (src : Byte) (urgent : Bool)
    (data : List Byte) : Reported offs a (queueLog code src urgent data b) := by
  unfold Machine.queueLog
  dsimp only
  split
  · exact h.inc (hs (by simp [ledgerRegs])) _ _ _
  · split
    · exact h.queueWrite hs _
    · exact (h.queueWrite hs _).ledger _

theorem requestJsum (h : Reported offs a b) (hs : ledgerRegs ⊆ offs) : Reported offs a (requestJsum b) := by
  unfold Machine.requestJsum queueJsum
  dsimp only
  split
  · exact (h.queueWrite hs _).ledger _
  · exact h.ledger _

theorem core (h : Reported offs a b) : b.core = { a with ldg := b.ldg }.core := (congrArg Block.core h.frame).trans rfl

theorem out (h : Reported offs a b) : b.out = a.out := (congrArg Block.out h.frame).trans rfl

theorem now (h : Reported offs a b) : b.now = a.now := (congrArg Block.now h.frame).trans rfl

end Reported

/-- The block in which `raiseFlt` notes that bits are set, before it sets them (R376). -/
theorem reported_noteBits (bits w : Word) (b : Block) :
    Reported [] b ((forEach ((List.range 18).filter fun i => bits.getLsbD i) (fun i b => b.noteAgain Reg.FLT_SUM i) b).setUpd
      Reg.FLT_SUM w) :=
  have noted : Reported [] b (forEach _ (fun i b => b.noteAgain Reg.FLT_SUM i) b) :=
    forEach_induct _ _ (.refl _ b) fun i _ _ hc => hc.noteAgain Reg.FLT_SUM i
  noted.setUpd _ _

theorem or_eq_self_of_and_not_eq_zero {sum bits : Word} (h : bits &&& ~~~ sum = 0) : sum ||| bits = sum := by
  ext i hi
  have hb : (bits &&& ~~~ sum).getLsbD i = false := by simp [h]
  simpa [hi] using hb

theorem ledgerRegs_subset : ledgerRegs ⊆ reportRegs := List.subset_append_right _ _

theorem reported_raiseFlt (bits : Word) (b : Block) : Reported reportRegs b (raiseFlt bits b) := by
  have noted := fun w => (reported_noteBits bits w b).mono (List.nil_subset reportRegs)
  unfold raiseFlt
  dsimp only
  split
  · exact noted _
  · refine (((Reported.wr ?_ (by simp [reportRegs]) _).queueLog ledgerRegs_subset _ _ _ _)).requestJsum ledgerRegs_subset
    split
    · exact (((noted _).wr (by simp [reportRegs]) _).wr (by simp [reportRegs]) _).wr (by simp [reportRegs]) _
    · exact noted _

/-- The raised bits of FLT_SUM are set. -/
theorem rd_fltSum_raiseFlt (bits : Word) (b : Block) :
    (raiseFlt bits b).rd Reg.FLT_SUM = b.rd Reg.FLT_SUM ||| bits := by
  have noted := fun w => (reported_noteBits bits w b).rd Reg.FLT_SUM (by simp)
  unfold raiseFlt
  dsimp only
  rw [noted]
  split
  · next h => rw [noted, or_eq_self_of_and_not_eq_zero h]
  · rw [(((Reported.refl ledgerRegs _).queueLog (by simp) _ _ _ _).requestJsum (by simp)).rd _ (by decide), Block.rd_wr_same]

theorem bit_fltSum_raiseBit {i : Nat} (hi : i < 32) (b : Block) : (raiseBit i b).bit Reg.FLT_SUM i = true := by
  rw [Block.bit, raiseBit, rd_fltSum_raiseFlt]
  rw [bitOf, BitVec.getLsbD_or, BitVec.getLsbD_ofNat]
  simp [hi, Nat.testBit_two_pow_self]

/-- An uncorrectable HBM error is counted and reported (R349). -/
theorem reported_hbmUe (n : Nat) (b : Block) : Reported (Reg.FLT_CNT_B :: reportRegs) b (hbmUe n b) := by
  unfold hbmUe
  split
  · exact .refl _ b
  · exact ((Reported.refl _ b).inc (by simp) _ _ _).trans ((reported_raiseFlt _ _).mono (by simp))

end Sys2Proof.Machine

namespace Sys2Proof.Machine

/-! ### HBM writes by the host (R20, R103, R106) -/

@[simp] theorem length_leBytes (n v : Nat) : (leBytes n v).length = n := by
  induction n generalizing v with
  | zero => rfl
  | succ n ih => simp [leBytes, ih]

theorem Block.hbmByte_hbmPut_other {a x : Nat} {bytes : List Byte} (b : Block) (h : x < a ∨ a + bytes.length ≤ x) :
    (hbmPut a bytes b).hbmByte x = b.hbmByte x := SMap.get_setList_other _ _ _ _ _ h

/-- From block `a`, block `b` differs only in HD_BANK of the heads, their digests in progress, the bank descriptors in HBM
and the words that a write makes good. -/
structure BanksNoted (a b : Block) : Prop where
  frame : b = { a with regs := b.regs, hbm := b.hbm, heads := b.heads, bad := b.bad }
  rd : ∀ off, off ∉ (List.range 24).map Reg.HD_BANK → b.rd off = a.rd off
  byte : ∀ x, ¬(0xAE000000 ≤ x ∧ x < 0xAE000600) → b.hbmByte x = a.hbmByte x

namespace BanksNoted

variable {a b c : Block} {h : Nat}

theorem refl (a : Block) : BanksNoted a a := ⟨rfl, fun _ _ => rfl, fun _ _ => rfl⟩

theorem trans (h : BanksNoted a b) (k : BanksNoted b c) : BanksNoted a c where
  frame := by
    have hf := h.frame
    have kf := k.frame
    rw [hf] at kf
    exact kf
  rd off ho := (k.rd off ho).trans (h.rd off ho)
  byte x hx := (k.byte x hx).trans (h.byte x hx)

theorem setHd (k : BanksNoted a b) (h : Nat) (x : HeadSt) : BanksNoted a (b.setHd h x) :=
  k.trans ⟨rfl, fun _ _ => rfl, fun _ _ => rfl⟩

theorem mend (k : BanksNoted a b) (p : Upset → Bool) : BanksNoted a (mend p b) :=
  k.trans ⟨rfl, fun _ _ => rfl, fun _ _ => rfl⟩

theorem clrBit (k : BanksNoted a b) (hh : h < 24) (i : Nat) : BanksNoted a (b.clrBit (Reg.HD_BANK h) i) :=
  k.trans ⟨rfl, fun _ ho => Block.rd_clrBit_other (fun e => ho (List.mem_map.mpr ⟨h, List.mem_range.mpr hh, e.symm⟩)) i,
    fun _ _ => rfl⟩

theorem syncDescriptor (k : BanksNoted a b) (hh : h < 24) : BanksNoted a (syncDescriptor h b) :=
  k.trans ⟨rfl, fun _ _ => rfl, fun x hx => Block.hbmByte_hbmPut_other b (by simp; omega)⟩

theorem noteBankWrite (k : BanksNoted a b) (hh : h < 24) (bank : Bool) : BanksNoted a (noteBankWrite h bank b) := by
  have cleared := k.clrBit hh (if bank then 6 else 5)
  refine syncDescriptor ?_ hh
  split
  · split
    · exact cleared.setHd _ _
    · exact cleared
  · exact cleared

theorem noteHit (k : BanksNoted a b) (hh : h < 24) (hit bank : Bool) :
    BanksNoted a (if hit then Machine.noteBankWrite h bank b else b) := by
  cases hit
  · exact k
  · exact k.noteBankWrite hh bank

theorem core (k : BanksNoted a b) : b.core = { a with hbm := b.hbm, heads := b.heads, bad := b.bad }.core :=
  (congrArg Block.core k.frame).trans rfl

theorem now (k : BanksNoted a b) : b.now = a.now := (congrArg Block.now k.frame).trans rfl

end BanksNoted

/-- The bytes of HBM after the listed ones have been written. -/
def putBytes (xs : List (Nat × Byte)) (m : SMap Byte) : SMap Byte := xs.foldl (fun m x => m.set (fun _ => 0) x.1 x.2) m

theorem putBytes_cons (x : Nat × Byte) (xs : List (Nat × Byte)) (m : SMap Byte) :
    putBytes (x :: xs) m = putBytes xs (m.set (fun _ => 0) x.1 x.2) := rfl

theorem get_putBytes_of_not_mem {xs : List (Nat × Byte)} {a : Nat} (ha : a ∉ xs.map Prod.fst) (m : SMap Byte) :
    (putBytes xs m).get (fun _ => 0) a = m.get (fun _ => 0) a := by
  induction xs generalizing m with
  | nil => rfl
  | cons x xs ih =>
    simp only [List.map_cons, List.mem_cons, not_or] at ha
    rw [putBytes_cons, ih ha.2, SMap.get_set_other _ _ _ _ _ ha.1]

theorem get_putBytes_of_mem {xs : List (Nat × Byte)} (hx : (xs.map Prod.fst).Nodup) {a : Nat} {v : Byte}
    (hm : (a, v) ∈ xs) (m : SMap Byte) : (putBytes xs m).get (fun _ => 0) a = v := by
  induction xs generalizing m with
  | nil => simp at hm
  | cons x xs ih =>
    rw [List.map_cons, List.nodup_cons] at hx
    rw [putBytes_cons]
    rcases List.mem_cons.mp hm with rfl | hm
    · rw [get_putBytes_of_not_mem hx.1, SMap.get_set_same]
    · exact ih hx.2 hm _

/-- A host write stores the bytes that R20 allows, and notes the banks that they fall in. -/
theorem banksNoted_hbmWrite (xs : List (Nat × Byte)) (b : Block) :
    BanksNoted { b with hbm := putBytes (xs.filter fun x => !b.b2Denied x.1) b.hbm } (hbmWrite xs b) := by
  refine forEach_induct _ _ (forEach_induct _ _ (.refl _) fun x _ c hc => hc.mend _) fun h hh c hc => ?_
  have hh := List.mem_range.mp hh
  exact (hc.noteHit hh _ false).noteHit hh _ true

theorem mem_enabledBytes {a k : Nat} {v : Byte} {data : List (Option Byte)} :
    (k, v) ∈ enabledBytes a data ↔ ∃ i < data.length, data.getD i none = some v ∧ (a + i) % 2 ^ 34 = k := by
  simp only [enabledBytes, List.mem_filterMap, List.mem_range, Option.map_eq_some_iff, Prod.mk.injEq]
  grind

/-- A request of at most 16 GB names no byte twice. -/
theorem nodup_enabledBytes {data : List (Option Byte)} (h : data.length ≤ 2 ^ 34) (a : Nat) :
    ((enabledBytes a data).map Prod.fst).Nodup := by
  unfold enabledBytes
  rw [List.Nodup, List.pairwise_map, List.pairwise_filterMap]
  refine List.pairwise_lt_range.imp_of_mem fun {i j} hi hj hij => ?_
  simp only [List.mem_range, Option.map_eq_some_iff] at *
  rintro _ ⟨x, -, rfl⟩ _ ⟨y, -, rfl⟩
  dsimp only
  omega

end Sys2Proof.Machine

namespace Sys2Proof.Machine

/-! ### BAR2 (R20, R263, R264) -/

/-- A counter that fills its register, after it has advanced (R14). -/
theorem Block.rd_inc_full (b : Block) (off n : Nat) :
    (b.inc off 31 0 n).rd off = BitVec.ofNat 32 (min ((b.rd off).toNat + n) 0xFFFFFFFF) := by
  have hm : fieldMask 31 0 = BitVec.allOnes 32 := by decide
  have hf : fieldOf (b.rd off) 31 0 = (b.rd off).toNat := by
    simp only [fieldOf, Nat.shiftRight_zero]
    exact Nat.mod_eq_of_lt (b.rd off).isLt
  rw [Block.rd_inc, if_pos rfl, Block.fld, hf]
  simp only [setFieldOf, hm, satAdd, BitVec.not_allOnes, BitVec.and_zero, BitVec.zero_or, BitVec.and_allOnes, Nat.shiftLeft_zero]
  rfl

/-- A host write may be judged on any block with the same bindings and active banks. -/
theorem b2Denied_congr {b c : Block} (h : ∀ k, c.rd (Reg.HD_BIND k) = b.rd (Reg.HD_BIND k))
    (k : ∀ k, c.rd (Reg.HD_BANK k) = b.rd (Reg.HD_BANK k)) (a : Nat) : c.b2Denied a = b.b2Denied a := by
  simp only [Block.b2Denied, Block.bound, Block.activeBank, Block.bit, h, k]

/-- A byte that the host may write lies outside the bank descriptors. -/
theorem not_descriptor_of_allowed {b : Block} {a : Nat} (h : b.b2Denied a = false) :
    ¬(0xAE000000 ≤ a ∧ a < 0xAE000600) := by
  intro ⟨lo, hi⟩
  have hb : bankOf a = none := if_neg (by omega)
  simp only [Block.b2Denied, hb, Bool.and_eq_false_iff, decide_eq_false_iff_not] at h
  omega

/-- Block `t` is `b` after a host write of `data` to HBM from address `a` (R20): the bytes that are allowed stored, the
others kept, the write counted where a byte was discarded. -/
structure HostStored (a : Nat) (data : List (Option Byte)) (b t : Block) : Prop where
  stored : ∀ i < data.length, ∀ x, data.getD i none = some x → b.b2Denied ((a + i) % 2 ^ 34) = false →
    t.hbmByte ((a + i) % 2 ^ 34) = x
  kept : ∀ k, (∀ i < data.length, (a + i) % 2 ^ 34 = k → data.getD i none = none ∨ b.b2Denied k = true) →
    ¬(0xAE000000 ≤ k ∧ k < 0xAE000600) → t.hbmByte k = b.hbmByte k
  count : t.rd Reg.HOST_B2DENY =
    if (enabledBytes a data).any (fun x => b.b2Denied x.1) then
      BitVec.ofNat 32 (min ((b.rd Reg.HOST_B2DENY).toNat + 1) 0xFFFFFFFF)
    else b.rd Reg.HOST_B2DENY
  core : t.core = { b with hbm := t.hbm, heads := t.heads, bad := t.bad }.core
  rd : SameRegs b t (Reg.HOST_B2DENY :: (List.range 24).map Reg.HD_BANK)

/-- A write of which a byte is discarded is counted (R20). -/
def countDenied (denied : Bool) (b : Block) : Block := if denied then b.inc Reg.HOST_B2DENY 31 0 1 else b

theorem countDenied_frame (denied : Bool) (b : Block) :
    countDenied denied b = { b with regs := (countDenied denied b).regs, cyc := (countDenied denied b).cyc } := by
  cases denied <;> rfl

theorem rd_countDenied_other {off : Nat} (h : off ≠ Reg.HOST_B2DENY) (denied : Bool) (b : Block) :
    (countDenied denied b).rd off = b.rd off := by
  cases denied
  · rfl
  · exact Block.rd_inc_other h _ _ _

theorem b2Denied_countDenied (denied : Bool) (b : Block) (k : Nat) : (countDenied denied b).b2Denied k = b.b2Denied k :=
  b2Denied_congr (fun _ => rd_countDenied_other (by grind) denied b) (fun _ => rd_countDenied_other (by grind) denied b) k

theorem hostStored_hbmWrite {a : Nat} {data : List (Option Byte)} (hl : data.length ≤ 2 ^ 34) (b : Block) :
    HostStored a data b (hbmWrite (enabledBytes a data)
      (countDenied ((enabledBytes a data).any fun x => b.b2Denied x.1) b)) := by
  generalize hd : (enabledBytes a data).any (fun x => b.b2Denied x.1) = denied
  have noted := banksNoted_hbmWrite (enabledBytes a data) (countDenied denied b)
  have hbm : (countDenied denied b).hbm = b.hbm := (congrArg Block.hbm (countDenied_frame denied b)).trans rfl
  simp only [b2Denied_countDenied, hbm] at noted
  set t := hbmWrite (enabledBytes a data) (countDenied denied b)
  have byte : ∀ k, ¬(0xAE000000 ≤ k ∧ k < 0xAE000600) → t.hbmByte k =
      (putBytes ((enabledBytes a data).filter fun x => !b.b2Denied x.1) b.hbm).get (fun _ => 0) k := noted.byte
  constructor
  case stored =>
    intro i hi x hx ha
    rw [byte _ (not_descriptor_of_allowed ha)]
    refine get_putBytes_of_mem ((nodup_enabledBytes hl a).sublist (List.filter_sublist.map _)) ?_ _
    exact List.mem_filter.mpr ⟨mem_enabledBytes.mpr ⟨i, hi, hx, rfl⟩, by simpa using ha⟩
  case kept =>
    intro k hk hr
    rw [byte k hr]
    refine get_putBytes_of_not_mem (fun hm => ?_) _
    obtain ⟨⟨_, v⟩, hv, rfl⟩ := List.mem_map.mp hm
    obtain ⟨hv, allowed⟩ := List.mem_filter.mp hv
    obtain ⟨i, hi, hx, he⟩ := mem_enabledBytes.mp hv
    rcases hk i hi he with h | h <;> simp_all
  case count =>
    rw [noted.rd _ (by decide)]
    cases denied
    · simp [hd, countDenied]; rfl
    · simp [hd]; exact b.rd_inc_full _ _
  case core =>
    rw [noted.core, countDenied_frame denied b]
    rfl
  case rd =>
    intro off ho
    simp only [List.mem_cons, not_or] at ho
    rw [noted.rd off ho.2.2]
    exact rd_countDenied_other ho.2.1 denied b

theorem HostStored.settles {a : Nat} {data : List (Option Byte)} {b u t : Block} (h : HostStored a data b u)
    (k : Settles u t) : HostStored a data b t where
  stored := by simpa only [Block.hbmByte, k.hbm] using h.stored
  kept := by simpa only [Block.hbmByte, k.hbm] using h.kept
  count := (k.rd _ (by decide)).trans h.count
  core := by rw [k.core, h.core, k.hbm, k.heads, k.bad]
  rd off ho := (k.rd off fun e => ho (by simp [e])).trans (h.rd off ho)

theorem HostStored.now {a : Nat} {data : List (Option Byte)} {b t : Block} (h : HostStored a data b t) : t.now = b.now :=
  (congrArg Block.now h.core).trans rfl

/-- A write that enables no byte changes nothing (R264). -/
theorem hostStored_of_no_byte {a : Nat} {data : List (Option Byte)} (h : enabledBytes a data = []) (b : Block) :
    HostStored a data b b where
  stored i hi x hx _ := by
    have hm : ((a + i) % 2 ^ 34, x) ∈ enabledBytes a data := mem_enabledBytes.mpr ⟨i, hi, hx, rfl⟩
    simp [h] at hm
  kept _ _ _ := rfl
  count := by simp [h]
  core := rfl
  rd _ _ := rfl

/-- A host write that is not at a standby is performed byte by byte (R20, R264). -/
theorem hostStored_bar2Perform {a : Nat} {data : List (Option Byte)} (hl : data.length ≤ 2 ^ 34) {b : Block}
    (hd : b.bud.down = false) (hs : b.standby = false) : HostStored a data b (bar2Perform a data b) := by
  by_cases he : enabledBytes a data = []
  · have e : bar2Perform a data b = b := by simp [bar2Perform, he]
    rw [e]
    exact hostStored_of_no_byte he b
  · have e : bar2Perform a data b = mirror (.hbm a data) (hbmWrite (enabledBytes a data)
        (countDenied ((enabledBytes a data).any fun x => b.b2Denied x.1) b)) := by
      simp [bar2Perform, countDenied, he, hd, hs]
    rw [e]
    exact (hostStored_hbmWrite hl b).settles (.mirror _ _)

/-! ### Requests as they arrive -/

section
variable {b : Block} (hp : b.perst = false ∨ b.bud.down = true) (h0 : b.stage_ ≠ 0)
include hp h0

theorem bar2Read_of_arrives (o len : Nat) (ue : Bool) : bar2Read o len ue b =
    if b.b2Waits then { b with held := b.held ++ [(b.b2Addr o, none, len)] } else bar2Answer (b.b2Addr o) len ue b := by
  unfold bar2Read
  rw [if_neg (by rcases hp with h | h <;> simp [h, h0])]

theorem bar2Write_of_arrives (o : Nat) (data : List (Option Byte)) : bar2Write o (.bytes data) b =
    if b.b2Waits then { b with held := b.held ++ [(b.b2Addr o, some data, 0)] } else bar2Perform (b.b2Addr o) data b := by
  unfold bar2Write
  rw [if_neg (by rcases hp with h | h <;> simp [h, h0])]

theorem bar2Write_poisoned_of_arrives (o : Nat) : bar2Write o .poisoned b = poisonedAccess b := by
  unfold bar2Write
  rw [if_neg (by rcases hp with h | h <;> simp [h, h0])]

end

/-- What carrying out a command adds is outside the listed registers. -/
theorem Settles.sameRegs {a u t : Block} {offs : List Nat} (k : Settles u t) (h : ∀ off, off ∉ offs → u.rd off = a.rd off) :
    SameRegs a t offs := fun off ho => by
  rw [List.mem_cons, not_or] at ho
  rw [k.rd off ho.1, h off ho.2]

/-- An uncorrectable HBM error counts (R349). -/
theorem fld_hbmUe (b : Block) :
    (hbmUe 1 b).fld Reg.FLT_CNT_B 15 0 = min (b.fld Reg.FLT_CNT_B 15 0 + 1) 0xFFFF := by
  have e : hbmUe 1 b = raiseBit 13 (b.inc Reg.FLT_CNT_B 15 0 1) := rfl
  rw [e, Block.fld, raiseBit, (reported_raiseFlt _ _).rd _ (by decide)]
  exact b.fld_inc_same _ 15 0 (by decide) (by decide) 1

theorem bit_fltSum_hbmUe (b : Block) : (hbmUe 1 b).bit Reg.FLT_SUM 13 = true := bit_fltSum_raiseBit (by decide) _

end Sys2Proof.Machine

namespace Sys2Proof.Machine

section
variable {s : State} (hp : s.blk.perst = false ∨ s.blk.bud.down = true) (h0 : s.blk.stage_ ≠ 0)
include hp h0

section
variable (hw : s.blk.b2Waits = false)
include hw

theorem bar2Read_answered (o len : Nat) (ue : Bool) :
    bar2Read o len ue s.blk = bar2Answer (s.blk.b2Addr o) len ue s.blk := by
  rw [bar2Read_of_arrives hp h0, hw]
  rfl

theorem ends_bar2Read_bytes (hd : s.blk.bud.down = false) {o len : Nat}
    (hu : s.blk.spoiltRead (s.blk.b2Addr o) len = false) : Ends (.bar2Read o len false) s (fun b =>
      .bar2 (s.blk.b2Addr o) ((List.range len).map fun i => s.blk.hbmByte ((s.blk.b2Addr o + i) % 2 ^ 34)) false ∈ b.out ∧
      b.core = s.blk.core ∧ SameRegs s.blk b []) := by
  have e : bar2Read o len false s.blk = s.blk.emit (.bar2 (s.blk.b2Addr o)
      ((List.range len).map fun i => s.blk.hbmByte ((s.blk.b2Addr o + i) % 2 ^ 34)) false) := by
    rw [bar2Read_answered hp h0 hw]
    simp [bar2Answer, hd, hu]
  refine ends_of_carryOut_now rfl (by rw [e]; rfl) fun t ht => ?_
  rw [e] at ht
  exact ⟨ht.out _ (List.mem_cons_self ..), ht.core, ht.sameRegs fun _ _ => rfl⟩

theorem ends_bar2Read_poisoned (hd : s.blk.bud.down = false) {o len : Nat} {ue : Bool}
    (hu : ue = true ∨ s.blk.spoiltRead (s.blk.b2Addr o) len = true) : Ends (.bar2Read o len ue) s (fun b =>
      .bar2 (s.blk.b2Addr o) [] true ∈ b.out ∧
      b.fld Reg.HOST_CNT 31 16 = min (s.blk.fld Reg.HOST_CNT 31 16 + 1) 0xFFFF ∧
      b.fld Reg.FLT_CNT_B 15 0 = min (s.blk.fld Reg.FLT_CNT_B 15 0 + 1) 0xFFFF ∧ b.bit Reg.FLT_SUM 13 = true ∧
      b.hbm = s.blk.hbm ∧ b.core = { s.blk with ldg := b.ldg }.core) := by
  set answered := (s.blk.emit (.bar2 (s.blk.b2Addr o) [] true)).inc Reg.HOST_CNT 31 16 1 with ha
  have e : bar2Read o len ue s.blk = hbmUe 1 answered := by
    rw [bar2Read_answered hp h0 hw]
    rcases hu with h | h <;> simp [bar2Answer, hd, h, ha]
  have reported := reported_hbmUe 1 answered
  have cnt : answered.fld Reg.HOST_CNT 31 16 = min (s.blk.fld Reg.HOST_CNT 31 16 + 1) 0xFFFF :=
    Block.fld_inc_same _ _ 31 16 (by decide) (by decide) 1
  have other : answered.fld Reg.FLT_CNT_B 15 0 = s.blk.fld Reg.FLT_CNT_B 15 0 :=
    congrArg (fieldOf · 15 0) (Block.rd_inc_other (by decide) _ _ _)
  refine ends_of_carryOut_now rfl (by rw [e, reported.now]; rfl) fun t ht => ?_
  rw [e] at ht
  refine ⟨ht.out _ (by rw [reported.out]; exact List.mem_cons_self ..), ?_, ?_, ?_, ?_, ?_⟩
  · rw [Block.fld, ht.rd _ (by decide), reported.rd _ (by decide)]
    exact cnt
  · rw [← other, Block.fld, ht.rd _ (by decide)]
    exact fld_hbmUe answered
  · rw [Block.bit, ht.rd _ (by decide)]
    exact bit_fltSum_hbmUe answered
  · rw [ht.hbm]
    exact (congrArg Block.hbm reported.frame).trans rfl
  · rw [ht.core, reported.core, ht.ldg]
    rfl

theorem ends_bar2Read_shutdown (hd : s.blk.bud.down = true) (o len : Nat) (ue : Bool) :
    Ends (.bar2Read o len ue) s (fun b => .bar2 (s.blk.b2Addr o) (List.replicate len 0) false ∈ b.out ∧
      b.core = s.blk.core ∧ SameRegs s.blk b []) := by
  have e : bar2Read o len ue s.blk = s.blk.emit (.bar2 (s.blk.b2Addr o) (List.replicate len 0) false) := by
    rw [bar2Read_answered hp h0 hw]
    simp [bar2Answer, hd]
  refine ends_of_carryOut_now rfl (by rw [e]; rfl) fun t ht => ?_
  rw [e] at ht
  exact ⟨ht.out _ (List.mem_cons_self ..), ht.core, ht.sameRegs fun _ _ => rfl⟩

theorem bar2Write_performed (o : Nat) (data : List (Option Byte)) :
    bar2Write o (.bytes data) s.blk = bar2Perform (s.blk.b2Addr o) data s.blk := by
  rw [bar2Write_of_arrives hp h0, hw]
  rfl

theorem ends_bar2Write_stored (hd : s.blk.bud.down = false) (hs : s.blk.standby = false) (o : Nat)
    {data : List (Option Byte)} (hl : data.length ≤ 2 ^ 34) :
    Ends (.bar2Write o (.bytes data)) s (HostStored (s.blk.b2Addr o) data s.blk) := by
  have stored : HostStored (s.blk.b2Addr o) data s.blk (bar2Perform (s.blk.b2Addr o) data s.blk) :=
    hostStored_bar2Perform hl hd hs
  rw [← bar2Write_performed hp h0 hw] at stored
  exact ends_of_carryOut_now rfl stored.now fun t ht => stored.settles ht

theorem ends_bar2Write_standby (hd : s.blk.bud.down = false) (hs : s.blk.standby = true) {o : Nat}
    {data : List (Option Byte)} (hb : (enabledBytes (s.blk.b2Addr o) data).isEmpty = false) :
    Ends (.bar2Write o (.bytes data)) s (fun b =>
      b.fld Reg.PAIR_CNT_C 15 0 = min (s.blk.fld Reg.PAIR_CNT_C 15 0 + 1) 0xFFFF ∧
      b.core = s.blk.core ∧ SameRegs s.blk b [Reg.PAIR_CNT_C]) := by
  have e : bar2Write o (.bytes data) s.blk = s.blk.inc Reg.PAIR_CNT_C 15 0 1 := by
    rw [bar2Write_performed hp h0 hw]
    simp [bar2Perform, hd, hs, hb]
  refine ends_of_carryOut_now rfl (by rw [e]; rfl) fun t ht => ?_
  rw [e] at ht
  refine ⟨?_, ht.core, ht.sameRegs fun off ho => Block.rd_inc_other (by simpa using ho) _ _ _⟩
  rw [Block.fld, ht.rd _ (by decide)]
  exact Block.fld_inc_same _ _ 15 0 (by decide) (by decide) 1

end

theorem ends_bar2Read_held (hw : s.blk.b2Waits = true) (o len : Nat) (ue : Bool) :
    Ends (.bar2Read o len ue) s (fun b =>
      b.core = { s.blk with held := s.blk.held ++ [(s.blk.b2Addr o, none, len)] }.core ∧ SameRegs s.blk b []) := by
  have e := bar2Read_of_arrives hp h0 o len ue
  rw [hw, if_pos rfl] at e
  refine ends_of_carryOut_now rfl (by rw [e]) fun t ht => ?_
  rw [e] at ht
  exact ⟨ht.core, ht.sameRegs fun _ _ => rfl⟩

theorem ends_bar2Write_held (hw : s.blk.b2Waits = true) (o : Nat) (data : List (Option Byte)) :
    Ends (.bar2Write o (.bytes data)) s (fun b =>
      b.core = { s.blk with held := s.blk.held ++ [(s.blk.b2Addr o, some data, 0)] }.core ∧ SameRegs s.blk b []) := by
  have e := bar2Write_of_arrives hp h0 o data
  rw [hw, if_pos rfl] at e
  refine ends_of_carryOut_now rfl (by rw [e]) fun t ht => ?_
  rw [e] at ht
  exact ⟨ht.core, ht.sameRegs fun _ _ => rfl⟩

end

theorem mem_aer_reportAer (x : AerError) (b : Block) : x ∈ (reportAer x b).host.aer := by
  unfold reportAer
  split
  · next h => simpa using h
  · simp

/-- An AER report changes the host interface alone. -/
theorem reportAer_frame (x : AerError) (b : Block) : reportAer x b = { b with host := (reportAer x b).host } := by
  unfold reportAer
  split <;> rfl

theorem ends_bar2Write_poisoned {s : State} (hp : s.blk.perst = false) (h0 : s.blk.stage_ ≠ 0)
    (hd : s.blk.bud.down = false) (o : Nat) : Ends (.bar2Write o .poisoned) s (fun b =>
      b.fld Reg.HOST_CNT 15 0 = min (s.blk.fld Reg.HOST_CNT 15 0 + 1) 0xFFFF ∧
      .poisonedTlp ∈ b.host.aer ∧ b.core = s.blk.core ∧ SameRegs s.blk b [Reg.HOST_CNT]) := by
  have e : bar2Write o .poisoned s.blk = reportAer .poisonedTlp (s.blk.inc Reg.HOST_CNT 15 0 1) := by
    rw [bar2Write_poisoned_of_arrives (.inl hp) h0]
    simp [poisonedAccess, poisonedWrite, hd]
  have frame := reportAer_frame .poisonedTlp (s.blk.inc Reg.HOST_CNT 15 0 1)
  have rd : ∀ off, (reportAer .poisonedTlp (s.blk.inc Reg.HOST_CNT 15 0 1)).rd off =
      (s.blk.inc Reg.HOST_CNT 15 0 1).rd off := by
    rw [frame]
    exact fun _ => rfl
  refine ends_of_carryOut_now rfl (by rw [e, frame]; rfl) fun t ht => ?_
  rw [e] at ht
  refine ⟨?_, ?_, ?_, ht.sameRegs fun off ho => ?_⟩
  · rw [Block.fld, ht.rd _ (by decide), rd]
    exact Block.fld_inc_same _ _ 15 0 (by decide) (by decide) 1
  · rw [ht.aer]
    exact mem_aer_reportAer _ _
  · rw [ht.core, frame]
    rfl
  · rw [rd]
    exact Block.rd_inc_other (by simpa using ho) _ _ _

end Sys2Proof.Machine

namespace Sys2Proof.Machine

/-! ### Register writes (R10 to R14, R377) -/

/-- A write under the access codes stores in its register alone (R10). -/
theorem Block.rd_genWrite (b : Block) (off : Nat) (val : Word) (o : Nat) :
    (b.genWrite off val).rd o = if o = off then written off (b.rd off) (b.upd off) val else b.rd o := by
  unfold Block.genWrite written
  cases regRow off with
  | none => by_cases h : o = off <;> simp [h]
  | some r => exact b.rd_wr _ _ _

theorem Block.genWrite_frame (b : Block) (off : Nat) (val : Word) :
    b.genWrite off val = { b with regs := (b.genWrite off val).regs } := by
  unfold Block.genWrite
  cases regRow off <;> rfl

/-- Block `b` once the mirror of a write has left it (R338). -/
def Block.sending (b : Block) (o : List Out) (l : Trail) : Block := { b with out := o, trail := l }

@[simp] theorem Block.sending_rd (b : Block) (o : List Out) (l : Trail) (off : Nat) : (b.sending o l).rd off = b.rd off := rfl

/-- An offset of a register written as a whole word, outside the windows of R239, R240, R259 and R302 and the trims of
R192. -/
abbrev registerWord (off : Nat) : Prop :=
  off % 4 = 0 ∧ inLedger off = false ∧ trimReg off = false ∧ ¬(0x31000 ≤ off ∧ off < 0x60000)

/-- A register write that takes effect is the unit's own, on a block that has told the partner, with what carrying out a
write adds. -/
theorem writeReg_settles (r : Requester) {off : Nat} (ho : registerWord off) (val : Word) {b : Block}
    (hd : b.bud.down = false) (hs : (b.standby && (mirrored off || setsTime off)) = false) :
    ∃ o l, Settles (writeUnit r off (b.yields (orderOf r) off val) (b.sending o l))
      (writeReg r off val 0xF b) := by
  obtain ⟨ha, hl, ht, hx⟩ := ho
  obtain ⟨o, l, hm⟩ := mirrorReg_eq r off (b.yields (orderOf r) off val) b
  refine ⟨o, l, ?_⟩
  have yields : b.windowYields (orderOf r) off = false := by
    simp only [Block.windowYields, Bool.and_eq_false_iff, Bool.or_eq_false_iff, decide_eq_false_iff_not]
    omega
  have mirrors : mirrorWrite r off (b.yields (orderOf r) off val) b = (b.sending o l) := by
    rw [mirrorWrite, if_neg (by simp; omega), if_neg (by simp; omega), ht]
    exact hm
  have trims : trimYields off b = b := by rw [trimYields, ht]; rfl
  rw [← mirrors]
  unfold writeReg
  rw [show off / 4 * 4 = off by omega]
  simp only [hl, hd, hs, yields, trims]
  exact (Settles.noteWrite _ _ _).trans (.writeEvents _ _ _ _)

/-- What a write command that takes effect ends with. -/
theorem ends_of_write {c : Instr} {r : Requester} {off : Nat} {val : Word} {s : State} {P : Block → Prop}
    (hc : exec c s = carryOut (writeBy r off val) s) (ho : registerWord off) (hr : s.blk.reaches r = true)
    (hd : s.blk.bud.down = false) (hs : (s.blk.standby && (mirrored off || setsTime off)) = false)
    (hP : ∀ o l t, Settles (writeUnit r off (s.blk.yields (orderOf r) off val) (s.blk.sending o l)) t →
      P { t with now := s.blk.now }) : Ends c s P := by
  obtain ⟨o, l, hw⟩ := writeReg_settles r ho val hd hs
  refine ends_of_carryOut hc fun t ht => hP o l t ?_
  have e : writeBy r off val s.blk = writeReg r off val 0xF s.blk := by rw [writeBy, byRequester, hr]; rfl
  rw [e] at ht
  exact hw.trans ht

/-- The same for a write whose unit leaves the clock alone. -/
theorem ends_of_write_now {c : Instr} {r : Requester} {off : Nat} {val : Word} {s : State} {P : Block → Prop}
    (hc : exec c s = carryOut (writeBy r off val) s) (ho : registerWord off) (hr : s.blk.reaches r = true)
    (hd : s.blk.bud.down = false) (hs : (s.blk.standby && (mirrored off || setsTime off)) = false)
    (hn : ∀ o l, (writeUnit r off (s.blk.yields (orderOf r) off val) (s.blk.sending o l)).now = s.blk.now)
    (hP : ∀ o l t, Settles (writeUnit r off (s.blk.yields (orderOf r) off val) (s.blk.sending o l)) t →
      P t) : Ends c s P := by
  refine ends_of_write hc ho hr hd hs fun o l t ht => ?_
  rw [← hn o l, ← ht.now]
  exact hP o l t ht

/-- A write that prevails writes its own value (R377). -/
theorem yields_of_prevails {r : Requester} {off : Nat} {s : State} (h : Prevails r off s) (val : Word) :
    s.blk.yields (orderOf r) off val = val := by
  rw [Block.yields, if_neg (by omega)]

/-- A write of HOST_B2_BASE is an ordinary one, unless PERST# holds the host block in reset (R263, R365). -/
theorem writeUnit_b2Base {hi : Bool} {off : Nat} (ho : off = if hi then Reg.HOST_B2_BASE_HI else Reg.HOST_B2_BASE_LO)
    (r : Requester) (val : Word) (b : Block) :
    writeUnit r off val b = if b.hostHeld then b else b.genWrite off val := by
  subst ho
  cases hi <;> rfl

theorem ends_b2BaseWrite {s : State} {r : Requester} {hi : Bool} {val : Word} {off : Nat} (hr : s.blk.reaches r = true)
    (hd : s.blk.bud.down = false) (ho : off = if hi then Reg.HOST_B2_BASE_HI else Reg.HOST_B2_BASE_LO)
    (hp : Prevails r off s) : Ends (.b2BaseWrite r hi val) s (fun b => b.core = s.blk.core ∧ SameRegs s.blk b [off] ∧
      b.rd off = if s.blk.hostHeld then s.blk.rd off else written off (s.blk.rd off) (s.blk.upd off) val) := by
  have place : registerWord off ∧ (mirrored off || setsTime off) = false ∧ off ≠ Reg.MSIX_PBA 0 := by
    subst ho
    cases hi <;> decide
  obtain ⟨word, unmirrored, notPba⟩ := place
  refine ends_of_write_now (by rw [ho]; rfl) word hr hd (by rw [unmirrored, Bool.and_false]) ?_ fun o l t ht => ?_
  · intro o l
    rw [yields_of_prevails hp, writeUnit_b2Base ho]
    split
    · rfl
    · rw [Block.genWrite_frame]
      rfl
  · rw [yields_of_prevails hp, writeUnit_b2Base ho, show (s.blk.sending o l).hostHeld = s.blk.hostHeld from rfl] at ht
    cases hh : s.blk.hostHeld <;> rw [hh] at ht
    · rw [if_neg (by decide)] at ht ⊢
      refine ⟨?_, ht.sameRegs fun k hk => ?_, ?_⟩
      · rw [ht.core, Block.genWrite_frame]
        rfl
      · rw [Block.rd_genWrite, if_neg (by simpa using hk), Block.sending_rd]
      · rw [ht.rd _ notPba, Block.rd_genWrite, if_pos rfl]
        rfl
    · exact ⟨ht.core, ht.sameRegs fun _ _ => rfl, ht.rd _ notPba⟩

/-- Settles O50: each clause is the outcome of one kind of request, read or write, as it arrives. -/
theorem hostMemory : Obligations.HostMemory := by
  intro s r o len ue hi data val
  refine ⟨fun hp h0 hw => ⟨fun hd => ⟨fun hu => ends_bar2Read_bytes hp h0 hw hd hu,
        fun hu => ends_bar2Read_poisoned hp h0 hw hd hu⟩,
      fun hd => ends_bar2Read_shutdown hp h0 hw hd o len ue, fun hd hs hl => ?_,
      fun hd hs hb => ends_bar2Write_standby hp h0 hw hd hs hb⟩,
    fun hp h0 hd => ends_bar2Write_poisoned hp h0 hd o,
    fun hp h0 hw => ⟨ends_bar2Read_held hp h0 hw o len ue, ends_bar2Write_held hp h0 hw o data⟩,
    fun hr hd off ho hp => ends_b2BaseWrite hr hd ho hp⟩
  obtain ⟨t, ht, hq, hn, h⟩ := ends_bar2Write_stored hp h0 hw hd hs o hl
  exact ⟨t, ht, hq, hn, h.stored, h.kept, h.count, h.core, h.rd⟩

end Sys2Proof.Machine

namespace Sys2Proof.Machine

/-! ### The admission check (R23, R24) -/

theorem foldl_add_eq_sum_map {α : Type} (f : α → Nat) (xs : List α) (n : Nat) :
    xs.foldl (fun n x => n + f x) n = n + (xs.map f).sum := by
  induction xs generalizing n with
  | nil => rfl
  | cons x xs ih => rw [List.foldl_cons, ih, List.map_cons, List.sum_cons, Nat.add_assoc]

/-- The admission check as the tests of R23 in their order. -/
theorem admission_eq (h p wx wy : Nat) (b : Block) : admission h p wx wy b =
    if b.bit (Reg.HD_LINK_STAT h) 4 = false then 4
    else if b.bit (Reg.HD_BIND h) 31 = true then 3
    else if 26 ≤ p then 2
    else if b.bit (Reg.PL_STAT p) 8 = true ∨ (b.pl p).reserved = true then 1
    else if b.bit (Reg.PL_STAT p) 11 = true ∨ b.bit (Reg.PL_STAT p) 10 = true ∨ (b.pl p).bistWait = true then 2
    else if b.geomOk h wx wy = false then 5
    else if 800000000 < b.colsOf h * b.rowsOf h * b.num (Reg.HD_RATE h) then 6
    else if 12000000000 < b.colsOf h * b.rowsOf h * b.num (Reg.HD_RATE h) + (b.heads.map fun e => e.2.rate).sum then 7
    else if b.bandMode h ∧ 12582912 < (if b.bandMode h then b.colsOf h * b.rowsOf h * 4 else 0)
      + (b.heads.map fun e => e.2.accum).sum then 8
    else 0 := by
  simp only [admission, foldl_add_eq_sum_map, Nat.zero_add, Block.bound, Bool.not_eq_true', Bool.or_eq_true,
    Bool.and_eq_true, decide_eq_true_eq, or_assoc]

theorem geomOk_iff (b : Block) (h wx wy : Nat) : b.geomOk h wx wy = true ↔
    b.fld (Reg.HD_GEOM h) 11 0 % 32 = 0 ∧ 32 ≤ b.fld (Reg.HD_GEOM h) 11 0 ∧ b.fld (Reg.HD_GEOM h) 11 0 ≤ 2048 ∧
    b.rowsOf h % 2 = 0 ∧
    (b.bit (Reg.HD_FMT h) 0 = true → 16 ≤ b.fld (Reg.HD_FMT h) 15 8 ∧ b.fld (Reg.HD_FMT h) 15 8 ≤ 128) ∧
    (b.bit (Reg.HD_FMT h) 0 = false → 2 ≤ b.fld (Reg.HD_GEOM h) 26 16 ∧ b.fld (Reg.HD_GEOM h) 26 16 ≤ 1536) ∧
    12 ≤ b.fld (Reg.HD_FMT h) 20 16 ∧ b.fld (Reg.HD_FMT h) 20 16 ≤ 16 ∧ 1 ≤ b.num (Reg.HD_RATE h) ∧
    ∃ c, (b.port h).hdr = some c ∧ wx * 32 + b.colsOf h ≤ c.cols ∧ wy * 2 + b.rowsOf h ≤ c.rows := by
  have rows : b.rowsOf h = if b.bit (Reg.HD_FMT h) 0 then b.fld (Reg.HD_FMT h) 15 8 else b.fld (Reg.HD_GEOM h) 26 16 := rfl
  have cols : b.colsOf h = b.fld (Reg.HD_GEOM h) 11 0 := rfl
  unfold Block.geomOk
  cases hb : b.bit (Reg.HD_FMT h) 0 <;> cases hc : (b.port h).hdr
  all_goals simp [rows, cols, Block.bandMode, hb]
  all_goals omega

end Sys2Proof.Machine

namespace Sys2Proof.Machine

/-! ### Registers of the head ports under the operations of a boundary (R22, R102, R108) -/

theorem bitOf_setFieldOf {hi lo : Nat} (h : hi < 32) (l : lo ≤ hi) (w : Word) (v i : Nat) :
    bitOf (setFieldOf w hi lo v) i = if lo ≤ i ∧ i ≤ hi then v.testBit (i - lo) else bitOf w i :=
  getLsbD_setFieldOf w hi lo v i h l

section
variable {b : Block} {off : Nat}

@[simp] theorem rd_mirror (w : PairWrite) (b : Block) (off : Nat) : (mirror w b).rd off = b.rd off := by
  obtain ⟨o, l, e⟩ := mirror_eq w b
  rw [e]
  rfl

@[simp] theorem rd_syncDescriptor (h : Nat) (b : Block) (off : Nat) : (syncDescriptor h b).rd off = b.rd off := rfl

@[simp] theorem rd_setCal (h : Nat) (c : CalSt) (b : Block) (off : Nat) : (setCal h c b).rd off = b.rd off := rfl

@[simp] theorem rd_queueCmd (h : Nat) (c : HdCmd) (b : Block) (off : Nat) : (queueCmd h c b).rd off = b.rd off := rfl

@[simp] theorem rd_calShutter (h : Nat) (close : Bool) (b : Block) (off : Nat) :
    (calShutter h close b).rd off = b.rd off := by
  unfold calShutter
  split <;> rfl

@[simp] theorem rd_mirrorShut (h : Nat) (b : Block) (off : Nat) : (mirrorShut h b).rd off = b.rd off := by
  unfold mirrorShut
  dsimp only
  split
  · split
    · exact rd_mirror _ _ _
    · rfl
  · rfl

theorem rd_queueWrite_other (ho : off ∉ ledgerRegs) (q : LdgReq) : (queueWrite q b).rd off = b.rd off :=
  ((Reported.refl ledgerRegs b).queueWrite (fun _ h => h) q).rd off ho

theorem rd_startDigest_other {h : Nat} (ho : off ≠ Reg.HD_BANK h) (bank restore : Bool) :
    (startDigest h bank restore b).rd off = b.rd off := Block.rd_setBit_other ho _

theorem rd_refreshRetain_other {h : Nat} (ho : off ≠ Reg.HD_BANK h) : (refreshRetain h b).rd off = b.rd off :=
  Block.rd_putBit_other ho _ _

/-- A register after either of two courses. -/
theorem rd_ite {c : Prop} [Decidable c] {x y : Block} {w : Word} (hx : x.rd off = w) (hy : y.rd off = w) :
    (if c then x else y).rd off = w := by
  split
  · exact hx
  · exact hy

theorem rd_switchBank_other {h : Nat} (ho : off ≠ Reg.HD_BANK h) : (switchBank h b).rd off = b.rd off := by
  have switched (x : HeadSt) : (refreshRetain h (Block.setHd ((b.putBit (Reg.HD_BANK h) 0 (!b.activeBank h)).clrBit
      (Reg.HD_BANK h) 1) h x)).rd off = b.rd off := by
    rw [rd_refreshRetain_other ho, Block.setHd_rd, Block.rd_clrBit_other ho, Block.rd_putBit_other ho]
  unfold switchBank
  dsimp only
  rw [rd_syncDescriptor]
  refine rd_ite (switched _) ?_
  split
  · rw [rd_startDigest_other ho]
    exact switched _
  · exact rd_ite (switched _) (switched _)

section
variable {h : Nat} (ho : off ≠ Reg.CAL_H_STAT h)
include ho

theorem rd_setCalState_other (n : Nat) : (setCalState h n b).rd off = b.rd off := by
  simp [setCalState, Block.rd_putBit_other ho, Block.rd_setFld_other ho]

theorem rd_calEnd_other : (calEnd h b).rd off = b.rd off := by
  simp [calEnd, rd_setCalState_other ho]

theorem rd_calOpen_other : (calOpen h b).rd off = b.rd off := by
  exact rd_ite (rd_calEnd_other ho) (rd_ite (rd_ite (rd_calEnd_other ho) (rd_setCalState_other ho 8))
    (rd_ite (rd_setCalState_other ho 8) (by rw [rd_calShutter, rd_setCalState_other ho, rd_setCal])))

end

/-- The registers that the boundary of a calibration switch writes (R227). -/
def calSwitchRegs (h : Nat) : List Nat :=
  [Reg.CAL_H_TREF h, Reg.CAL_H_TSHUT h, Reg.CAL_H_STAT h, Reg.CAL_H_CNT h, Reg.HD_BANK h] ++ ledgerRegs

theorem rd_calSwitched_other {h : Nat} (ho : off ∉ calSwitchRegs h) : (calSwitched h b).rd off = b.rd off := by
  simp only [calSwitchRegs, List.cons_append, List.nil_append, List.mem_cons, not_or] at ho
  obtain ⟨htref, htshut, hstat, hcnt, hbank, hldg⟩ := ho
  have noted {c : Block} (hc : c.rd off = b.rd off) (w : Nat) : (((((c.wrN (Reg.CAL_H_TSHUT h) w).setBit
      (Reg.CAL_H_STAT h) 6).inc (Reg.CAL_H_CNT h) 31 16 1).setFld (Reg.CAL_H_STAT h) 31 24 0).clrBit (Reg.HD_BANK h) 3).rd off
      = b.rd off := by
    rw [Block.rd_clrBit_other hbank, Block.rd_setFld_other hstat, Block.rd_inc_other hcnt, Block.rd_setBit_other hstat,
      Block.rd_wrN_other htshut, hc]
  have tref {w : Nat} : (if b.wroteNow (Reg.CAL_H_TREF h) then b else b.wrN (Reg.CAL_H_TREF h) w).rd off = b.rd off :=
    rd_ite rfl (Block.rd_wrN_other htref _)
  unfold calSwitched
  refine rd_ite rfl (rd_ite ?_ rfl)
  rw [rd_calOpen_other hstat, rd_setCal]
  refine rd_ite (noted tref _) ?_
  rw [rd_queueWrite_other hldg]
  exact noted tref _

theorem rd_doSwitch_other {h : Nat} (ho : off ∉ calSwitchRegs h) : (doSwitch h b).rd off = b.rd off := by
  rw [doSwitch, rd_calSwitched_other ho, rd_switchBank_other]
  rintro rfl
  simp [calSwitchRegs] at ho

theorem rd_boundarySwitches_other {h p : Nat} (ho : off ≠ Reg.PL_LIN_CTL p) :
    (boundarySwitches h p b).rd off = b.rd off := by
  unfold boundarySwitches
  dsimp only
  have flipped : (if p < 26 && b.bit (Reg.PL_LIN_CTL p) 5 then
      (b.putBit (Reg.PL_LIN_CTL p) 4 (!b.bit (Reg.PL_LIN_CTL p) 4)).clrBit (Reg.PL_LIN_CTL p) 5 else b).rd off = b.rd off :=
    rd_ite (by rw [Block.rd_clrBit_other ho, Block.rd_putBit_other ho]) rfl
  generalize (if p < 26 && b.bit (Reg.PL_LIN_CTL p) 5 then
      (b.putBit (Reg.PL_LIN_CTL p) 4 (!b.bit (Reg.PL_LIN_CTL p) 4)).clrBit (Reg.PL_LIN_CTL p) 5 else b) = c at *
  split
  · exact flipped
  · exact rd_ite flipped flipped

end

/-! ### Pipeline registers lie above the others -/

section
variable {b : Block} {off : Nat} (ho : off < 0x1A0000)
include ho

theorem rd_refreshSpare_below (p : Nat) : (refreshSpare p b).rd off = b.rd off :=
  Block.rd_putBit_other (by grind) _ _

theorem rd_setRot_below (p code : Nat) : (setRot p code b).rd off = b.rd off := Block.rd_setFld_other (by grind) _ _ _

theorem rd_plAssign_below (p h : Nat) : (plAssign p h b).rd off = b.rd off := by
  rw [plAssign, rd_refreshSpare_below ho, Block.rd_setFld_other (by grind), Block.rd_putBit_other (by grind)]

theorem rd_refreshDrain_below (p : Nat) : (refreshDrain p b).rd off = b.rd off := by
  unfold refreshDrain
  split
  · split
    · exact Block.rd_setBit_other (by grind) _
    · rw [Block.rd_clrBit_other (by grind), Block.setPl_rd]
  · rfl

theorem rd_vacate_below (p h : Nat) (bist : Bool) : (vacate p h bist b).rd off = b.rd off := by
  rw [vacate, rd_refreshDrain_below ho, rd_plAssign_below ho, Block.setPl_rd]

theorem rd_putRegs_below {base : Nat} (hb : 0x1A0000 ≤ base) (ws : List Word) : (putRegs base ws b).rd off = b.rd off := by
  induction ws generalizing base b with
  | nil => rfl
  | cons w ws ih => rw [putRegs, ih (by omega), Block.rd_wr_other _ _ _ _ (by omega)]

theorem rd_resetForecastRegs_below (p : Nat) : (resetForecastRegs p b).rd off = b.rd off :=
  forEach_induct (fun c : Block => c.rd off = b.rd off) _ rfl fun i _ c hc => by rw [Block.rd_wr_other _ _ _ _ (by omega), hc]

/-- Below the pipelines a move writes HD_BIND of its head alone, and there the field CUR_PIPE (R108). -/
theorem rd_applyMove_below (h p : Nat) : (applyMove h p b).rd off =
    if off = Reg.HD_BIND h then setFieldOf (b.rd off) 28 24 (b.pl p).moveTo else b.rd off := by
  unfold applyMove
  dsimp only
  rw [rd_vacate_below ho, rd_setRot_below ho, Block.rd_setFld]
  split
  · next e =>
    rw [← e, Block.rd_clrBit_other (by grind), rd_resetForecastRegs_below ho, rd_plAssign_below ho, Block.setPl_rd,
      rd_putRegs_below ho (by omega)]
  · rw [Block.rd_clrBit_other (by grind), rd_resetForecastRegs_below ho, rd_plAssign_below ho, Block.setPl_rd,
      rd_putRegs_below ho (by omega)]

/-- Below the pipelines an unbind writes HD_BIND of its head alone: no longer bound, nothing pending, no pipeline (R87). -/
theorem rd_applyUnbind_below (h : Nat) : (applyUnbind h b).rd off =
    if off = Reg.HD_BIND h then setFieldOf (setFieldOf (setFieldOf (b.rd off) 31 31 0) 30 30 0) 28 24 31 else b.rd off := by
  unfold applyUnbind
  dsimp only
  rw [rd_vacate_below ho]
  have cleared (x : HeadSt) :
      ((((b.setHd h x).clrBit (Reg.HD_BIND h) 31).clrBit (Reg.HD_BIND h) 30).setFld (Reg.HD_BIND h) 28 24 31).rd off =
      if off = Reg.HD_BIND h then setFieldOf (setFieldOf (setFieldOf (b.rd off) 31 31 0) 30 30 0) 28 24 31 else b.rd off := by
    rw [Block.rd_setFld]
    split
    · next e => rw [e, Block.rd_clrBit, if_pos rfl, Block.rd_clrBit, if_pos rfl, Block.setHd_rd]
    · next e => rw [Block.rd_clrBit_other e, Block.rd_clrBit_other e, Block.setHd_rd]
  exact rd_ite (by rw [rd_setRot_below ho]; exact cleared _) (cleared _)

end

/-! ### The boundary at which a head is unbound -/

theorem rd_seamCheck_other {b : Block} {off : Nat} (ho : off ≠ Reg.SEAM_STAT) : (seamCheck b).rd off = b.rd off := by
  unfold seamCheck
  have capped : (if 49152 < b.stripCols then b.setBit Reg.SEAM_STAT 1 else b).rd off = b.rd off :=
    rd_ite (Block.rd_setBit_other ho _) rfl
  exact rd_ite (by rw [Block.rd_setBit_other ho, capped]) capped

theorem rd_releaseEdits_other {b : Block} {off : Nat} (ho : off ≠ Reg.DEF_STAT) (h : Nat) :
    (releaseEdits h b).rd off = b.rd off := by
  have fresh (c : Block) : (refreshDef c).rd off = c.rd off := by
    rw [refreshDef, Block.rd_setFld_other ho, Block.rd_putBit_other ho]
  unfold releaseEdits startEdit
  split <;> exact fresh _

/-- What of a head's boundary comes before its unbind: the bank and table switches and the move (R22). -/
def beforeUnbind (h : Nat) (b : Block) : Block :=
  let p := b.curPipe h
  let b := if b.bit (Reg.HD_BANK h) 1 then doSwitch h b else b
  let b := boundarySwitches h p b
  if p < 26 && b.bit (Reg.PL_STAT p) 12 then applyMove h p b else b

theorem boundary_eq (h : Nat) (b : Block) : boundary h b = releaseEdits h
    (if (beforeUnbind h b).bit (Reg.HD_BIND h) 30 then
      seamCheck (applyUnbind h (mgEnd h 6 true (calAbandon h (trimsFlush h (beforeUnbind h b)))))
    else beforeUnbind h b) := rfl

section
variable {h : Nat} (hh : h < 24) {b : Block}
include hh

/-- Switches and a move leave a pending unbind pending. -/
theorem unbindPending_beforeUnbind : (beforeUnbind h b).bit (Reg.HD_BIND h) 30 = b.bit (Reg.HD_BIND h) 30 := by
  have below : Reg.HD_BIND h < 0x1A0000 := by grind
  have calOther : Reg.HD_BIND h ∉ calSwitchRegs h := by
    unfold calSwitchRegs ledgerRegs
    grind
  have switched : (boundarySwitches h (b.curPipe h) (if b.bit (Reg.HD_BANK h) 1 then doSwitch h b else b)).rd
      (Reg.HD_BIND h) = b.rd (Reg.HD_BIND h) := by
    rw [rd_boundarySwitches_other (by grind)]
    exact rd_ite (rd_doSwitch_other calOther) rfl
  have moved {c : Block} (hc : c.rd (Reg.HD_BIND h) = b.rd (Reg.HD_BIND h)) (p : Nat) (move : Bool) :
      (if move then applyMove h p c else c).bit (Reg.HD_BIND h) 30 = b.bit (Reg.HD_BIND h) 30 := by
    cases move
    · exact congrArg (bitOf · 30) hc
    · rw [if_pos rfl, Block.bit, rd_applyMove_below below, if_pos rfl, bitOf_setFieldOf (by decide) (by decide),
        if_neg (by decide), hc]
      rfl
  exact moved switched _ _

/-- A head whose unbind is pending is bound to no pipeline after its boundary (R22, R87). -/
theorem unbound_boundary (hp : b.bit (Reg.HD_BIND h) 30 = true) :
    (boundary h b).bound h = false ∧ (boundary h b).curPipe h = 31 := by
  have below : Reg.HD_BIND h < 0x1A0000 := by grind
  have left (c : Block) : (releaseEdits h (seamCheck (applyUnbind h c))).rd (Reg.HD_BIND h) =
      setFieldOf (setFieldOf (setFieldOf (c.rd (Reg.HD_BIND h)) 31 31 0) 30 30 0) 28 24 31 := by
    rw [rd_releaseEdits_other (by grind), rd_seamCheck_other (by grind), rd_applyUnbind_below below, if_pos rfl]
  rw [boundary_eq, if_pos (by rw [unbindPending_beforeUnbind hh, hp]), Block.bound, Block.bit, Block.curPipe, Block.fld, left]
  refine ⟨?_, fieldOf_setFieldOf_same _ 28 24 31 (by decide) (by decide)⟩
  rw [bitOf_setFieldOf (by decide) (by decide), if_neg (by decide), bitOf_setFieldOf (by decide) (by decide),
    if_neg (by decide), bitOf_setFieldOf (by decide) (by decide), if_pos (by decide)]
  rfl

end

end Sys2Proof.Machine

namespace Sys2Proof.Machine

/-! ### What a bind makes of its head and pipeline (R23, R87, R89) -/

theorem hd_setHd (b : Block) (k h : Nat) (x : HeadSt) : (b.setHd k x).hd h = if h = k then x else b.hd h := by
  simp [Block.hd, Block.setHd, SMap.get_set]

@[simp] theorem Block.heads_setBit (b : Block) (off i : Nat) : (b.setBit off i).heads = b.heads := by
  unfold Block.setBit Block.noteAgain
  split <;> rfl

@[simp] theorem Block.heads_setFld (b : Block) (off hi lo v : Nat) : (b.setFld off hi lo v).heads = b.heads := rfl

@[simp] theorem heads_plAssign (p h : Nat) (b : Block) : (plAssign p h b).heads = b.heads := rfl

@[simp] theorem heads_queueCmd (h : Nat) (c : HdCmd) (b : Block) : (queueCmd h c b).heads = b.heads := rfl

/-- The binding of head `h` to pipeline `p`, and its admitted rate and accumulator bytes, are in `b` as they are in `a`. -/
structure KeepsBinding (h p : Nat) (a b : Block) : Prop where
  rd : ∀ off ∈ [Reg.HD_BIND h, Reg.HD_BINDSTAT h, Reg.PL_STAT p], b.rd off = a.rd off
  rate : (b.hd h).rate = (a.hd h).rate
  accum : (b.hd h).accum = (a.hd h).accum

namespace KeepsBinding

variable {h p : Nat} {a b c : Block}

theorem refl (h p : Nat) (a : Block) : KeepsBinding h p a a := ⟨fun _ _ => rfl, rfl, rfl⟩

theorem trans (k : KeepsBinding h p a b) (l : KeepsBinding h p b c) : KeepsBinding h p a c :=
  ⟨fun off ho => (l.rd off ho).trans (k.rd off ho), l.rate.trans k.rate, l.accum.trans k.accum⟩

theorem ite (k : KeepsBinding h p a b) (l : KeepsBinding h p a c) {q : Prop} [Decidable q] :
    KeepsBinding h p a (if q then b else c) := by
  split
  · exact k
  · exact l

/-- An operation on other registers. -/
theorem other (k : KeepsBinding h p a b) (hr : ∀ off ∈ [Reg.HD_BIND h, Reg.HD_BINDSTAT h, Reg.PL_STAT p], c.rd off = b.rd off)
    (hh : c.heads = b.heads) : KeepsBinding h p a c :=
  k.trans ⟨hr, by rw [Block.hd, hh]; rfl, by rw [Block.hd, hh]; rfl⟩

section
variable (k : KeepsBinding h p a b) {off : Nat} (ho : off ∉ [Reg.HD_BIND h, Reg.HD_BINDSTAT h, Reg.PL_STAT p])
include k ho

theorem wr (v : Word) : KeepsBinding h p a (b.wr off v) :=
  k.other (fun o hm => b.rd_wr_other off v o (ne_of_mem_of_not_mem hm ho)) rfl

theorem setBit (i : Nat) : KeepsBinding h p a (b.setBit off i) :=
  k.other (fun _ hm => Block.rd_setBit_other (ne_of_mem_of_not_mem hm ho) i) (b.heads_setBit off i)

end

/-- A change of a head that keeps its admitted rate and accumulator bytes. -/
theorem setHd (k : KeepsBinding h p a b) {g : Nat} {x : HeadSt} (hr : x.rate = (b.hd g).rate) (ha : x.accum = (b.hd g).accum) :
    KeepsBinding h p a (b.setHd g x) := by
  refine k.trans ⟨fun _ _ => rfl, ?_, ?_⟩ <;> rw [hd_setHd] <;> split
  · next e => rw [hr, e]
  · rfl
  · next e => rw [ha, e]
  · rfl

theorem refreshForecast (k : KeepsBinding h p a b) : KeepsBinding h p a (refreshForecast h p b) := by
  unfold Machine.refreshForecast
  refine k.ite ?_
  iterate 7 refine wr ?_ (by grind) _
  exact k

theorem calBind (hh : h < 24) (k : KeepsBinding h p a b) : KeepsBinding h p a (calBind h b) := by
  unfold Machine.calBind calAuto
  refine ite (ite ?_ k) k
  unfold calPend setCalState
  iterate 3 refine wr ?_ (by grind) _
  exact k.setHd rfl rfl

theorem mgCause (k : KeepsBinding h p a b) (n : Nat) : KeepsBinding h p a (mgCause p n b) := by
  unfold Machine.mgCause
  exact ite (k.wr (by grind) _) k

theorem mgStart (k : KeepsBinding h p a b) : KeepsBinding h p a (mgStart p b) := by
  unfold Machine.mgStart
  split
  · exact k.mgCause 6
  · refine k.ite (ite (k.mgCause 3) (ite (k.mgCause 7) ?_))
    exact ((k.mgCause 0).wr (by grind) _).setHd rfl rfl

theorem seamCheck (k : KeepsBinding h p a b) : KeepsBinding h p a (seamCheck b) := by
  unfold Machine.seamCheck
  have capped : KeepsBinding h p a (if 49152 < b.stripCols then b.setBit Reg.SEAM_STAT 1 else b) :=
    (k.setBit (by grind) 1).ite k
  exact ite (capped.setBit (by grind) 7) capped

end KeepsBinding

/-- A head with the rate and the accumulator space of its declarations admitted (R23). -/
def admitHead (h : Nat) (b : Block) : HeadSt :=
  { b.hd h with
    rate := b.colsOf h * b.rowsOf h * b.num (Reg.HD_RATE h)
    accum := if b.bandMode h then b.colsOf h * b.rowsOf h * 4 else 0 }

/-- An accepted bind (R23, R89): the head's rate and space admitted, head and pipeline told of each other, SET_MODE. -/
def acceptBind (h p : Nat) (b : Block) : Block :=
  let b := b.setHd h (admitHead h b)
  let b := (b.setBit (Reg.HD_BIND h) 31).setFld (Reg.HD_BIND h) 28 24 p
  setModeCmd h (plAssign p h (b.setPort h { b.port h with heldReload := false }))

/-- A head's new binding has no committed plane and begins a new band integration (R144, R178). -/
def noteBound (h : Nat) (b : Block) : Block :=
  let x := b.hd h
  b.setHd h { x with bindNo := x.bindNo + 1, plane := none, tdi := { x.tdi with last := none } }

/-- What an accepted bind starts (R168, R215). -/
def startBound (h p : Nat) (b : Block) : Block :=
  let b := calBind h (notePacket h (refreshForecast h p (noteBound h b)))
  seamCheck (if b.bit (Reg.PL_MG_CTL p) 16 then mgStart p b else b)

/-- A bind reports its code, and goes on where it is 0. -/
theorem bindHead_eq (r : Requester) (h p wx wy : Nat) (b : Block) : (bindHead r h p wx wy b).2 =
    if admission h p wx wy b = 0 then
      startBound h p (acceptBind h p (b.wrN (Reg.HD_BINDSTAT h) (2 ^ 31 + bindSrc r + admission h p wx wy b)))
    else b.wrN (Reg.HD_BINDSTAT h) (2 ^ 31 + bindSrc r + admission h p wx wy b) := by
  unfold bindHead requestBind
  by_cases hc : admission h p wx wy b = 0
  · simp only [hc, ne_eq, not_true, if_false, if_true]
    rfl
  · simp only [hc, ne_eq, not_false_eq_true, if_true, if_false]

theorem keepsBinding_startBound {h : Nat} (p : Nat) (hh : h < 24) (b : Block) : KeepsBinding h p b (startBound h p b) := by
  have noted : KeepsBinding h p b (noteBound h b) := (KeepsBinding.refl h p b).setHd rfl rfl
  have packet : KeepsBinding h p b (notePacket h (refreshForecast h p (noteBound h b))) :=
    noted.refreshForecast.other (fun _ _ => rfl) rfl
  have begun := packet.calBind hh
  exact (begun.mgStart.ite begun).seamCheck

/-- PL_STAT of a pipeline given to a head (R89). -/
theorem plStat_plAssign {h : Nat} (hh : h < 24) (p : Nat) (b : Block) :
    (plAssign p h b).bit (Reg.PL_STAT p) 8 = true ∧ (plAssign p h b).fld (Reg.PL_STAT p) 4 0 = h := by
  unfold plAssign refreshSpare
  dsimp only
  simp only [Block.bit, Block.fld, Block.rd_putBit, Block.rd_setFld, if_true]
  constructor
  · rw [bitOf_setFieldOf (by decide) (by decide), if_neg (by decide), bitOf_setFieldOf (by decide) (by decide),
      if_neg (by decide), bitOf_setFieldOf (by decide) (by decide), if_pos (by decide), decide_eq_true hh]
    rfl
  · rw [fieldOf_setFieldOf_other _ 9 9 _ 4 0 (by decide) (by decide) (by decide),
      fieldOf_setFieldOf_same _ 4 0 _ (by decide) (by decide)]
    omega

/-- Head and pipeline of an accepted bind are told of each other, and the head's totals are those of its declarations. -/
theorem bound_acceptBind {h p : Nat} (hh : h < 24) (hp : p < 32) (b : Block) :
    (acceptBind h p b).bound h = true ∧ (acceptBind h p b).curPipe h = p ∧
    (acceptBind h p b).bit (Reg.PL_STAT p) 8 = true ∧ (acceptBind h p b).fld (Reg.PL_STAT p) 4 0 = h ∧
    ((acceptBind h p b).hd h).rate = b.colsOf h * b.rowsOf h * b.num (Reg.HD_RATE h) ∧
    ((acceptBind h p b).hd h).accum = if b.bandMode h then b.colsOf h * b.rowsOf h * 4 else 0 := by
  have bind : (acceptBind h p b).rd (Reg.HD_BIND h) =
      setFieldOf (setFieldOf (b.rd (Reg.HD_BIND h)) 31 31 1) 28 24 p := by
    unfold acceptBind setModeCmd
    dsimp only
    rw [rd_queueCmd, rd_plAssign_below (by grind), Block.setPort_rd, Block.rd_setFld, if_pos rfl, Block.rd_setBit,
      if_pos rfl, Block.setHd_rd]
  have heads : (acceptBind h p b).heads = (b.setHd h (admitHead h b)).heads := by
    unfold acceptBind setModeCmd
    dsimp only
    rw [heads_queueCmd, heads_plAssign, Block.setPort_heads, Block.heads_setFld, Block.heads_setBit]
  have hd : (acceptBind h p b).hd h = admitHead h b := by
    rw [Block.hd, heads]
    exact b.hd_setHd_same h _
  obtain ⟨taken, head⟩ := plStat_plAssign hh p _
  refine ⟨?_, ?_, taken, head, by rw [hd]; rfl, by rw [hd]; rfl⟩
  · rw [Block.bound, Block.bit, bind, bitOf_setFieldOf (by decide) (by decide), if_neg (by decide),
      bitOf_setFieldOf (by decide) (by decide), if_pos (by decide)]
    rfl
  · rw [Block.curPipe, Block.fld, bind, fieldOf_setFieldOf_same _ 28 24 _ (by decide) (by decide)]
    omega

theorem rd_bindStat_acceptBind {h p : Nat} (hh : h < 24) (b : Block) :
    (acceptBind h p b).rd (Reg.HD_BINDSTAT h) = b.rd (Reg.HD_BINDSTAT h) := by
  unfold acceptBind setModeCmd
  dsimp only
  rw [rd_queueCmd, rd_plAssign_below (by grind), Block.setPort_rd, Block.rd_setFld_other (by grind),
    Block.rd_setBit_other (by grind), Block.setHd_rd]

/-- A bind is admitted to one of the 26 pipelines only. -/
theorem lt_of_admission_eq_zero {h p wx wy : Nat} {b : Block} (ha : admission h p wx wy b = 0) : p < 26 := by
  rw [admission_eq] at ha
  split_ifs at ha
  all_goals omega

end Sys2Proof.Machine

namespace Sys2Proof.Machine

/-! ### HD_BIND as it is written (R26, R87) -/

/-- Blocks `b` and `c` differ at most in HD_BINDSTAT of head `h` and in HD_BIND, where BOUND is the same. -/
structure SameButBind (h : Hd) (b c : Block) : Prop where
  rd : ∀ off, off ≠ Reg.HD_BIND h → off ≠ Reg.HD_BINDSTAT h → c.rd off = b.rd off
  bound : c.bound h = b.bound h
  core : c.core = b.core

namespace SameButBind

variable {h : Hd} {b c : Block} (k : SameButBind h b c)
include k

theorem heads : c.heads = b.heads := (congrArg (fun x : Block => x.heads) k.core : c.core.heads = b.core.heads)

theorem pipes : c.pipes = b.pipes := (congrArg (fun x : Block => x.pipes) k.core : c.core.pipes = b.core.pipes)

theorem ports : c.ports = b.ports := (congrArg (fun x : Block => x.ports) k.core : c.core.ports = b.core.ports)

theorem bit {off : Nat} (ho : off ≠ Reg.HD_BIND h) (ho' : off ≠ Reg.HD_BINDSTAT h) (i : Nat) : c.bit off i = b.bit off i :=
  congrArg (bitOf · i) (k.rd off ho ho')

theorem fld {off : Nat} (ho : off ≠ Reg.HD_BIND h) (ho' : off ≠ Reg.HD_BINDSTAT h) (hi lo : Nat) :
    c.fld off hi lo = b.fld off hi lo := congrArg (fieldOf · hi lo) (k.rd off ho ho')

theorem cols : c.colsOf h = b.colsOf h := k.fld (by grind) (by grind) 11 0

theorem band : c.bandMode h = b.bandMode h := k.bit (by grind) (by grind) 0

theorem rows : c.rowsOf h = b.rowsOf h := by
  unfold Block.rowsOf
  rw [k.bit (by grind) (by grind), k.fld (by grind) (by grind), k.fld (by grind) (by grind)]

theorem rate : c.num (Reg.HD_RATE h) = b.num (Reg.HD_RATE h) := congrArg BitVec.toNat (k.rd _ (by grind) (by grind))

/-- The admission check looks at nothing of HD_BIND but BOUND. -/
theorem admission (p wx wy : Nat) : admission h p wx wy c = admission h p wx wy b := by
  have below := h.isLt
  have ok : c.geomOk h wx wy = b.geomOk h wx wy := by
    unfold Block.geomOk Block.port
    rw [k.cols, k.rows, k.band, k.rate, k.ports, k.fld (by grind) (by grind)]
  have pl : c.pl p = b.pl p := by rw [Block.pl, Block.pl, k.pipes]
  have stat : ∀ i, c.bit (Reg.PL_STAT p) i = b.bit (Reg.PL_STAT p) i := k.bit (by grind) (by grind)
  unfold Machine.admission
  dsimp only
  rw [k.cols, k.rows, k.band, k.rate, ok, k.bound, k.heads, pl, stat, stat, stat, k.bit (by grind) (by grind)]

end SameButBind

theorem regRow_hdBind (h : Hd) :
    regRow (Reg.HD_BIND h) = some ⟨0x1C, 1, 0, 0x1F000000, 0xDF3FFFDF, 0x3FFFDF, 0x0, []⟩ := by
  fin_cases h <;> rfl

/-- HD_BIND is written as a whole word, and mirrored (R338). -/
theorem registerWord_hdBind (h : Hd) : registerWord (Reg.HD_BIND h) := by
  revert h
  decide

theorem writeUnit_hdBind (r : Requester) (h : Hd) (val : Word) (b : Block) :
    writeUnit r (Reg.HD_BIND h) val b = bindCmd r h val b := by
  fin_cases h <;> rfl

/-- A write of HD_BIND is the sender's, whatever was written in its cycle (log entry 145). -/
theorem yields_hdBind (b : Block) (k : Nat) (h : Hd) (val : Word) : b.yields k (Reg.HD_BIND h) val = val := by
  have place : (decide (0x100000 ≤ Reg.HD_BIND h) && decide (Reg.HD_BIND h < 0x118000)
      && decide (Reg.HD_BIND h % 0x1000 = 0x1C)) = true := by
    revert h
    decide
  rw [Block.yields, regRow_hdBind]
  dsimp only
  rw [place, if_pos rfl, ite_self]

/-- The bits of HD_BIND that a write stores leave BOUND. -/
theorem bound_genWrite_hdBind (h : Hd) (val : Word) (b : Block) :
    (b.genWrite (Reg.HD_BIND h) val).bound h = b.bound h := by
  rw [Block.bound, Block.bit, Block.rd_genWrite, if_pos rfl, written, regRow_hdBind]
  simp [applyWrite, bitOf, Block.bound, Block.bit]

/-- HD_BIND with BIND alone is a bind request with the fields written (R26, R87). -/
theorem bindCmd_bind (r : Requester) (h : Hd) (val : Word) (b : Block) :
    bindCmd r h (setFieldOf val 23 22 1) b = (bindHead r h (fieldOf val 4 0) (fieldOf val 11 6) (fieldOf val 21 12)
      (if b.bound h then b else b.genWrite (Reg.HD_BIND h) (setFieldOf val 23 22 1))).2 := by
  have unbind : bitOf (setFieldOf val 23 22 1) 23 = false := by
    rw [bitOf_setFieldOf (by decide) (by decide), if_pos (by decide)]
    rfl
  have bind : bitOf (setFieldOf val 23 22 1) 22 = true := by
    rw [bitOf_setFieldOf (by decide) (by decide), if_pos (by decide)]
    rfl
  unfold bindCmd
  dsimp only
  rw [unbind, bind, if_neg (by decide), if_pos rfl, fieldOf_setFieldOf_other _ 23 22 _ 4 0 (by decide) (by decide) (by decide),
    fieldOf_setFieldOf_other _ 23 22 _ 11 6 (by decide) (by decide) (by decide),
    fieldOf_setFieldOf_other _ 23 22 _ 21 12 (by decide) (by decide) (by decide)]

/-- HD_BIND of a bound head with UNBIND alone is an unbind request (R26, R87). -/
theorem bindCmd_unbind (r : Requester) (h : Hd) (val : Word) {b : Block} (hb : b.bound h = true) :
    bindCmd r h (setFieldOf val 23 22 2) b = unbindHead h b := by
  have unbind : bitOf (setFieldOf val 23 22 2) 23 = true := by
    rw [bitOf_setFieldOf (by decide) (by decide), if_pos (by decide)]
    rfl
  unfold bindCmd
  dsimp only
  rw [hb, if_pos rfl, unbind, if_pos rfl]

end Sys2Proof.Machine

namespace Sys2Proof.Machine

/-! ### A bind and an unbind request as they take effect (R22, R23, R87) -/

/-- The register part of a write of HD_BIND, with the telling of the partner before it. -/
theorem SameButBind.stored (h : Hd) (val : Word) (b : Block) (o : List Out) (l : Trail) :
    SameButBind h b (if (b.sending o l).bound h then b.sending o l else (b.sending o l).genWrite (Reg.HD_BIND h) val) := by
  split
  · exact ⟨fun _ _ _ => rfl, rfl, rfl⟩
  · refine ⟨fun off ho _ => ?_, bound_genWrite_hdBind h val _, ?_⟩
    · rw [Block.rd_genWrite, if_neg ho, Block.sending_rd]
    · rw [Block.genWrite_frame]
      rfl

/-- A report in HD_BINDSTAT leaves the rest. -/
theorem SameButBind.report {h : Hd} {b c : Block} (k : SameButBind h b c) (v : Nat) :
    SameButBind h b (c.wrN (Reg.HD_BINDSTAT h) v) where
  rd off ho ho' := (Block.rd_wrN_other ho' v).trans (k.rd off ho ho')
  bound := (congrArg (bitOf · 31) (Block.rd_wrN_other (by grind) v)).trans k.bound
  core := k.core

/-- What an accepted bind of head `h` to pipeline `p` makes of block `a` (R23, R89). -/
structure Bound (h : Hd) (p : Nat) (a t : Block) : Prop where
  bound : t.bound h = true
  pipe : t.curPipe h = p
  taken : t.bit (Reg.PL_STAT p) 8 = true
  head : t.fld (Reg.PL_STAT p) 4 0 = h.val
  rate : (t.hd h).rate = a.colsOf h * a.rowsOf h * a.num (Reg.HD_RATE h)
  accum : (t.hd h).accum = if a.bandMode h then a.colsOf h * a.rowsOf h * 4 else 0

theorem bound_of_acceptBind {h : Hd} {p : Nat} {a b : Block} (hp : p < 32) (k : SameButBind h a b) :
    Bound h p a (acceptBind h p b) := by
  obtain ⟨bound, pipe, taken, head, rate, accum⟩ := bound_acceptBind h.isLt hp b
  rw [k.cols, k.rows, k.rate] at rate
  rw [k.cols, k.rows, k.band] at accum
  exact ⟨bound, pipe, taken, head, rate, accum⟩

/-- Whatever keeps the binding keeps what the bind made. -/
theorem Bound.keep {h : Hd} {p : Nat} {a b c : Block} (k : Bound h p a b) (l : KeepsBinding h p b c) : Bound h p a c where
  bound := (congrArg (bitOf · 31) (l.rd _ (by simp))).trans k.bound
  pipe := (congrArg (fieldOf · 28 24) (l.rd _ (by simp))).trans k.pipe
  taken := (congrArg (bitOf · 8) (l.rd _ (by simp))).trans k.taken
  head := (congrArg (fieldOf · 4 0) (l.rd _ (by simp))).trans k.head
  rate := l.rate.trans k.rate
  accum := l.accum.trans k.accum

theorem keepsBinding_of_settles (h : Hd) (p : Nat) {b t : Block} (ht : Settles b t) : KeepsBinding h p b t where
  rd off ho := ht.rd off (by
    have := h.isLt
    have pba : Reg.MSIX_PBA 0 ∉ [Reg.HD_BIND h, Reg.HD_BINDSTAT h, Reg.PL_STAT p] := by grind
    exact ne_of_mem_of_not_mem ho pba)
  rate := by rw [Block.hd, ht.heads]; rfl
  accum := by rw [Block.hd, ht.heads]; rfl

/-- A judged bind of head `h` to pipeline `p` with code `code`: block `a` before, `t` after (R23, R24). -/
structure Judged (r : Requester) (h : Hd) (p code : Nat) (a t : Block) : Prop where
  report : t.rd (Reg.HD_BINDSTAT h) = BitVec.ofNat 32 (2 ^ 31 + bindSrc r + code)
  accepted : code = 0 → Bound h p a t
  refused : code ≠ 0 → t.bound h = a.bound h ∧ t.core = a.core

theorem judged_bindHead {h : Hd} {a b : Block} (k : SameButBind h a b) (r : Requester) (p wx wy : Nat) :
    Judged r h p (admission h p wx wy a) a (bindHead r h p wx wy b).2 := by
  have same := k.report (2 ^ 31 + bindSrc r + admission h p wx wy a)
  have told : (b.wrN (Reg.HD_BINDSTAT h) (2 ^ 31 + bindSrc r + admission h p wx wy a)).rd (Reg.HD_BINDSTAT h) =
      BitVec.ofNat 32 (2 ^ 31 + bindSrc r + admission h p wx wy a) := by rw [Block.rd_wrN, if_pos rfl]
  rw [bindHead_eq, k.admission]
  split
  · next accept =>
    have begun := keepsBinding_startBound p h.isLt
      (acceptBind h p (b.wrN (Reg.HD_BINDSTAT h) (2 ^ 31 + bindSrc r + admission h p wx wy a)))
    have pipe : p < 32 := (lt_of_admission_eq_zero accept).trans (by decide)
    exact ⟨(begun.rd _ (by simp)).trans ((rd_bindStat_acceptBind h.isLt _).trans told),
      fun _ => (bound_of_acceptBind pipe same).keep begun, fun hc => absurd accept hc⟩
  · next refuse => exact ⟨told, fun hc => absurd hc refuse, fun _ => ⟨same.bound, same.core⟩⟩

theorem Judged.settles {r : Requester} {h : Hd} {p code : Nat} {a b t : Block} (j : Judged r h p code a b)
    (ht : Settles b t) : Judged r h p code a t := by
  have keeps : KeepsBinding h p b t := keepsBinding_of_settles h p ht
  refine ⟨(keeps.rd _ (by simp)).trans j.report, fun hc => (j.accepted hc).keep keeps, fun hc => ?_⟩
  obtain ⟨bound, core⟩ := j.refused hc
  exact ⟨(congrArg (bitOf · 31) (keeps.rd _ (by simp))).trans bound, ht.core.trans core⟩

/-- The clock set back to where it stood is no part of the judgement. -/
theorem Judged.clock {r : Requester} {h : Hd} {p code : Nat} {a t : Block} (j : Judged r h p code a t) :
    Judged r h p code a { t with now := a.now } where
  report := j.report
  accepted hc := (j.accepted hc).keep ⟨fun _ _ => rfl, rfl, rfl⟩
  refused hc := by
    obtain ⟨bound, core⟩ := j.refused hc
    exact ⟨bound, congrArg (fun b : Block => { b with now := a.now }) core⟩

/-- With a frame open an unbind only becomes pending (R22, R87). -/
theorem unbindHead_waits {h : Nat} {b : Block} (hb : b.bound h = true) (hp : b.bit (Reg.HD_BIND h) 30 = false)
    (ho : b.frameOpen h = true) : unbindHead h b = b.setBit (Reg.HD_BIND h) 30 := by
  have opened : (b.setBit (Reg.HD_BIND h) 30).frameOpen h = true := by
    rw [Block.frameOpen, Block.hd, Block.heads_setBit]
    exact ho
  rw [unbindHead, hb, hp, if_neg (by decide), boundaryNow, if_pos opened]

theorem unbindHead_applies {h : Nat} {b : Block} (hh : h < 24) (hb : b.bound h = true)
    (hp : b.bit (Reg.HD_BIND h) 30 = false) (ho : b.frameOpen h = false) :
    (unbindHead h b).bound h = false ∧ (unbindHead h b).curPipe h = 31 := by
  have closed : (b.setBit (Reg.HD_BIND h) 30).frameOpen h = false := by
    rw [Block.frameOpen, Block.hd, Block.heads_setBit]
    exact ho
  rw [unbindHead, hb, hp, if_neg (by decide), boundaryNow, closed, if_neg (by decide)]
  refine unbound_boundary hh ?_
  rw [Block.bit, Block.rd_setBit, if_pos rfl, bitOf_setFieldOf (by decide) (by decide), if_pos (by decide)]
  rfl

/-- An unbind request that waits leaves the head bound. -/
theorem bound_setBit_unbind (h : Nat) (b : Block) :
    (b.setBit (Reg.HD_BIND h) 30).bound h = b.bound h ∧ (b.setBit (Reg.HD_BIND h) 30).bit (Reg.HD_BIND h) 30 = true := by
  rw [Block.bound, Block.bit, Block.bit, Block.rd_setBit, if_pos rfl, bitOf_setFieldOf (by decide) (by decide),
    bitOf_setFieldOf (by decide) (by decide), if_neg (by decide), if_pos (by decide)]
  exact ⟨rfl, rfl⟩

theorem Block.core_setBit (b : Block) (off i : Nat) : (b.setBit off i).core = b.core := by
  unfold Block.setBit Block.noteAgain
  split <;> rfl

/-- The outcome of an unbind request of head `h`: block `a` before, `t` after. -/
def Unbinding (h : Hd) (a t : Block) : Prop :=
  if a.frameOpen h then t.bound h = true ∧ t.bit (Reg.HD_BIND h) 30 = true ∧ t.core = a.core
  else t.bound h = false ∧ t.curPipe h = 31

theorem unbinding_unbindHead {h : Hd} {b : Block} (hb : b.bound h = true) (hp : b.bit (Reg.HD_BIND h) 30 = false) :
    Unbinding h b (unbindHead h b) := by
  unfold Unbinding
  split
  · next ho =>
    obtain ⟨bound, pending⟩ := bound_setBit_unbind h b
    rw [unbindHead_waits hb hp ho]
    exact ⟨bound.trans hb, pending, b.core_setBit _ _⟩
  · next ho => exact unbindHead_applies h.isLt hb hp (by simpa using ho)

theorem Unbinding.settles {h : Hd} {a b t : Block} (u : Unbinding h a b) (ht : Settles b t) :
    Unbinding h a { t with now := a.now } := by
  have word : t.rd (Reg.HD_BIND h) = b.rd (Reg.HD_BIND h) :=
    (keepsBinding_of_settles h 0 ht).rd _ (by simp)
  unfold Unbinding at u ⊢
  split <;> rename_i ho
  · rw [if_pos ho] at u
    obtain ⟨bound, pending, core⟩ := u
    exact ⟨(congrArg (bitOf · 31) word).trans bound, (congrArg (bitOf · 30) word).trans pending,
      congrArg (fun b : Block => { b with now := a.now }) (ht.core.trans core)⟩
  · rw [if_neg ho] at u
    obtain ⟨bound, pipe⟩ := u
    exact ⟨(congrArg (bitOf · 31) word).trans bound, (congrArg (fieldOf · 28 24) word).trans pipe⟩

/-- An unbind is a write of HD_BIND with its other fields as they stand. -/
theorem exec_hdBindUnbind (r : Requester) (h : Hd) (s : State) : exec (.hdBindUnbind r h) s =
    carryOut (writeBy r (Reg.HD_BIND h) (setFieldOf (s.blk.rd (Reg.HD_BIND h)) 23 22 2)) s := by
  change execHdBindUnbind r h s = _
  unfold execHdBindUnbind carryOut
  rfl

section
variable {s : State} {r : Requester} (w : Writes r s) (h : Hd)
include w

theorem ends_hdBindBind (val : Word) :
    Ends (.hdBindBind r h val) s (Judged r h (fieldOf val 4 0)
      (admission h (fieldOf val 4 0) (fieldOf val 11 6) (fieldOf val 21 12) s.blk) s.blk) := by
  obtain ⟨hr, hd, hs⟩ := w
  refine ends_of_write rfl (registerWord_hdBind h) hr hd (by rw [hs]; rfl) fun o l t ht => ?_
  rw [yields_hdBind, writeUnit_hdBind, bindCmd_bind] at ht
  exact ((judged_bindHead (.stored h _ s.blk o l) r _ _ _).settles ht).clock

theorem ends_hdBindUnbind (hb : s.blk.bound h = true) (hp : s.blk.bit (Reg.HD_BIND h) 30 = false) :
    Ends (.hdBindUnbind r h) s (Unbinding h s.blk) := by
  obtain ⟨hr, hd, hs⟩ := w
  refine ends_of_write (exec_hdBindUnbind r h s) (registerWord_hdBind h) hr hd (by rw [hs]; rfl) fun o l t ht => ?_
  have sent : (s.blk.sending o l).bound h = true := hb
  have done : Unbinding h (s.blk.sending o l) (unbindHead h (s.blk.sending o l)) := unbinding_unbindHead hb hp
  rw [yields_hdBind, writeUnit_hdBind, bindCmd_unbind r h _ sent] at ht
  exact Unbinding.settles done ht

end

/-- Settles O29: the code follows test by test from `admission_eq`, a bind ends as `judged_bindHead` says and an unbind as
`unbinding_unbindHead` says. -/
theorem binding : Obligations.Binding := by
  intro s r h val p wx wy rate space a hp hx hy hrate hspace
  refine ⟨fun code hcode => ?_, geomOk_iff a h wx wy, fun w => ⟨?_, ends_hdBindUnbind w h⟩⟩
  · rw [admission_eq, ← hrate, ← hspace] at hcode
    refine ⟨fun unlinked => hcode.trans (if_pos unlinked), fun linked => ?_⟩
    replace hcode := hcode.trans (if_neg (by simp [linked]))
    refine ⟨fun held => hcode.trans (if_pos held), fun free inRange => ?_⟩
    replace hcode := hcode.trans ((if_neg (by simp [free])).trans (if_neg (by omega)))
    refine ⟨fun taken => hcode.trans (if_pos taken), fun untaken unreserved => ?_⟩
    replace hcode := hcode.trans (if_neg (by simp [untaken, unreserved]))
    refine ⟨fun unfit => hcode.trans (if_pos unfit), fun kept idle untested => ?_⟩
    replace hcode := hcode.trans (if_neg (by simp [kept, idle, untested]))
    refine ⟨fun misfit => hcode.trans (if_pos misfit), fun fits => ?_⟩
    replace hcode := hcode.trans (if_neg (by simp [fits]))
    refine ⟨fun fast => hcode.trans (if_pos fast), fun slow => ?_⟩
    replace hcode := hcode.trans (if_neg (by omega))
    exact ⟨fun excess => hcode.trans (if_pos excess), fun within => hcode.trans (if_neg (by omega))⟩
  · subst hp hx hy
    obtain ⟨t, ht, hq, hn, j⟩ := ends_hdBindBind w h val
    refine ⟨t, ht, hq, hn, j.report, fun hc => ?_, j.refused⟩
    obtain ⟨bound, pipe, taken, head, heldRate, heldSpace⟩ := j.accepted hc
    exact ⟨bound, pipe, taken, head, heldRate.trans hrate.symm, heldSpace.trans hspace.symm⟩

end Sys2Proof.Machine

namespace Sys2Proof.Machine

/-! ### The reference clock (R41, R395) -/

/-- Outcome `o` is a next state with the queue and the block that reads show as in `s`, and the clock where it stood. -/
def ClockStands (s : State) (o : Host.Outcome State Fault Refusal) : Prop :=
  ∃ b : Block, o = .next { s with blk := { b with now := s.blk.now } }

/-- Every command but TIME_TICK leaves the clock where it stood (R41). -/
theorem exec_clockStands {c : Instr} (hc : ∀ votes sramCe hbmCe upsets, c ≠ .timeTick votes sramCe hbmCe upsets) (s : State) :
    ClockStands s (exec c s) := by
  cases c
  case timeTick votes sramCe hbmCe upsets => exact absurd rfl (hc votes sramCe hbmCe upsets)
  case registerWrite r off val en => cases en <;> exact ⟨_, rfl⟩
  case tblDataAccess r p write => cases write <;> exact ⟨_, rfl⟩
  all_goals exact ⟨_, rfl⟩

/-- Settles O3: TIME_TICK moves the clock by its 32 units and makes the block that reads show; no other command touches
either. -/
theorem clockStaysOnTick : Obligations.ClockStaysOnTick := by
  intro s t onTick shown stepped
  cases queue : s.pending with
  | nil =>
    rw [step, queue] at stepped
    cases stepped
    exact ⟨onTick, shown, .inl rfl⟩
  | cons c cs =>
    rw [step, queue] at stepped
    change exec c { s with pending := cs } = .next t at stepped
    by_cases ticks : ∃ votes sramCe hbmCe upsets, c = .timeTick votes sramCe hbmCe upsets
    · obtain ⟨votes, sramCe, hbmCe, upsets, rfl⟩ := ticks
      cases stepped
      refine ⟨?_, rfl, .inr ⟨rfl, votes, sramCe, hbmCe, upsets, cs, rfl⟩⟩
      exact (Nat.add_mod_right s.blk.now 32).trans onTick
    · obtain ⟨b, hb⟩ := exec_clockStands (c := c) (by grind) { s with pending := cs }
      cases hb.symm.trans stepped
      exact ⟨onTick, shown, .inl rfl⟩

/-- Settles O1: both clauses are how `step` reads the queue. -/
theorem stepRunsFrontCommand : Obligations.StepRunsFrontCommand :=
  ⟨fun _ _ _ => rfl, fun _ _ => rfl⟩

end Sys2Proof.Machine

namespace Sys2Proof.Machine

/-! ### What a settled block keeps -/

namespace Settles

variable {b t : Block}

theorem tim (h : Settles b t) : t.tim = b.tim := (congrArg Block.tim h.frame).trans rfl

theorem pos (h : Settles b t) : t.pos = b.pos := (congrArg Block.pos h.frame).trans rfl

theorem act (h : Settles b t) : t.act = b.act := (congrArg Block.act h.frame).trans rfl

theorem bit (h : Settles b t) {off : Nat} (ho : off ≠ Reg.MSIX_PBA 0) (i : Nat) : t.bit off i = b.bit off i :=
  congrArg (bitOf · i) (h.rd off ho)

theorem rd64 (h : Settles b t) {off : Nat} (ho : off ≠ Reg.MSIX_PBA 0) (ho' : off + 4 ≠ Reg.MSIX_PBA 0) :
    t.rd64 off = b.rd64 off := by
  rw [Block.rd64, Block.rd64, h.rd _ ho, h.rd _ ho']

end Settles

/-! ### What blocks of the same core share -/

theorem Block.now_of_core {a b : Block} (h : b.core = a.core) : b.now = a.now := (congrArg Block.now h : b.core.now = a.core.now)

theorem Block.tim_of_core {a b : Block} (h : b.core = a.core) : b.tim = a.tim := (congrArg Block.tim h : b.core.tim = a.core.tim)

theorem Block.act_of_core {a b : Block} (h : b.core = a.core) : b.act = a.act := (congrArg Block.act h : b.core.act = a.core.act)

/-! ### Register updates leave the rest of the block alone -/

section
variable (b : Block)

/-! These hold by unfolding, and are proved by cases on the block: as `rfl` they would let `simp` leave the comparison of
whole register files to the kernel. -/

@[simp] theorem Block.core_wrN (off v : Nat) : (b.wrN off v).core = b.core := by cases b; rfl

@[simp] theorem Block.core_wr64 (lo : Nat) (v : BitVec 64) : (b.wr64 lo v).core = b.core := by cases b; rfl

@[simp] theorem Block.core_wrS (off : Nat) (v : Int) : (b.wrS off v).core = b.core := by cases b; rfl

@[simp] theorem Block.core_inc (off hi lo n : Nat) : (b.inc off hi lo n).core = b.core := by cases b; rfl

@[simp] theorem Block.tim_wrN (off v : Nat) : (b.wrN off v).tim = b.tim := by cases b; rfl

@[simp] theorem Block.tim_wr64 (lo : Nat) (v : BitVec 64) : (b.wr64 lo v).tim = b.tim := by cases b; rfl

@[simp] theorem Block.tim_wrS (off : Nat) (v : Int) : (b.wrS off v).tim = b.tim := by cases b; rfl

@[simp] theorem Block.tim_inc (off hi lo n : Nat) : (b.inc off hi lo n).tim = b.tim := by cases b; rfl

@[simp] theorem Block.now_wr64 (lo : Nat) (v : BitVec 64) : (b.wr64 lo v).now = b.now := by cases b; rfl

@[simp] theorem Block.now_wrS (off : Nat) (v : Int) : (b.wrS off v).now = b.now := by cases b; rfl

@[simp] theorem Block.now_inc (off hi lo n : Nat) : (b.inc off hi lo n).now = b.now := by cases b; rfl

@[simp] theorem Block.host_inc (off hi lo n : Nat) : (b.inc off hi lo n).host = b.host := by cases b; rfl

@[simp] theorem Block.core_emit (o : Out) : (b.emit o).core = b.core := by cases b; rfl

@[simp] theorem Block.tim_setBit (off i : Nat) : (b.setBit off i).tim = b.tim := by
  simp only [Block.setBit, Block.noteAgain]
  split <;> rfl

@[simp] theorem Block.now_setBit (off i : Nat) : (b.setBit off i).now = b.now := by
  simp only [Block.setBit, Block.noteAgain]
  split <;> rfl

theorem Block.rd_wr64 (lo : Nat) (v : BitVec 64) (o : Nat) : (b.wr64 lo v).rd o =
    if o = lo + 4 then (v >>> 32).setWidth 32 else if o = lo then v.setWidth 32 else b.rd o := by
  rw [Block.wr64, Block.rd_wr, Block.rd_wr]

theorem Block.rd_wrS (off : Nat) (v : Int) (o : Nat) :
    (b.wrS off v).rd o = if o = off then BitVec.ofInt 32 (satS 32 v) else b.rd o := b.rd_wr _ _ _

/-- A pair of registers reads the 64 bits written to it. -/
theorem Block.rd64_wr64 (lo : Nat) (v : BitVec 64) : (b.wr64 lo v).rd64 lo = v := by
  rw [Block.rd64, Block.rd_wr64, Block.rd_wr64, if_neg (by omega), if_pos rfl, if_pos rfl, u64]
  refine BitVec.eq_of_getLsbD_eq fun i hi => ?_
  rw [BitVec.getLsbD_append]
  by_cases h : i < 32
  · simp [h]
  · simp [h, show 32 + (i - 32) = i by omega, show i - 32 < 32 by omega]

/-- A status bit reads 1 once the hardware has set it. -/
theorem Block.bit_setBit_same (off : Nat) {i : Nat} (h : i < 32) : (b.setBit off i).bit off i = true := by
  rw [Block.bit, Block.rd_setBit, if_pos rfl]
  simp [bitOf, getLsbD_setFieldOf _ _ _ _ _ h (Nat.le_refl i)]

variable {b}

theorem Block.rd64_setBit {lo off : Nat} (h : lo ≠ off) (h' : lo + 4 ≠ off) (i : Nat) : (b.setBit off i).rd64 lo = b.rd64 lo := by
  rw [Block.rd64, Block.rd64, Block.rd_setBit_other h, Block.rd_setBit_other h']

theorem Block.rd64_wrN {lo off : Nat} (h : lo ≠ off) (h' : lo + 4 ≠ off) (v : Nat) : (b.wrN off v).rd64 lo = b.rd64 lo := by
  rw [Block.rd64, Block.rd64, Block.rd_wrN_other h, Block.rd_wrN_other h']

end

end Sys2Proof.Machine

namespace Sys2Proof.Machine

/-! ### The time unit acting by itself (R44 to R48) -/

theorem fromStage_of_le {n : Nat} {b : Block} (h : n ≤ b.stage_) (f : Block → Block) : fromStage n f b = f b := if_pos h

/-- No change of the TIME_OUT ball is told of in `t` that is not in `b`. -/
def NoTimeOut (b t : Block) : Prop := ∀ l u, .timeOut l u ∈ t.out → .timeOut l u ∈ b.out

namespace NoTimeOut

variable {b c t : Block}

theorem refl (b : Block) : NoTimeOut b b := fun _ _ h => h

theorem trans (h : NoTimeOut b c) (k : NoTimeOut c t) : NoTimeOut b t := fun l u m => h l u (k l u m)

theorem emit (h : NoTimeOut b t) {o : Out} (ho : ∀ l u, o ≠ .timeOut l u) : NoTimeOut b (t.emit o) := fun l u m => by
  rcases List.mem_cons.mp m with e | m
  · exact absurd e.symm (ho l u)
  · exact h l u m

theorem sendMsix (v : Nat) (b : Block) : NoTimeOut b (sendMsix v b) := by
  unfold Machine.sendMsix
  split
  · exact refl b
  · split
    · exact refl b
    · split
      · exact (refl b).emit (by simp)
      · exact refl b

theorem signalVec (src imod : Nat) (b : Block) : NoTimeOut b (signalVec src imod b) := by
  unfold Machine.signalVec
  dsimp only
  split
  · exact refl b
  · split
    · exact refl b
    · split <;> exact sendMsix _ b

theorem requestSummary (old b : Block) : NoTimeOut b (requestSummary old b) := by
  unfold Machine.requestSummary
  split
  · exact refl b
  · exact signalVec _ _ b

theorem idleSince (old b : Block) : NoTimeOut b (idleSince old b) := by
  refine forEach_induct _ _ (refl b) fun h _ c hc => ?_
  split
  · exact hc
  · exact hc.emit (by simp)

end NoTimeOut

theorem toutBall_congr {b t : Block} (hs : t.stage_ = b.stage_) (ht : t.tim = b.tim)
    (hr : t.rd Reg.TIM_CTL = b.rd Reg.TIM_CTL) : t.toutBall = b.toutBall := by
  simp only [Block.toutBall, Block.toutOn, Block.bit, Block.fld, hs, ht, hr]

theorem Settles.toutBall {b t : Block} (h : Settles b t) : t.toutBall = b.toutBall :=
  toutBall_congr ((congrArg Block.stage_ h.frame).trans rfl) h.tim (h.rd _ (by decide))

theorem Emitted.toutBall {b t : Block} (h : Emitted b t) : t.toutBall = b.toutBall := (Settles.of_emitted h).toutBall

/-- Emissions one after another, none of them of the TIME_OUT ball. -/
theorem noTimeOut_forEach {α : Type} {f : α → Block → Block} (xs : List α) (b : Block)
    (hf : ∀ x c, f x c = c ∨ ∃ o, (∀ l u, o ≠ .timeOut l u) ∧ f x c = c.emit o) :
    Emitted b (forEach xs f b) ∧ NoTimeOut b (forEach xs f b) := by
  refine forEach_induct (fun t => Emitted b t ∧ NoTimeOut b t) _ ⟨.refl b, .refl b⟩ fun x _ c hc => ?_
  rcases hf x c with e | ⟨o, ho, e⟩
  · rwa [e]
  · rw [e]
    exact ⟨hc.1.emit o, hc.2.emit ho⟩

/-- Balls that follow their drives tell nothing of a TIME_OUT ball that stays as it was. -/
theorem noTimeOut_ballsSettle {old b : Block} (h : b.toutBall = old.toutBall) : NoTimeOut b (ballsSettle old b) := by
  unfold ballsSettle
  dsimp only
  generalize hc : forEach (List.range 16) _ b = c
  obtain ⟨emitted, told⟩ : Emitted b c ∧ NoTimeOut b c := by
    rw [← hc]
    refine noTimeOut_forEach _ b fun k c => ?_
    split
    · exact .inl rfl
    · exact .inr ⟨_, by simp, rfl⟩
  simp only [emitted.toutBall.trans h, decide_true, Bool.true_or, if_true]
  split
  · exact told
  · exact told.emit (by simp)

theorem noTimeOut_settle {old b : Block} (h : b.toutBall = old.toutBall) : NoTimeOut b (settle old b) :=
  ((NoTimeOut.requestSummary old b).trans
    (noTimeOut_ballsSettle ((Settles.requestSummary old b).toutBall.trans h))).trans (.idleSince old _)

/-- What a command ends with: `f`'s block, settled, of whose emissions on the TIME_OUT ball none is told where the ball stays
as it was. -/
theorem ends_of_carryOut_tout {c : Instr} {f : Block → Block} {s : State} {P : Block → Prop}
    (hc : exec c s = carryOut f s) (hn : (f s.blk).now = s.blk.now)
    (hP : ∀ t, Settles (f s.blk) t → ((f s.blk).toutBall = s.blk.toutBall → NoTimeOut (f s.blk) t) → P t) : Ends c s P := by
  refine ⟨_, hc, rfl, rfl, ?_⟩
  have e : { settle s.blk (f s.blk) with now := s.blk.now } = settle s.blk (f s.blk) := by
    rw [← hn, ← (Settles.settle s.blk (f s.blk)).now]
  dsimp only
  rw [e]
  exact hP _ (.settle _ _) noTimeOut_settle

/-- Block `t` is `a` with the time unit `x`, the registers of `c`, and at least the emissions of `c`. -/
structure TimeActed (a c : Block) (x : Tim) (t : Block) : Prop where
  tim : t.tim = x
  core : t.core = { a with tim := x }.core
  rd : ∀ off, off ≠ Reg.MSIX_PBA 0 → t.rd off = c.rd off
  out : ∀ e ∈ c.out, e ∈ t.out

namespace TimeActed

variable {a c t : Block} {x : Tim}

theorem bit (k : TimeActed a c x t) {off : Nat} (ho : off ≠ Reg.MSIX_PBA 0) (i : Nat) : t.bit off i = c.bit off i :=
  congrArg (bitOf · i) (k.rd off ho)

theorem fld (k : TimeActed a c x t) {off : Nat} (ho : off ≠ Reg.MSIX_PBA 0) (hi lo : Nat) : t.fld off hi lo = c.fld off hi lo :=
  congrArg (fieldOf · hi lo) (k.rd off ho)

theorem rd64 (k : TimeActed a c x t) {off : Nat} (ho : off ≠ Reg.MSIX_PBA 0) (ho' : off + 4 ≠ Reg.MSIX_PBA 0) :
    t.rd64 off = c.rd64 off := by
  rw [Block.rd64, Block.rd64, k.rd _ ho, k.rd _ ho']

theorem coreOwn (k : TimeActed a c x t) : t.core = { a with tim := t.tim }.core := by rw [k.core, k.tim]

theorem sameRegs (k : TimeActed a c x t) {offs : List Nat} (h : ∀ off, off ∉ offs → c.rd off = a.rd off) : SameRegs a t offs :=
  fun off ho => (k.rd off fun e => ho (by simp [e])).trans (h off fun m => ho (List.mem_cons_of_mem _ m))

end TimeActed

theorem timeActed_setTim {a c t : Block} {x : Tim} (hc : c.core = a.core) (k : Settles (setTim x c) t) :
    TimeActed a c x t where
  tim := k.tim
  core := k.core.trans (congrArg (setTim x) hc)
  rd := k.rd
  out := k.out

/-- What a command ends with that gives `c` the time unit `x`, where `c` differs from the block in registers and emissions. -/
theorem ends_of_setTim {c : Instr} {f : Block → Block} {s : State} {P : Block → Prop} {u : Block} {x : Tim}
    (hc : exec c s = carryOut f s) (hu : f s.blk = setTim x u) (core : u.core = s.blk.core)
    (hP : ∀ t, TimeActed s.blk u x t → ((setTim x u).toutBall = s.blk.toutBall → NoTimeOut u t) → P t) : Ends c s P := by
  refine ends_of_carryOut_tout hc ?_ fun t k q => ?_
  · rw [hu]
    exact (congrArg Block.now core : u.core.now = s.blk.core.now)
  · rw [hu] at k q
    exact hP t (timeActed_setTim core k) q

section
variable {s : State}

theorem ppsEdge_captured {rising : Bool} {b : Block} (en : b.bit Reg.TIM_CTL 0 = true)
    (edge : rising = !b.bit Reg.TIM_CTL 1) (sub : Nat) : ppsEdge rising sub b = setTim { b.tim with ppsLast := some (b.now + sub) }
      (((b.wr64 Reg.TIM_PPS_LO (BitVec.ofNat 64 ((b.instAt sub).t16 / 16))).wrN Reg.TIM_PPS_FR
        ((b.instAt sub).t16 % 16 * 2 ^ 28)).setBit Reg.TIM_STAT 0) := by
  rw [ppsEdge, en, edge, Bool.true_and, if_pos (by simp)]
  dsimp only
  rw [Block.tim_wrN, Block.tim_wr64]
  rfl

theorem ends_ppsEdge {rising : Bool} {sub : Sub} (hs : 5 ≤ s.blk.stage_) (en : s.blk.bit Reg.TIM_CTL 0 = true)
    (edge : rising = !s.blk.bit Reg.TIM_CTL 1) :
    Ends (.ppsEdge rising sub) s fun b => b.bit Reg.TIM_STAT 0 = true ∧
      b.rd64 Reg.TIM_PPS_LO = BitVec.ofNat 64 ((s.blk.instAt sub).t16 / 16) ∧
      b.core = { s.blk with tim := { s.blk.tim with ppsLast := some (s.blk.now + sub) } }.core ∧
      SameRegs s.blk b [Reg.TIM_PPS_LO, Reg.TIM_PPS_LO + 4, Reg.TIM_PPS_FR, Reg.TIM_STAT] := by
  refine ends_of_setTim rfl ((fromStage_of_le hs _).trans (ppsEdge_captured en edge _)) (by simp [Block.core_setBit]) fun t k _ => ?_
  refine ⟨(k.bit (by decide) 0).trans (Block.bit_setBit_same _ _ (by decide)), ?_, k.core, k.sameRegs fun off ho => ?_⟩
  · rw [k.rd64 (by decide) (by decide), Block.rd64_setBit (by decide) (by decide), Block.rd64_wrN (by decide) (by decide),
      Block.rd64_wr64]
  · simp only [List.mem_cons, List.not_mem_nil, or_false, not_or] at ho
    simp [Block.rd_setBit, Block.rd_wrN, Block.rd_wr64, ho]

theorem ppsMiss_counted {t : Nat} {b : Block} (en : b.bit Reg.TIM_CTL 0 = true) (ht : b.tim.ppsLast = some t)
    (gap : t + 1100 * tuMs < b.now) :
    ppsMiss b = setTim { b.tim with ppsLast := none } (b.inc Reg.TIM_CNT 31 24 1) := by
  rw [ppsMiss, ht]
  dsimp only
  rw [en, Bool.true_and, if_pos (decide_eq_true gap)]

theorem ends_ppsMiss {t : Nat} (hs : 5 ≤ s.blk.stage_) (en : s.blk.bit Reg.TIM_CTL 0 = true) (ht : s.blk.tim.ppsLast = some t)
    (gap : t + 1100 * tuMs < s.blk.now) :
    Ends .ppsMiss s fun b => b.fld Reg.TIM_CNT 31 24 = min (s.blk.fld Reg.TIM_CNT 31 24 + 1) 255 ∧
      b.core = { s.blk with tim := { s.blk.tim with ppsLast := none } }.core ∧ SameRegs s.blk b [Reg.TIM_CNT] := by
  refine ends_of_setTim rfl ((fromStage_of_le hs _).trans (ppsMiss_counted en ht gap)) (Block.core_inc _ _ _ _ _) fun t k _ => ?_
  exact ⟨(k.fld (by decide) 31 24).trans (Block.fld_inc_same _ _ _ _ (by decide) (by decide) _), k.core,
    k.sameRegs fun off ho => Block.rd_inc_other (by simpa using ho) _ _ _⟩

/-! ### TIME_OUT (R45) -/

/-- The ball's change since `a`, with which a change of the time unit ends. -/
def toutTold (a : Block) (x : Tim) (t : Nat) : Block :=
  if (setTim x a).toutBall = a.toutBall then a else a.emit (.timeOut (setTim x a).toutBall t)

theorem toutSince_setTim (a : Block) (x : Tim) (t : Nat) : toutSince a t (setTim x a) = setTim x (toutTold a x t) := by
  unfold toutSince toutTold
  split <;> rfl

theorem toutTold_core (a : Block) (x : Tim) (t : Nat) : (toutTold a x t).core = a.core := by
  unfold toutTold
  split <;> rfl

theorem toutTold_rd (a : Block) (x : Tim) (t off : Nat) : (toutTold a x t).rd off = a.rd off := by
  unfold toutTold
  split <;> rfl

theorem toutTold_of_same {a : Block} {x : Tim} (h : (setTim x a).toutBall = a.toutBall) (t : Nat) : toutTold a x t = a := if_pos h

theorem mem_out_toutTold {a : Block} {x : Tim} (h : (setTim x a).toutBall ≠ a.toutBall) (t : Nat) :
    .timeOut (setTim x a).toutBall t ∈ (toutTold a x t).out := by
  rw [toutTold, if_neg h]
  exact List.mem_cons_self

/-- The TIME_OUT ball once the part has power (R45). -/
theorem toutBall_of_power {b : Block} (h : 1 ≤ b.stage_) (x : Tim) :
    (setTim x b).toutBall = some ((x.pulseEnd.isSome && b.toutOn) != b.bit Reg.TIM_CTL 4) := if_neg (by show b.stage_ ≠ 0; omega)

/-- The next edge of a train after the one that has come; none after the last. -/
def Train.next (x : Train) : Option Train :=
  match x.count with
  | some n => if x.k + 1 < n then some { x with k := x.k + 1 } else none
  | none => some { x with k := x.k + 1 }

/-- The time unit once an edge of train `x` has come. -/
def Tim.edge (m : Tim) (x : Train) : Tim := { m with train := x.next, pulseEnd := some (x.start + x.k * x.period + x.width) }

theorem toutEdge_due {b : Block} {x : Train} (hx : b.tim.train = some x) (due : x.start + x.k * x.period ≤ b.ns) :
    toutEdge b = setTim (b.tim.edge x) (toutTold b (b.tim.edge x) (x.start + x.k * x.period)) := by
  rw [toutEdge, hx]
  dsimp only
  rw [if_pos due, ← toutSince_setTim]
  rfl

theorem ends_toutEdge {x : Train} (hs : 1 ≤ s.blk.stage_) (hx : s.blk.tim.train = some x)
    (due : x.start + x.k * x.period ≤ s.blk.ns) :
    Ends .toutEdge s fun b => b.tim.pulseEnd = some (x.start + x.k * x.period + x.width) ∧
      (s.blk.toutOn = true → s.blk.tim.pulseEnd = none →
        .timeOut (some (!s.blk.bit Reg.TIM_CTL 4)) (x.start + x.k * x.period) ∈ b.out) ∧
      (s.blk.toutOn = false → ∀ l u, .timeOut l u ∈ b.out → .timeOut l u ∈ s.blk.out) ∧
      (x.count = none → b.tim.train = some { x with k := x.k + 1 }) ∧ (x.count = some (x.k + 1) → b.tim.train = none) ∧
      b.core = { s.blk with tim := b.tim }.core ∧ SameRegs s.blk b [] := by
  have old : s.blk.toutBall = _ := toutBall_of_power hs s.blk.tim
  have new := toutBall_of_power hs (s.blk.tim.edge x)
  refine ends_of_setTim rfl ((fromStage_of_le hs _).trans (toutEdge_due hx due)) (toutTold_core _ _ _) fun t k quiet => ?_
  refine ⟨by rw [k.tim]; rfl, fun on idle => k.out _ ?_, fun off => ?_, fun endless => ?_, fun last => ?_, k.coreOwn,
    k.sameRegs fun _ _ => toutTold_rd _ _ _ _⟩
  · have told := mem_out_toutTold (a := s.blk) (x := s.blk.tim.edge x) (by rw [new, old, on, idle]; simp [Tim.edge])
      (x.start + x.k * x.period)
    rw [new, on] at told
    simpa [Tim.edge] using told
  · have same : (setTim (s.blk.tim.edge x) s.blk).toutBall = s.blk.toutBall := by rw [new, old, off]; simp
    rw [toutTold_of_same same] at quiet
    exact quiet same
  · rw [k.tim, Tim.edge, Train.next, endless]
  · rw [k.tim, Tim.edge, Train.next, last]
    simp

theorem toutPulseEnd_due {b : Block} {t : Nat} (ht : b.tim.pulseEnd = some t) (due : t ≤ b.ns) :
    toutPulseEnd b = setTim { b.tim with pulseEnd := none } (toutTold b { b.tim with pulseEnd := none } t) := by
  rw [toutPulseEnd, ht]
  dsimp only
  rw [if_pos due, ← toutSince_setTim]

theorem ends_toutPulseEnd {t : Nat} (hs : 1 ≤ s.blk.stage_) (ht : s.blk.tim.pulseEnd = some t) (due : t ≤ s.blk.ns) :
    Ends .toutPulseEnd s fun b => b.tim = { s.blk.tim with pulseEnd := none } ∧
      (s.blk.toutOn = true → .timeOut (some (s.blk.bit Reg.TIM_CTL 4)) t ∈ b.out) ∧
      (s.blk.toutOn = false → ∀ l u, .timeOut l u ∈ b.out → .timeOut l u ∈ s.blk.out) ∧
      b.core = { s.blk with tim := b.tim }.core ∧ SameRegs s.blk b [] := by
  have old : s.blk.toutBall = _ := toutBall_of_power hs s.blk.tim
  have new := toutBall_of_power hs { s.blk.tim with pulseEnd := none }
  refine ends_of_setTim rfl ((fromStage_of_le hs _).trans (toutPulseEnd_due ht due)) (toutTold_core _ _ _) fun b k quiet => ?_
  refine ⟨k.tim, fun on => k.out _ ?_, fun off => ?_, k.coreOwn, k.sameRegs fun _ _ => toutTold_rd _ _ _ _⟩
  · have told := mem_out_toutTold (a := s.blk) (x := { s.blk.tim with pulseEnd := none })
      (by rw [new, old, on, ht]; simp) t
    rw [new] at told
    simpa using told
  · have same : (setTim { s.blk.tim with pulseEnd := none } s.blk).toutBall = s.blk.toutBall := by rw [new, old, off]; simp
    rw [toutTold_of_same same] at quiet
    exact quiet same

theorem setTim_now (x : Tim) (b : Block) : (setTim x b).now = b.now := rfl

theorem setTim_rd (x : Tim) (b : Block) (off : Nat) : (setTim x b).rd off = b.rd off := rfl

/-- A count and the replacement of the time unit commute. -/
theorem setTim_inc (x : Tim) (b : Block) (off hi lo n : Nat) : (setTim x b).inc off hi lo n = setTim x (b.inc off hi lo n) := by
  cases b
  rfl

/-! ### PTM and the route filter (R46 to R48) -/

theorem ptmStart_sends {b : Block} {x : Tim} (en : b.host.ptmEn = true) (up : b.host.dlUp = true) (idle : x.ptmOut = none) :
    ptmStart (setTim x b) = setTim { x with ptmOut := some (b.now, x.ns) } (b.emit .ptmRequest) :=
  if_pos (by simp only [setTim, en, up, idle]; rfl)

theorem ends_ptmAuto (hs : 5 ≤ s.blk.stage_) (auto : s.blk.bit Reg.TIM_CTL 5 = true)
    (due : s.blk.tim.ptmAuto + max 1 (s.blk.fld Reg.TIM_CTL 15 8) * tuMs ≤ s.blk.now) (en : s.blk.host.ptmEn = true)
    (up : s.blk.host.dlUp = true) (idle : s.blk.tim.ptmOut = none) :
    Ends .ptmAutoInterval s fun b => Out.ptmRequest ∈ b.out ∧
      b.tim = { s.blk.tim with ptmAuto := s.blk.now, ptmOut := some (s.blk.now, s.blk.tim.ns) } ∧
      b.core = { s.blk with tim := b.tim }.core ∧ SameRegs s.blk b [] := by
  have sends : ptmAuto s.blk = setTim { s.blk.tim with ptmAuto := s.blk.now, ptmOut := some (s.blk.now, s.blk.tim.ns) }
      (s.blk.emit .ptmRequest) := by
    rw [ptmAuto, auto, Bool.true_and, if_pos (decide_eq_true due)]
    exact ptmStart_sends en up idle
  refine ends_of_setTim rfl ((fromStage_of_le hs _).trans sends) rfl fun t k _ => ?_
  exact ⟨k.out _ List.mem_cons_self, k.tim, k.coreOwn, k.sameRegs fun _ _ => rfl⟩

theorem ends_ptmResponse_empty {sub : Sub} {sent : Nat} {t1 : BitVec 64} (out : s.blk.tim.ptmOut = some (sent, t1))
    (en : s.blk.host.ptmEn = true) (up : s.blk.host.dlUp = true) :
    Ends (.ptmResponse none sub) s fun b => b.fld Reg.TIM_CNT 15 8 = min (s.blk.fld Reg.TIM_CNT 15 8 + 1) 255 ∧
      b.tim = { s.blk.tim with ptmOut := some (s.blk.now, s.blk.tim.ns),
                               ptmPrev := some (t1, BitVec.ofNat 64 (s.blk.instAt sub).t1) } ∧
      Out.ptmRequest ∈ b.out ∧ b.core = { s.blk with tim := b.tim }.core ∧ SameRegs s.blk b [Reg.TIM_CNT] := by
  have asks : ptmResponse none sub s.blk = setTim { s.blk.tim with
        ptmOut := some (s.blk.now, s.blk.tim.ns), ptmPrev := some (t1, BitVec.ofNat 64 (s.blk.instAt sub).t1) }
      ((s.blk.inc Reg.TIM_CNT 15 8 1).emit .ptmRequest) := by
    rw [ptmResponse, out]
    dsimp only
    rw [setTim_inc, ptmStart_sends (by rwa [Block.host_inc]) (by rwa [Block.host_inc]) rfl, Block.now_inc]
  refine ends_of_setTim rfl asks ((Block.core_emit _ _).trans (Block.core_inc _ _ _ _ _)) fun t k _ => ?_
  refine ⟨?_, k.tim, k.out _ List.mem_cons_self, k.coreOwn, k.sameRegs fun off ho => ?_⟩
  · rw [k.fld (by decide), Block.fld, Block.emit_rd]
    exact Block.fld_inc_same _ _ _ _ (by decide) (by decide) _
  · rw [Block.emit_rd]
    exact Block.rd_inc_other (by simpa using ho) _ _ _

theorem ends_ptmTimeout {sent : Nat} {t1 : BitVec 64} (out : s.blk.tim.ptmOut = some (sent, t1))
    (due : sent + 100 * tuUs ≤ s.blk.now) :
    Ends .ptmTimeout s fun b => b.tim = { s.blk.tim with ptmOut := none } ∧
      b.fld Reg.TIM_CNT 7 0 = min (s.blk.fld Reg.TIM_CNT 7 0 + 1) 255 ∧
      b.core = { s.blk with tim := b.tim }.core ∧ SameRegs s.blk b [Reg.TIM_CNT] := by
  have abandons : ptmTimeout s.blk = setTim { s.blk.tim with ptmOut := none } (s.blk.inc Reg.TIM_CNT 7 0 1) := by
    rw [ptmTimeout, out]
    dsimp only
    rw [if_pos due]
  refine ends_of_setTim rfl abandons (Block.core_inc _ _ _ _ _) fun t k _ => ?_
  exact ⟨k.tim, (k.fld (by decide) 7 0).trans (Block.fld_inc_same _ _ _ _ (by decide) (by decide) _), k.coreOwn,
    k.sameRegs fun off ho => Block.rd_inc_other (by simpa using ho) _ _ _⟩

/-- The route filter once an exchange has given the round trip of `t1` and `t4` (R47, R48). -/
def Block.routed (b : Block) (t1 t4 : BitVec 64) (p : PtmData) : Tim :=
  { b.tim with route := (b.tim.route.take ((t4 - t1).toInt - p.turn.toNat) b.routeStep b.routeHold b.now).1 }

/-- A route change is reported and counted (R48). -/
def routeNoted (changed : Bool) (b : Block) : Block :=
  if changed then (b.setBit Reg.TIM_STAT 2).inc Reg.TIM_CNT 23 16 1 else b

theorem routeNoted_frame (changed : Bool) (b : Block) : (routeNoted changed b).tim = b.tim ∧
    (routeNoted changed b).core = b.core ∧ (routeNoted changed b).now = b.now := by
  cases changed
  · exact ⟨rfl, rfl, rfl⟩
  · simp [routeNoted, Block.core_setBit]

theorem ptmResult_eq (t1 t4 : BitVec 64) (p : PtmData) (b : Block) : ∃ changed dest loc, ptmResult t1 t4 p b =
    (((((routeNoted changed (setTim (b.routed t1 t4 p) b)).wrS Reg.TIM_PTM_RTT ((t4 - t1).toInt - p.turn.toNat)).wrS
      Reg.TIM_PTM_DEST dest).wr64 Reg.TIM_PTM_LOC_LO loc).wr64 Reg.TIM_PTM_MST_LO p.t2).setBit Reg.TIM_STAT 1 :=
  ⟨_, _, _, rfl⟩

/-- What the result of an exchange changes: the route filter and registers, of which it shows the master's time and the round
trip (R47). -/
theorem ptmResult_shown (t1 t4 : BitVec 64) (p : PtmData) (b : Block) :
    (ptmResult t1 t4 p b).tim = b.routed t1 t4 p ∧ (ptmResult t1 t4 p b).core = { b with tim := b.routed t1 t4 p }.core ∧
    (ptmResult t1 t4 p b).now = b.now ∧
    (ptmResult t1 t4 p b).rd64 Reg.TIM_PTM_MST_LO = p.t2 ∧ (ptmResult t1 t4 p b).bit Reg.TIM_STAT 1 = true ∧
    (ptmResult t1 t4 p b).rd Reg.TIM_PTM_RTT = BitVec.ofInt 32 (satS 32 ((t4 - t1).toInt - p.turn.toNat)) := by
  obtain ⟨changed, dest, loc, e⟩ := ptmResult_eq t1 t4 p b
  obtain ⟨tim, core, now⟩ := routeNoted_frame changed (setTim (b.routed t1 t4 p) b)
  rw [e]
  refine ⟨?_, ?_, ?_, ?_, Block.bit_setBit_same _ _ (by decide), ?_⟩
  · rw [Block.tim_setBit, Block.tim_wr64, Block.tim_wr64, Block.tim_wrS, Block.tim_wrS]
    exact tim
  · rw [Block.core_setBit, Block.core_wr64, Block.core_wr64, Block.core_wrS, Block.core_wrS]
    exact core
  · rw [Block.now_setBit, Block.now_wr64, Block.now_wr64, Block.now_wrS, Block.now_wrS]
    exact now
  · rw [Block.rd64_setBit (by decide) (by decide), Block.rd64_wr64]
  · rw [Block.rd_setBit_other (by decide), Block.rd_wr64, if_neg (by decide), if_neg (by decide), Block.rd_wr64,
      if_neg (by decide), if_neg (by decide), Block.rd_wrS, if_neg (by decide), Block.rd_wrS, if_pos rfl]

theorem ends_ptmResponse_data {p : PtmData} {sub : Sub} {sent : Nat} {t1 p1 p4 : BitVec 64}
    (out : s.blk.tim.ptmOut = some (sent, t1)) (prev : s.blk.tim.ptmPrev = some (p1, p4)) :
    Ends (.ptmResponse (some p) sub) s fun b => b.rd64 Reg.TIM_PTM_MST_LO = p.t2 ∧ b.bit Reg.TIM_STAT 1 = true ∧
      b.rd Reg.TIM_PTM_RTT = BitVec.ofInt 32 (satS 32 ((p4 - p1).toInt - p.turn.toNat)) ∧
      b.tim.ptmOut = none ∧ b.tim.ptmPrev = some (t1, BitVec.ofNat 64 (s.blk.instAt sub).t1) ∧
      b.core = { s.blk with tim := b.tim }.core := by
  have pairs : ptmResponse (some p) sub s.blk = ptmResult p1 p4 p
      (setTim { s.blk.tim with ptmOut := none, ptmPrev := some (t1, BitVec.ofNat 64 (s.blk.instAt sub).t1) } s.blk) := by
    rw [ptmResponse, out]
    dsimp only
    rw [prev]
  obtain ⟨tim, core, now, mst, stat, rtt⟩ := ptmResult_shown p1 p4 p
    (setTim { s.blk.tim with ptmOut := none, ptmPrev := some (t1, BitVec.ofNat 64 (s.blk.instAt sub).t1) } s.blk)
  rw [← pairs] at tim core now mst stat rtt
  refine ends_of_carryOut_now rfl now fun t k => ?_
  refine ⟨(k.rd64 (by decide) (by decide)).trans mst, (k.bit (by decide) 1).trans stat, (k.rd _ (by decide)).trans rtt, ?_, ?_, ?_⟩
  · rw [k.tim, tim]
    rfl
  · rw [k.tim, tim]
    rfl
  · rw [k.core, k.tim, core, tim]
    rfl

/-- A hold of the pair link that is over ends with the one of the time unit, in registers and state of its own. -/
theorem routeHoldEnd_due {b : Block} {t : Nat} (ht : b.tim.route.holdEnd = some t) (due : t ≤ b.now) :
    (routeHoldEnd b).tim = { b.tim with route := ⟨some b.tim.route.latest, b.tim.route.latest, none⟩ } ∧
    (routeHoldEnd b).now = b.now ∧ (routeHoldEnd b).rd Reg.TIM_PTM_DEST = BitVec.ofInt 32 (satS 32 b.tim.route.latest) ∧
    ∀ off, off ∉ [Reg.TIM_PTM_DEST, Reg.PAIR_DEST] → (routeHoldEnd b).rd off = b.rd off := by
  have released : b.tim.route.release b.now = some ⟨some b.tim.route.latest, b.tim.route.latest, none⟩ := by
    rw [Route.release, ht]
    exact if_pos due
  unfold routeHoldEnd
  rw [released]
  dsimp only
  generalize hu : setTim _ (b.wrS Reg.TIM_PTM_DEST b.tim.route.latest) = u
  obtain ⟨tim, now, rd⟩ : u.tim = { b.tim with route := ⟨some b.tim.route.latest, b.tim.route.latest, none⟩ } ∧ u.now = b.now ∧
      ∀ off, u.rd off = (b.wrS Reg.TIM_PTM_DEST b.tim.route.latest).rd off := by
    rw [← hu]
    exact ⟨rfl, (setTim_now _ _).trans (Block.now_wrS _ _ _), setTim_rd _ _⟩
  split
  · next r _ =>
    refine ⟨(Block.tim_wrS u Reg.PAIR_DEST r.latest).trans tim, (Block.now_wrS u Reg.PAIR_DEST r.latest).trans now, ?_, fun off ho => ?_⟩
    · exact (Block.rd_wr_other _ _ _ _ (by decide)).trans ((rd _).trans (Block.rd_wr_same _ _ _))
    · simp only [List.mem_cons, List.not_mem_nil, or_false, not_or] at ho
      exact (Block.rd_wr_other _ _ _ _ ho.2).trans ((rd _).trans (Block.rd_wr_other _ _ _ _ ho.1))
  · refine ⟨tim, now, (rd _).trans (Block.rd_wr_same _ _ _), fun off ho => ?_⟩
    simp only [List.mem_cons, List.not_mem_nil, or_false, not_or] at ho
    exact (rd _).trans (Block.rd_wr_other _ _ _ _ ho.1)

theorem ends_routeHoldEnd {t : Nat} (ht : s.blk.tim.route.holdEnd = some t) (due : t ≤ s.blk.now) :
    Ends .routeHoldEnd s fun b => b.tim.route.dest = some s.blk.tim.route.latest ∧ b.tim.route.holdEnd = none ∧
      b.rd Reg.TIM_PTM_DEST = BitVec.ofInt 32 (satS 32 s.blk.tim.route.latest) ∧
      SameRegs s.blk b [Reg.TIM_PTM_DEST, Reg.PAIR_DEST] := by
  obtain ⟨tim, now, dest, other⟩ := routeHoldEnd_due ht due
  refine ends_of_carryOut_now rfl now fun b k => ⟨?_, ?_, (k.rd _ (by decide)).trans dest, k.sameRegs other⟩ <;>
    rw [k.tim, tim]

end

/-- Settles O18: each clause is one event of the time unit, on a state that meets its conditions. -/
theorem timeEvents : Obligations.TimeEvents := fun _ _ _ =>
  ⟨ends_ppsEdge, fun _ hs en ht gap => ends_ppsMiss hs en ht gap, fun _ hs hx due => ends_toutEdge hs hx due,
    fun _ hs ht due => ends_toutPulseEnd hs ht due, ends_ptmAuto, fun _ _ _ _ _ out prev => ends_ptmResponse_data out prev,
    fun _ _ out en up => ends_ptmResponse_empty out en up, fun _ _ out due => ends_ptmTimeout out due,
    fun _ ht due => ends_routeHoldEnd ht due⟩

end Sys2Proof.Machine

namespace Sys2Proof.Machine

/-! ### Register writes that take effect -/

theorem and_not_zero (w : Word) : w &&& ~~~ 0#32 = w := by rw [BitVec.not_zero, BitVec.and_allOnes]

/-- What a write under the access codes stores in a register without W1C bits (R10). -/
theorem written_of_rw {off : Nat} {row : RegRow} (h : regRow off = some row) (hw : row.w1c = 0#32) (hc : row.cnts = [])
    (old upd val : Word) : written off old upd val = (old &&& ~~~ row.rw) ||| (val &&& row.rw) := by
  rw [written, h]
  simp only [applyWrite, hw, hc, BitVec.and_zero, and_not_zero, BitVec.or_zero, List.foldl_nil]

/-- A field that the mask covers reads as written. -/
theorem fieldOf_masked {hi lo : Nat} {mask : Word} (h : ∀ i, lo ≤ i → i ≤ hi → mask.getLsbD i = true) (old val : Word) :
    fieldOf ((old &&& ~~~ mask) ||| (val &&& mask)) hi lo = fieldOf val hi lo := by
  refine Nat.eq_of_testBit_eq fun i => ?_
  rw [testBit_fieldOf, testBit_fieldOf]
  by_cases inside : i < hi + 1 - lo
  · simp [h (lo + i) (by omega) (by omega)]
  · simp [inside]

theorem Block.genWrite_core (b : Block) (off : Nat) (val : Word) : (b.genWrite off val).core = b.core := by
  rw [Block.genWrite_frame]
  rfl

theorem Block.genWrite_tim (b : Block) (off : Nat) (val : Word) : (b.genWrite off val).tim = b.tim := by
  rw [Block.genWrite_frame]

/-- A register that keeps no bit of a write, like a command register, yields nothing to another writer (R377). -/
theorem yields_of_command {off : Nat} {row : RegRow} (h : regRow off = some row) (hr : row.rw = 0#32) (b : Block) (k : Nat)
    (val : Word) : b.yields k off val = val := by
  unfold Block.yields
  rw [h]
  dsimp only
  split
  · split
    · rfl
    · rw [hr, and_not_zero, BitVec.and_zero, BitVec.or_zero]
  · rfl

/-- What a write command ends with that takes effect as value `w`: the unit's own write, settled, on a block that has told
the partner. -/
theorem ends_of_unitWrite {c : Instr} {r : Requester} {off : Nat} {val w : Word} {s : State} {P : Block → Prop}
    (hw : Writes r s) (hc : exec c s = carryOut (writeBy r off val) s) (ho : registerWord off)
    (hy : s.blk.yields (orderOf r) off val = w)
    (hn : ∀ o l, (writeUnit r off w (s.blk.sending o l)).now = s.blk.now)
    (hP : ∀ o l t, Settles (writeUnit r off w (s.blk.sending o l)) t → P t) : Ends c s P := by
  subst hy
  obtain ⟨reaches, up, alone⟩ := hw
  exact ends_of_write_now hc ho reaches up (by rw [alone, Bool.false_and]) hn hP

/-! ### TIM_CMD and TIM_INC_NS (R42, R43) -/

theorem sending_core (b : Block) (o : List Out) (l : Trail) : (b.sending o l).core = b.core := rfl

theorem regRow_timCmd : regRow Reg.TIM_CMD = some ⟨4, 1, 0, 0, 0, 0, 0, []⟩ := rfl

theorem regRow_timIncNs : regRow Reg.TIM_INC_NS = some ⟨0x20, 1, 0, 2, 0xFF, 0xFF, 0, []⟩ := rfl

theorem ends_timIncWrite {s : State} {r : Requester} {val : Word} (hw : Writes r s) (hp : Prevails r Reg.TIM_INC_NS s) :
    Ends (.timIncWrite r val) s fun b => b.fld Reg.TIM_INC_NS 7 0 = fieldOf val 7 0 ∧
      b.tim = { s.blk.tim with incWritten := true } ∧ b.core = { s.blk with tim := b.tim }.core ∧
      SameRegs s.blk b [Reg.TIM_INC_NS] := by
  have place : registerWord Reg.TIM_INC_NS := by decide
  have stored (o : List Out) (l : Trail) : writeUnit r Reg.TIM_INC_NS val (s.blk.sending o l) =
      setTim { s.blk.tim with incWritten := true } ((s.blk.sending o l).genWrite Reg.TIM_INC_NS val) := by
    show setTim { ((s.blk.sending o l).genWrite Reg.TIM_INC_NS val).tim with incWritten := true } _ = _
    rw [Block.genWrite_tim]
    rfl
  have core (o : List Out) (l : Trail) : ((s.blk.sending o l).genWrite Reg.TIM_INC_NS val).core = s.blk.core :=
    (Block.genWrite_core _ _ _).trans (sending_core _ _ _)
  refine ends_of_unitWrite hw rfl place (yields_of_prevails hp val) (fun o l => ?_) fun o l t k => ?_
  · rw [stored]
    exact (congrArg Block.now (core o l) : ((s.blk.sending o l).genWrite Reg.TIM_INC_NS val).core.now = s.blk.core.now)
  · rw [stored] at k
    have acted := timeActed_setTim (core o l) k
    refine ⟨?_, acted.tim, acted.coreOwn, acted.sameRegs fun off ho => ?_⟩
    · rw [acted.fld (by decide), Block.fld, Block.rd_genWrite, if_pos rfl, written_of_rw regRow_timIncNs rfl rfl]
      exact fieldOf_masked (by decide) _ _
    · rw [Block.rd_genWrite, if_neg (by simpa using ho)]
      rfl

end Sys2Proof.Machine

namespace Sys2Proof.Machine

/-! ### A POS_STALL write may write HBM (R32, R178) -/

/-- Channel 0 moves, and its last counted transition lies 200 µs back; FLUSH_SS is set for pipeline 0, bound to head 0, with
one integrated line open. -/
def flushingBlock : Block where
  regs := [(Reg.POS_CTL 0, 0x201), (Reg.PL_STAT 0, 0x100), (Reg.PL_TDI_CTL 0, 2)]
  now := 3200000
  stage_ := 5
  pos := [(0, { standstill := false, last := some ⟨0, 0⟩ })]
  heads := [(0, { tdi := { cfg := some ⟨0, 0, 0, 0, true⟩, lines := [⟨0, [0], 0, 0, none, 0, false, false, false, 0, false, []⟩] } })]

def flushingState : State := ⟨flushingBlock, [], flushingBlock⟩

/-- HBM as a POS_STALL write by the service port leaves it. -/
def hbmAfterStall (s : State) (val : Word) : SMap Byte :=
  match exec (.posStallWrite .svc 0 val) s with
  | .next t => t.blk.hbm
  | _ => []

/-- At 100 µs the write brings the channel to standstill, the open line closes, and its dark pixel is stored in HBM. -/
theorem hbmAfterStall_flushing : hbmAfterStall flushingState 100 ≠ [] := by decide +kernel

/-- Refutes O12: its clause on POS_STALL leaves HBM alone, but a write that brings the channel to standstill closes the open
lines of the heads it drives under FLUSH_SS (R178), and a line that closes is stored in HBM. -/
theorem not_positionAndTimeCommands : ¬ Obligations.PositionAndTimeCommands := by
  intro h
  obtain ⟨_, _, stall, _⟩ := h flushingState 0 .svc 100
  obtain ⟨t, ran, _, _, _, _, _, hbm, _⟩ := stall (by decide) (by decide)
  refine hbmAfterStall_flushing ?_
  change exec (.posStallWrite .svc 0 100) flushingState = .next t at ran
  rw [hbmAfterStall, ran]
  exact hbm

end Sys2Proof.Machine

namespace Sys2Proof.Machine

/-! ### What the time unit shows: its state and its registers -/

/-- An offset outside the time unit's block of registers (R50). -/
abbrev notTim (off : Nat) : Prop := off < 0x12000 ∨ 0x13000 ≤ off

/-- The state of the time unit and the contents of its registers. -/
def Block.timeView (b : Block) : Tim × (Fin 0x1000 → Word) := (b.tim, fun k => b.rd (0x12000 + k))

theorem tim_of_timeView {a b : Block} (h : b.timeView = a.timeView) : b.tim = a.tim := congrArg Prod.fst h

theorem rd_of_timeView {a b : Block} (h : b.timeView = a.timeView) {off : Nat} (lo : 0x12000 ≤ off) (hi : off < 0x13000) :
    b.rd off = a.rd off := by
  have e := congrFun (congrArg Prod.snd h) ⟨off - 0x12000, by omega⟩
  simpa [Block.timeView, Nat.add_sub_cancel' lo] using e

theorem timeView_of {a b : Block} (ht : b.tim = a.tim) (hr : ∀ off, ¬ notTim off → b.rd off = a.rd off) :
    b.timeView = a.timeView :=
  Prod.ext ht (funext fun k => hr _ (by have := k.isLt; omega))

/-- An update of neither the time unit nor the registers. -/
theorem timeView_congr {a b : Block} (ht : b.tim = a.tim) (hr : b.regs = a.regs) : b.timeView = a.timeView :=
  timeView_of ht fun off _ => congrArg (SMap.get resetOf · off) hr

theorem timeView_ite {c : Prop} [Decidable c] {x y a : Block} (hx : x.timeView = a.timeView) (hy : y.timeView = a.timeView) :
    (if c then x else y).timeView = a.timeView := by
  split
  · exact hx
  · exact hy

/-- A change that may be made and leaves the time unit alone. -/
theorem timeView_mayDo {c : Prop} [Decidable c] {y x a : Block} (hy : y.timeView = x.timeView) (hx : x.timeView = a.timeView) :
    (if c then y else x).timeView = a.timeView := timeView_ite (hy.trans hx) hx

theorem timeView_forEach {α : Type} {f : α → Block → Block} (xs : List α) (b : Block)
    (hf : ∀ x ∈ xs, ∀ c, (f x c).timeView = c.timeView) : (forEach xs f b).timeView = b.timeView :=
  forEach_induct (fun t => t.timeView = b.timeView) xs rfl fun x hx c hc => (hf x hx c).trans hc

section
variable (b : Block)

/-! Updates of registers elsewhere. -/

@[simp] theorem timeView_wr {off : Nat} (h : notTim off) (v : Word) : (b.wr off v).timeView = b.timeView :=
  timeView_of (by cases b; rfl) fun o ho => Block.rd_wr_other _ _ _ _ fun e => ho (e ▸ h)

@[simp] theorem timeView_setUpd (off : Nat) (w : Word) : (b.setUpd off w).timeView = b.timeView := timeView_congr rfl rfl

@[simp] theorem timeView_noteWrite (k off : Nat) : (b.noteWrite k off).timeView = b.timeView := timeView_congr rfl rfl

@[simp] theorem timeView_noteAgain (off i : Nat) : (b.noteAgain off i).timeView = b.timeView :=
  timeView_ite (timeView_setUpd _ _ _) rfl

@[simp] theorem timeView_setFld {off : Nat} (h : notTim off) (hi lo v : Nat) : (b.setFld off hi lo v).timeView = b.timeView :=
  timeView_wr b h _

@[simp] theorem timeView_setBit {off : Nat} (h : notTim off) (i : Nat) : (b.setBit off i).timeView = b.timeView := by
  simp [Block.setBit, h]

@[simp] theorem timeView_clrBit {off : Nat} (h : notTim off) (i : Nat) : (b.clrBit off i).timeView = b.timeView :=
  timeView_wr b h _

@[simp] theorem timeView_putBit {off : Nat} (h : notTim off) (i : Nat) (v : Bool) : (b.putBit off i v).timeView = b.timeView :=
  timeView_wr b h _

@[simp] theorem timeView_inc {off : Nat} (h : notTim off) (hi lo n : Nat) : (b.inc off hi lo n).timeView = b.timeView := by
  simp [Block.inc, h]

@[simp] theorem timeView_wrN {off : Nat} (h : notTim off) (v : Nat) : (b.wrN off v).timeView = b.timeView := timeView_wr b h _

@[simp] theorem timeView_wr64 {lo : Nat} (h : notTim lo) (h' : notTim (lo + 4)) (v : BitVec 64) :
    (b.wr64 lo v).timeView = b.timeView := by simp [Block.wr64, h, h']

@[simp] theorem timeView_wrPos {lo : Nat} (h : notTim lo) (h' : notTim (lo + 4)) (p : Pos48) :
    (b.wrPos lo p).timeView = b.timeView := by simp [Block.wrPos, h, h']

@[simp] theorem timeView_genWrite {off : Nat} (h : notTim off) (val : Word) : (b.genWrite off val).timeView = b.timeView := by
  unfold Block.genWrite
  split
  · exact timeView_wr b h _
  · rfl

@[simp] theorem timeView_wake (t bits : Nat) : (wake t bits b).timeView = b.timeView := by
  simp (disch := grind) [wake]

/-! Updates of other units. -/

@[simp] theorem timeView_emit (o : Out) : (b.emit o).timeView = b.timeView := timeView_congr rfl rfl
@[simp] theorem timeView_draw : b.draw.2.timeView = b.timeView := timeView_congr rfl rfl
@[simp] theorem timeView_mend (p : Upset → Bool) : (mend p b).timeView = b.timeView := timeView_congr rfl rfl
@[simp] theorem timeView_setCh (n : Nat) (c : PosCh) : (b.setCh n c).timeView = b.timeView := timeView_congr rfl rfl
@[simp] theorem timeView_setGrp (g : Nat) (x : StkGrp) : (b.setGrp g x).timeView = b.timeView := timeView_congr rfl rfl
@[simp] theorem timeView_setPort (h : Nat) (p : HdPort) : (b.setPort h p).timeView = b.timeView := timeView_congr rfl rfl
@[simp] theorem timeView_setHd (h : Nat) (x : HeadSt) : (b.setHd h x).timeView = b.timeView := timeView_congr rfl rfl
@[simp] theorem timeView_setAct (i : Nat) (e : ActEntry) : (b.setAct i e).timeView = b.timeView := timeView_congr rfl rfl
@[simp] theorem timeView_setThr (t : Nat) (x : SeqThr) : (b.setThr t x).timeView = b.timeView := timeView_congr rfl rfl
@[simp] theorem timeView_setEi (i : Nat) (e : EiCh) : (setEi i e b).timeView = b.timeView := timeView_congr rfl rfl
@[simp] theorem timeView_setPulse (k : Nat) (p : Option Pulse) : (setPulse k p b).timeView = b.timeView := timeView_congr rfl rfl
@[simp] theorem timeView_setPair (p : PairSt) : (setPair p b).timeView = b.timeView := timeView_congr rfl rfl
@[simp] theorem timeView_setPend (ps : List Pend) : (setPend ps b).timeView = b.timeView := timeView_congr rfl rfl
@[simp] theorem timeView_putStr (s : Nat) (x : StreamSt) : (putStr s x b).timeView = b.timeView := timeView_congr rfl rfl
@[simp] theorem timeView_setCal (h : Nat) (c : CalSt) : (setCal h c b).timeView = b.timeView := timeView_setHd _ _ _
@[simp] theorem timeView_queueCmd (h : Nat) (c : HdCmd) : (queueCmd h c b).timeView = b.timeView := timeView_setPort _ _ _
@[simp] theorem timeView_hbmPut (a : Nat) (bytes : List Byte) : (hbmPut a bytes b).timeView = b.timeView := timeView_congr rfl rfl

end

end Sys2Proof.Machine

namespace Sys2Proof.Machine

/-! ### Reports, frames and records leave the time unit alone -/

theorem Reported.timeView {offs : List Nat} {a b : Block} (h : Reported offs a b) (ho : ∀ off ∈ offs, notTim off) :
    b.timeView = a.timeView :=
  timeView_of ((congrArg Block.tim h.frame).trans rfl) fun off inside => h.rd off fun m => inside (ho off m)

theorem notTim_ledgerRegs : ∀ off ∈ ledgerRegs, notTim off := by decide

section
variable (b : Block)

@[simp] theorem timeView_raiseFlt (bits : Word) : (raiseFlt bits b).timeView = b.timeView :=
  (reported_raiseFlt bits b).timeView (by decide)

@[simp] theorem timeView_raiseBit (i : Nat) : (raiseBit i b).timeView = b.timeView := timeView_raiseFlt b _

@[simp] theorem timeView_queueWrite (q : LdgReq) : (queueWrite q b).timeView = b.timeView :=
  ((Reported.refl ledgerRegs b).queueWrite (fun _ h => h) q).timeView notTim_ledgerRegs

@[simp] theorem timeView_sramUe (n : Nat) : (sramUe n b).timeView = b.timeView := timeView_ite rfl (by simp (disch := grind))

@[simp] theorem timeView_sendFrame (f : PFrame) : (sendFrame f b).timeView = b.timeView := rfl

@[simp] theorem timeView_pairSend (f : PFrame) : (pairSend f b).timeView = b.timeView := timeView_ite rfl rfl

@[simp] theorem timeView_mirror (w : PairWrite) : (mirror w b).timeView = b.timeView := timeView_pairSend b _

@[simp] theorem timeView_activeFault (cause : Nat) : (activeFault cause b).timeView = b.timeView := by
  have raised : (raiseBit 17 (b.wrN Reg.FLT_ACTF_CAUSE cause)).timeView = b.timeView := by simp (disch := grind)
  have sent := (timeView_sendFrame (raiseBit 17 (b.wrN Reg.FLT_ACTF_CAUSE cause)) .fault).trans raised
  exact timeView_ite ((timeView_congr rfl rfl).trans sent) raised

@[simp] theorem timeView_pushRecord (r : Nat) (bytes : List Byte) : (pushRecord r bytes b).timeView = b.timeView := by
  have dropped : ((b.inc (Reg.HOST_RING_CNT r) 31 0 1).setBit (Reg.HOST_RING_STAT r) 2).timeView = b.timeView := by
    simp (disch := grind)
  exact timeView_ite rfl dropped

@[simp] theorem timeView_issueAct (i : Nat) (e : ActEntry) (outcome : Nat) (late : Int) (when_ : Nat) :
    (issueAct i e outcome late when_ b).timeView = b.timeView := timeView_pushRecord b _ _

end

end Sys2Proof.Machine

namespace Sys2Proof.Machine

/-! ### Calibration runs and bank switches leave the time unit alone -/

section
variable (b : Block)

@[simp] theorem timeView_setCalState (h n : Nat) : (setCalState h n b).timeView = b.timeView := by
  simp (disch := grind) [setCalState]

@[simp] theorem timeView_setCalCause (h n : Nat) : (setCalCause h n b).timeView = b.timeView := by
  simp (disch := grind) [setCalCause]

@[simp] theorem timeView_calPend (h trigger : Nat) (forced : Bool) : (calPend h trigger forced b).timeView = b.timeView := by
  simp (disch := grind) [calPend]

@[simp] theorem timeView_calShutter (h : Nat) (close : Bool) : (calShutter h close b).timeView = b.timeView :=
  timeView_ite rfl (timeView_queueCmd b _ _)

@[simp] theorem timeView_mirrorShut (h : Nat) : (mirrorShut h b).timeView = b.timeView := by
  unfold mirrorShut
  dsimp only
  split
  · exact timeView_ite (timeView_mirror b _) rfl
  · rfl

@[simp] theorem timeView_calEnd (h : Nat) : (calEnd h b).timeView = b.timeView := by
  simp [calEnd]

@[simp] theorem timeView_calOpen (h : Nat) : (calOpen h b).timeView = b.timeView :=
  timeView_ite (timeView_calEnd b h) (timeView_ite (timeView_ite (timeView_calEnd b h) (timeView_setCalState b h 8))
    (timeView_ite (timeView_setCalState b h 8) (by simp)))

@[simp] theorem timeView_calRequest (h trigger : Nat) (forced : Bool) : (calRequest h trigger forced b).timeView = b.timeView :=
  timeView_ite (timeView_setCalCause b h 10) (timeView_ite (by simp) (timeView_ite (by simp) (by simp)))

@[simp] theorem timeView_mirrorOutcome (h cause : Nat) : (mirrorOutcome h cause b).timeView = b.timeView :=
  timeView_ite (timeView_mirror b _) rfl

@[simp] theorem timeView_calGapClosed (h : Nat) : (calGapClosed h b).timeView = b.timeView :=
  timeView_ite rfl (timeView_ite (by simp) (timeView_ite (by simp) rfl))

theorem timeView_calUpdate (wasOpen : Bool) : (calUpdate wasOpen b).timeView = b.timeView :=
  timeView_forEach _ b fun h _ c => by
    have closed : (if wasOpen && !c.gapOpen then calGapClosed h c else c).timeView = c.timeView :=
      timeView_ite (timeView_calGapClosed c h) rfl
    exact timeView_ite ((timeView_setCalState _ h 1).trans closed) closed

@[simp] theorem timeView_refreshRetain (h : Nat) : (refreshRetain h b).timeView = b.timeView := by
  simp (disch := grind) [refreshRetain]

@[simp] theorem timeView_startDigest (h : Nat) (bank restore : Bool) : (startDigest h bank restore b).timeView = b.timeView := by
  simp (disch := grind) [startDigest]

@[simp] theorem timeView_syncDescriptor (h : Nat) : (syncDescriptor h b).timeView = b.timeView := by
  simp [syncDescriptor]

@[simp] theorem timeView_switchBank (h : Nat) : (switchBank h b).timeView = b.timeView := by
  have switched (x : HeadSt) : (refreshRetain h (Block.setHd ((b.putBit (Reg.HD_BANK h) 0 (!b.activeBank h)).clrBit
      (Reg.HD_BANK h) 1) h x)).timeView = b.timeView := by simp (disch := grind)
  unfold switchBank
  dsimp only
  rw [timeView_syncDescriptor]
  refine timeView_ite (switched _) ?_
  split
  · rw [timeView_startDigest]
    exact switched _
  · exact timeView_ite (switched _) ((timeView_setHd _ _ _).trans (switched _))

theorem timeView_calSwitched (h : Nat) : (calSwitched h b).timeView = b.timeView := by
  have curve : (if b.wroteNow (Reg.CAL_H_TREF h) then b else b.wrN (Reg.CAL_H_TREF h) (b.hd h).cal.tref).timeView = b.timeView :=
    timeView_ite rfl (by simp (disch := grind))
  unfold calSwitched
  dsimp only
  refine timeView_ite (timeView_setHd _ _ _) (timeView_ite ?_ rfl)
  rw [timeView_calOpen, timeView_setCal]
  refine timeView_ite ?_ ((timeView_queueWrite _ _).trans ?_)
  all_goals simp (disch := grind) [curve]

@[simp] theorem timeView_doSwitch (h : Nat) : (doSwitch h b).timeView = b.timeView :=
  (timeView_calSwitched _ h).trans (timeView_switchBank b h)

@[simp] theorem timeView_requestSwitch (h : Nat) : (requestSwitch h b).timeView = b.timeView :=
  timeView_ite (by simp (disch := grind)) (timeView_doSwitch b h)

@[simp] theorem timeView_hostSwitch (h : Nat) : (hostSwitch h b).timeView = b.timeView :=
  timeView_ite (by simp (disch := grind)) (timeView_requestSwitch b h)

end

/-! ### Actions leave the time unit alone -/

section
variable (b : Block)

@[simp] theorem timeView_setLevel (k : Nat) (v : Bool) (t : Nat) : (setLevel k v t b).timeView = b.timeView :=
  timeView_ite (by simp (disch := grind)) (by simp (disch := grind))

@[simp] theorem timeView_eoTo (k : Nat) (v : Bool) (t : Nat) : (eoTo k v t b).timeView = b.timeView := by simp [eoTo]

@[simp] theorem timeView_eoPulse (k arg t : Nat) (entry : Option Nat) : (eoPulse k arg t entry b).timeView = b.timeView := by
  simp [eoPulse]

@[simp] theorem timeView_noteFate (e : ActEntry) (t : Nat) : (noteFate e t b).timeView = b.timeView := by
  unfold noteFate
  split <;> rfl

@[simp] theorem timeView_freeAct (i jst : Nat) (late : Bool) : (freeAct i jst late b).timeView = b.timeView :=
  timeView_setAct b _ _

@[simp] theorem timeView_finishAct (i : Nat) (late : Option Int) (when_ : Nat) : (finishAct i late when_ b).timeView = b.timeView := by
  unfold finishAct
  dsimp only
  split
  · simp (disch := grind)
  · exact timeView_ite (by simp) (by simp)

@[simp] theorem timeView_noteShutter (e : ActEntry) : (noteShutter e b).timeView = b.timeView :=
  timeView_ite (timeView_setHd b _ _) rfl

@[simp] theorem timeView_launchStream (s : Nat) : (launchStream s b).timeView = b.timeView := timeView_putStr b _ _

@[simp] theorem timeView_recompute (g : Nat) : (recompute g b).timeView = b.timeView := timeView_setGrp b _ _

@[simp] theorem timeView_idleUpdate (g : Nat) : (idleUpdate g b).timeView = b.timeView := by
  unfold idleUpdate
  dsimp only
  split <;> split
  · rfl
  · exact timeView_setGrp b _ _
  · exact timeView_setGrp b _ _
  · rfl

theorem timeView_idleUpdateAll : (idleUpdateAll b).timeView = b.timeView :=
  timeView_forEach _ b fun g _ c => timeView_idleUpdate c g

theorem timeView_switchGroup {g : Nat} (hg : g < 32) (on : Bool) : (switchGroup g on b).timeView = b.timeView := by
  have stored (val : Word) : (b.genWrite (Reg.STK_GRP_CTL g) val).timeView = b.timeView :=
    timeView_genWrite b (by grind) val
  unfold switchGroup writeStkCtl
  dsimp only
  rw [timeView_noteWrite, timeView_idleUpdate]
  exact timeView_ite ((timeView_recompute _ g).trans (stored _)) (timeView_ite (stored _) ((timeView_setGrp _ _ _).trans (stored _)))

end

end Sys2Proof.Machine

namespace Sys2Proof.Machine

theorem fieldOf_lt_of_width (w : Word) (hi lo : Nat) : fieldOf w hi lo < 2 ^ (hi + 1 - lo) := Nat.mod_lt _ (Nat.two_pow_pos _)

section
variable (b : Block)

theorem timeView_performAct (i : Nat) (inst : Inst) (late : Option Int) : (performAct i inst late b).timeView = b.timeView := by
  have group : (b.actE i).target < 32 := fieldOf_lt_of_width _ 20 16
  unfold performAct
  dsimp only
  split
  · simp
  · simp
  · simp
  · refine timeView_ite (by simp) (timeView_ite (by simp) (by simp))
  · refine timeView_ite (by simp) (timeView_ite (by simp) (by simp))
  · simp
  · simp (disch := grind)
  · simp
  · simp
  · rw [timeView_finishAct, timeView_switchGroup b group]
  · rw [timeView_finishAct, timeView_switchGroup b group]
  · simp
  · simp

theorem timeView_execAct (i : Nat) : (execAct i b).timeView = b.timeView := by
  unfold execAct
  dsimp only
  split
  · rfl
  · refine timeView_ite (timeView_setAct b _ _) ((timeView_performAct _ _ _ _).trans ?_)
    exact timeView_ite (timeView_pairSend b _) rfl

theorem timeView_actions (a : Act) : ({ b with act := a } : Block).timeView = b.timeView := timeView_congr rfl rfl

@[simp] theorem timeView_spoiltAct (i : Nat) : (spoiltAct i b).timeView = b.timeView := by
  unfold spoiltAct
  dsimp only
  rw [timeView_activeFault, timeView_sramUe, timeView_issueAct]
  refine (timeView_actions _ _).trans ?_
  rw [timeView_noteFate, timeView_freeAct, timeView_mend]

theorem timeView_runFirst : (runFirst b).timeView = b.timeView := by
  unfold runFirst
  split
  · rfl
  · exact timeView_ite rfl (timeView_ite ((timeView_spoiltAct _ _).trans rfl) ((timeView_execAct _ _).trans rfl))

theorem timeView_runBacklog (n : Nat) : (runBacklog n b).timeView = b.timeView := by
  induction n generalizing b with
  | zero => rfl
  | succ n ih => exact (ih _).trans (timeView_runFirst b)

@[simp] theorem timeView_discardAct (i : Nat) (late : Int) : (discardAct i late b).timeView = b.timeView := by
  simp (disch := grind) [discardAct]

@[simp] theorem timeView_lateAct (i : Nat) (l : Int) : (lateAct i l b).timeView = b.timeView := by
  have noted : (b.setBit Reg.ACT_STAT 18).timeView = b.timeView := by simp (disch := grind)
  unfold lateAct
  dsimp only
  exact timeView_ite ((timeView_setAct _ _ _).trans noted) ((timeView_discardAct _ _ _).trans noted)

@[simp] theorem timeView_keyWaits (i : Nat) : (keyWaits i b).timeView = b.timeView :=
  timeView_ite (timeView_ite (timeView_setAct b _ _) rfl) (timeView_setAct b _ _)

@[simp] theorem timeView_keyTest (i : Nat) : (keyTest i b).timeView = b.timeView := by
  unfold keyTest
  split
  · exact timeView_ite (timeView_keyWaits b i) rfl
  · refine timeView_ite (timeView_spoiltAct b i) ?_
    dsimp only
    split
    · simp
    · simp

@[simp] theorem timeView_keyQueue (i : Nat) : (keyQueue i b).timeView = b.timeView := timeView_ite rfl rfl

theorem timeView_keysClose : (keysClose b).timeView = b.timeView :=
  (timeView_runBacklog _ 16).trans (timeView_forEach _ b fun x _ c => by simp)

end

/-! ### Threads, roles and shutters leave the time unit alone -/

section
variable (b : Block)

@[simp] theorem timeView_setTState (t st kind : Nat) : (setTState t st kind b).timeView = b.timeView := by
  unfold setTState
  dsimp only
  simp (disch := grind) only [timeView_putBit, timeView_setFld]
  exact timeView_ite rfl (timeView_mirror b _)

@[simp] theorem timeView_haltThread (t : Nat) : (haltThread t b).timeView = b.timeView := by simp [haltThread]

@[simp] theorem timeView_stopThread (t : Thr) : (stopThread t b).timeView = b.timeView :=
  timeView_ite (timeView_haltThread b t) (timeView_ite rfl (timeView_ite (timeView_setThr b _ _)
    (timeView_ite (timeView_setThr b _ _) (timeView_ite (timeView_setThr b _ _) (timeView_haltThread b t)))))

@[simp] theorem timeView_stopAll : (stopAll b).timeView = b.timeView :=
  timeView_forEach _ b fun _ _ c => timeView_stopThread c _

@[simp] theorem timeView_ballsSince (old : Block) (t : Nat) : (ballsSince old t b).timeView = b.timeView :=
  timeView_forEach _ b fun _ _ c => timeView_ite rfl (timeView_emit c _)

@[simp] theorem timeView_setRole (r : Nat) : (setRole r b).timeView = b.timeView := by simp (disch := grind) [setRole]

@[simp] theorem timeView_noteTakeover (cause : Nat) : (noteTakeover cause b).timeView = b.timeView := by
  simp (disch := grind) [noteTakeover]

@[simp] theorem timeView_openShutters : (openShutters b).timeView = b.timeView :=
  timeView_forEach _ b fun h _ c => timeView_ite (timeView_calShutter c h false) rfl

@[simp] theorem timeView_setPc (t pc : Nat) : (setPc t pc b).timeView = b.timeView := by simp (disch := grind) [setPc]

@[simp] theorem timeView_startThread (t : Thr) : (startThread t b).timeView = b.timeView :=
  timeView_ite (by simp [runThread]) rfl

@[simp] theorem timeView_startMirrored : (startMirrored b).timeView = b.timeView :=
  timeView_forEach _ b fun t _ c => by simp

@[simp] theorem timeView_releaseHeld : (releaseHeld b).timeView = b.timeView :=
  timeView_forEach _ b fun x _ c => timeView_ite (by simp) rfl

@[simp] theorem timeView_handRole : (handRole b).timeView = b.timeView :=
  timeView_ite (by simp) (timeView_ite (by simp) rfl)

@[simp] theorem timeView_handStrike : (handStrike b).timeView = b.timeView := by
  unfold handStrike
  split
  · exact timeView_ite (timeView_handRole b) rfl
  · rfl

end

end Sys2Proof.Machine

namespace Sys2Proof.Machine

/-! ### Strikes, waits and the end of a tick leave the time unit alone -/

section
variable (b : Block)

theorem timeView_sched (x : SMap (List Sched)) : ({ b with sched := x } : Block).timeView = b.timeView := timeView_congr rfl rfl

theorem timeView_strikes (k : Nat) : ({ b with strikes := k } : Block).timeView = b.timeView := timeView_congr rfl rfl

@[simp] theorem timeView_passBound (g : Nat) (seq : BitVec 16) : (passBound g seq b).timeView = b.timeView := by
  unfold passBound
  split
  · rfl
  · split
    · exact timeView_ite rfl (timeView_congr rfl rfl)
    · rfl

@[simp] theorem timeView_scheduleStrike (g kind : Nat) (stamp : BitVec 21) (ref : Nat) :
    (scheduleStrike g kind stamp ref b).timeView = b.timeView :=
  timeView_forEach _ b fun _ _ c => timeView_ite (timeView_sched c _) rfl

@[simp] theorem timeView_advancePoint (g : Nat) : (advancePoint g b).timeView = b.timeView := timeView_setGrp b _ _

@[simp] theorem timeView_decideStrike (g : Nat) (d : Decided) : (decideStrike g d b).timeView = b.timeView := timeView_setGrp b _ _

theorem timeView_decidePrediction (g : Nat) : (decidePrediction g b).timeView = b.timeView := by
  unfold decidePrediction
  split
  · exact timeView_ite (by simp) rfl
  · rfl

theorem timeView_decidePredictions (g n : Nat) : (decidePredictions g n b).timeView = b.timeView := by
  induction n generalizing b with
  | zero => rfl
  | succ n ih => exact (ih _).trans (timeView_decidePrediction b g)

theorem timeView_idleTest (g : Nat) : (idleTest g b).timeView = b.timeView := by
  unfold idleTest
  split
  · exact timeView_ite (by simp) rfl
  · rfl

theorem timeView_dropPassed (g : Nat) (v : Eval) : (dropPassed g v b).timeView = b.timeView :=
  timeView_ite (timeView_setGrp b _ _) rfl

theorem timeView_predictPoints (g : Nat) (v : Eval) (n : Nat) (p : Pos48) : (predictPoints g v n p b).timeView = b.timeView := by
  induction n generalizing b p with
  | zero => rfl
  | succ n ih => exact timeView_ite ((ih _ _).trans (timeView_setGrp b _ _)) rfl

end

section
variable {g : Nat} (hg : g < 8) (b : Block)
include hg

theorem timeView_strike (kind : Nat) (pos : Pos48) (inst : Inst) (fallback : Bool) :
    (strike g kind pos inst fallback b).timeView = b.timeView := by
  have noted {off : Nat} (ho : notTim off) (i : Nat) (c : Block) :
      ((c.setBit (Reg.STK_GRP_STAT g) i).inc off 31 16 1).timeView = c.timeView := by simp (disch := grind)
  unfold strike
  dsimp only
  refine timeView_ite (noted (by grind) 0 b) ?_
  rw [timeView_passBound]
  refine timeView_mayDo (timeView_scheduleStrike _ _ _ _ _) (timeView_mayDo (noted (by grind) 1 _) ?_)
  refine (timeView_strikes _ _).trans ?_
  simp (disch := grind)

theorem timeView_strikePredicted (p : Predict) (inst : Inst) (fallback : Bool) :
    (strikePredicted g p inst fallback b).timeView = b.timeView := by
  unfold strikePredicted
  rw [timeView_advancePoint, timeView_strike hg, timeView_setGrp]

theorem timeView_settlePredictions (fwd : Bool) (cross : Inst) : (settlePredictions g fwd cross b).timeView = b.timeView :=
  timeView_forEach _ b fun _ _ c => timeView_ite (timeView_strikePredicted hg c _ _ _)
    (timeView_ite (timeView_strikePredicted hg c _ _ _) (timeView_setGrp c _ _))

theorem timeView_reachPoints (v : Eval) (n : Nat) : (reachPoints g v n b).timeView = b.timeView := by
  induction n generalizing b with
  | zero => rfl
  | succ n ih =>
    refine timeView_ite (timeView_mayDo (ih _) ?_) rfl
    rw [timeView_advancePoint, timeView_strike hg]

theorem timeView_groupEval (v : Eval) : (groupEval g v b).timeView = b.timeView := by
  have settled := timeView_settlePredictions hg b v.fwd v.cross
  refine timeView_ite settled (timeView_ite ?_ (timeView_ite settled ((timeView_dropPassed _ g v).trans settled)))
  exact timeView_mayDo (timeView_predictPoints _ g v 8 _) ((timeView_reachPoints hg _ v 8).trans settled)

theorem timeView_issueAll : (issueAll g b).timeView = b.timeView :=
  (timeView_forEach _ _ fun _ _ c => timeView_strike hg c _ _ _ _).trans (timeView_setGrp b _ _)

theorem timeView_manualStrike : (manualStrike g b).timeView = b.timeView := by
  refine timeView_mayDo ?_ (timeView_setGrp b _ _)
  rw [timeView_strike hg, timeView_issueAll hg]

theorem timeView_groupClose : (groupClose g b).timeView = b.timeView := by
  unfold groupClose
  dsimp only
  rw [timeView_manualStrike hg, timeView_idleTest, timeView_decidePredictions,
    timeView_forEach _ _ fun v _ c => timeView_groupEval hg c v, timeView_issueAll hg]

end

section
variable (b : Block)

theorem timeView_setG (t r : Nat) (v : BitVec 64) : (setG t r v b).timeView = b.timeView :=
  timeView_ite rfl (timeView_setThr b _ _)

theorem timeView_nextAt (t pc cycles : Nat) : (nextAt t pc cycles b).timeView = b.timeView := by simp [nextAt]

theorem timeView_resumeFrom (t : Thr) (i : Instr) (r : BitVec 64 × Nat) : (resumeFrom t i r b).timeView = b.timeView := by
  unfold resumeFrom endWait advance
  dsimp only
  rw [timeView_nextAt, timeView_setG]
  simp (disch := grind)

theorem timeView_waitClose (t : Thr) : (waitClose t b).timeView = b.timeView := by
  unfold waitClose
  split
  · refine timeView_ite ?_ rfl
    split
    · exact timeView_resumeFrom b _ _ _
    · exact timeView_ite (timeView_haltThread b t) rfl
  · rfl

theorem timeView_issueEnds (t : Thr) : (issueEnds t b).timeView = b.timeView := by
  unfold issueEnds
  refine timeView_ite ?_ rfl
  split
  · exact timeView_ite (timeView_setThr b _ _) rfl
  · rfl

@[simp] theorem timeView_placeItems (s : Nat) : (placeItems s b).timeView = b.timeView := timeView_putStr b _ _

theorem timeView_launchTest (atEnd : Bool) (s : Nat) : (launchTest atEnd s b).timeView = b.timeView := by
  refine timeView_ite ?_ rfl
  simp (disch := grind)

theorem timeView_launchClose : (launchClose b).timeView = b.timeView :=
  timeView_forEach _ b fun _ _ c => timeView_launchTest c _ _

/-- The ticks' end evaluations (R35) leave the time unit alone. -/
theorem timeView_closeTick : (closeTick b).timeView = b.timeView := by
  unfold closeTick
  dsimp only
  rw [timeView_forEach _ _ fun n _ c => timeView_setCh c n _, timeView_forEach _ _ fun t _ c => timeView_waitClose c _]
  refine timeView_mayDo ?_ (timeView_mayDo ?_ (timeView_forEach _ b fun t _ c => timeView_issueEnds c _))
  · rw [timeView_handStrike]
    exact timeView_forEach _ _ fun g hg c => timeView_groupClose (List.mem_range.mp hg) c
  · rw [timeView_launchClose, timeView_keysClose]

theorem timeView_tickCycles : (tickCycles b).timeView = b.timeView :=
  timeView_forEach _ b fun t _ c => timeView_ite (timeView_wr64 c (by grind) (by grind) _) rfl

end

end Sys2Proof.Machine

namespace Sys2Proof.Machine

/-! ### Upsets leave the time unit alone -/

section
variable (b : Block)

@[simp] theorem timeView_reportAer (e : AerError) : (reportAer e b).timeView = b.timeView :=
  timeView_ite rfl (timeView_congr rfl rfl)

@[simp] theorem timeView_stagingUe : (stagingUe b).timeView = b.timeView := by simp [stagingUe]

@[simp] theorem timeView_spoilStaged (s k : Nat) : (spoilStaged s k b).timeView = b.timeView :=
  timeView_ite rfl (by simp)

theorem timeView_host (x : HostIf) : ({ b with host := x } : Block).timeView = b.timeView := timeView_congr rfl rfl

@[simp] theorem timeView_spoilRecord (r k : Nat) : (spoilRecord r k b).timeView = b.timeView :=
  timeView_ite ((timeView_stagingUe _).trans (timeView_host b _)) rfl

@[simp] theorem timeView_armRefused : (armRefused b).timeView = b.timeView := by simp (disch := grind) [armRefused]

@[simp] theorem timeView_armEntry (i writer : Nat) (key : BitVec 64) (ctrl : Word) (arg : BitVec 24) (vseq : Option Word)
    (start : Option (BitVec 64)) : (armEntry i writer key ctrl arg vseq start b).timeView = b.timeView := by simp [armEntry]

theorem timeView_armByVerdict (key : BitVec 64) (ctrl : Word) (arg : BitVec 24) (vseq : Word) :
    (armByVerdict key ctrl arg vseq b).2.timeView = b.timeView := by
  unfold armByVerdict
  split
  · exact timeView_armRefused b
  · split
    · simp (disch := grind)
    · simp

theorem timeView_createAction (ln : VLine) (rs : RuleSet) (inst : BitVec 64) (seq : Word) :
    (createAction ln rs inst seq b).2.timeView = b.timeView := by
  unfold createAction
  dsimp only
  split
  · split
    · exact timeView_armByVerdict b _ _ _ _
    · rfl
  · exact timeView_armByVerdict b _ _ _ _

@[simp] theorem timeView_diverge (kind head : Nat) (frame : Word) (line : Nat) :
    (diverge kind head frame line b).timeView = b.timeView := timeView_ite rfl (by simp (disch := grind))

@[simp] theorem timeView_compareDigest (own theirs : DigestFrame) : (compareDigest own theirs b).timeView = b.timeView := by
  unfold compareDigest
  refine timeView_ite rfl (timeView_ite (timeView_diverge b _ _ _ _) ?_)
  split
  · exact (timeView_sendFrame _ _).trans (timeView_diverge b _ _ _ _)
  · exact timeView_diverge b _ _ _ _

@[simp] theorem timeView_ownDigest (d : DigestFrame) (crcs : List (BitVec 16 × Word)) :
    (ownDigest d crcs b).timeView = b.timeView := by
  refine timeView_ite rfl ?_
  dsimp only
  split
  · simp
  · simp

@[simp] theorem timeView_digestVerdict (seq : Word) (record : List Byte) : (digestVerdict seq record b).timeView = b.timeView := by
  refine timeView_ite (timeView_mayDo (timeView_ownDigest _ _ _) (timeView_setPair b _)) (timeView_setPair b _)

theorem timeView_issueVerdict (ln : VLine) (zone rule : Nat) (rs : RuleSet) (outcome : Nat) (dec : Option Decide) :
    (issueVerdict ln zone rule rs outcome dec b).2.2.timeView = b.timeView := by
  unfold issueVerdict
  cases ln.time <;> cases dec
  all_goals
    dsimp only
    rw [timeView_digestVerdict, timeView_pushRecord]
    split
    · rw [timeView_createAction]
      split <;> simp (disch := grind)
    · dsimp only
      split <;> simp (disch := grind)

@[simp] theorem timeView_spoilPending (k : Nat) : (spoilPending k b).timeView = b.timeView := by
  unfold spoilPending
  split
  · rw [timeView_sramUe, timeView_issueVerdict, timeView_setPend]
  · rfl

theorem timeView_spoil (u : Upset) : (spoil u b).timeView = b.timeView := by
  unfold spoil
  split
  · exact timeView_spoilStaged b _ _
  · exact timeView_spoilRecord b _ _
  · exact timeView_spoilPending b _
  · exact timeView_ite rfl (timeView_congr rfl rfl)

theorem timeView_voteSeen (v : Vote) : (voteSeen v b).timeView = b.timeView := by
  unfold voteSeen
  split
  · simp (disch := grind)
  · simp (disch := grind) [voteLoad]

end

/-! ### What the units do within a tick leaves the time unit alone -/

section
variable (b : Block)

theorem timeView_eiAccept (i : Nat) (h : Hold) : (eiAccept i h b).timeView = b.timeView := by
  unfold eiAccept
  dsimp only
  refine timeView_ite ?_ ?_
  all_goals simp (disch := grind)

theorem timeView_echoSend (h : Nat) : (echoSend h b).timeView = b.timeView :=
  timeView_ite ((timeView_emit _ _).trans (timeView_setPort b _ _)) rfl

theorem timeView_startDue : (startDue b).timeView = b.timeView :=
  timeView_forEach _ b fun x _ c => by
    dsimp only
    split
    · exact timeView_ite (timeView_setAct c _ _) rfl
    · rfl

theorem timeView_bulkPart (x : BulkPart) : (bulkPart x b).timeView = b.timeView :=
  timeView_ite rfl ((timeView_setPair _ _).trans (timeView_forEach _ b fun _ _ c => timeView_sendFrame c _))

theorem timeView_bulkSend : (bulkSend b).timeView = b.timeView :=
  timeView_ite (timeView_mayDo (timeView_setPair _ _) (timeView_forEach _ b fun x _ c => timeView_bulkPart c x)) rfl

@[simp] theorem timeView_putTrims (h : Nat) (rg ro : Word) : (putTrims h rg ro b).timeView = b.timeView := by
  simp (disch := grind) [putTrims]

theorem timeView_trimsFlush (h : Nat) : (trimsFlush h b).timeView = b.timeView :=
  (timeView_forEach _ _ fun _ _ c => timeView_putTrims c _ _ _).trans (timeView_setHd b _ _)

theorem timeView_takeover (cause : Nat) : (takeover cause b).timeView = b.timeView := by
  have pair (x : PairSt) (c : Block) : (setPair x { c with bounds := none, released := false }).timeView = c.timeView :=
    timeView_congr rfl rfl
  unfold takeover
  simp (disch := grind) [setJoin, pair, timeView_forEach _ _ fun h _ c => timeView_trimsFlush c h]

theorem timeView_takeoverTick : (takeoverTick b).timeView = b.timeView := timeView_ite (timeView_takeover b 1) rfl

theorem timeView_settleHalt (t : Nat) : (settleHalt t b).timeView = b.timeView := timeView_ite (timeView_haltThread b t) rfl

theorem timeView_tickInputs : (tickInputs b).timeView = b.timeView :=
  timeView_forEach _ b fun i _ c => by
    split
    · exact timeView_eiAccept c i _
    · rfl

theorem timeView_tickUnits : (tickUnits b).timeView = b.timeView := by
  unfold tickUnits
  dsimp only
  rw [timeView_bulkSend, timeView_takeoverTick, timeView_forEach _ _ fun t _ c => timeView_settleHalt c t,
    timeView_forEach _ _ fun x _ c => timeView_echoSend c x.1, timeView_startDue, timeView_tickInputs, timeView_actions]

end

end Sys2Proof.Machine

namespace Sys2Proof.Machine

/-! ### The tick of the device time (R41 to R43) -/

/-- The next tick begins: the clock advances by 2 ns, and the notes of the old one go (R395). -/
def nextCycle (b : Block) : Block :=
  { b with now := b.now + 32, cyc := [], seq := { b.seq with imemOld := [], dmemOld := [] } }

theorem timeView_nextCycle (b : Block) : (nextCycle b).timeView = b.timeView := timeView_congr rfl rfl

/-- The block that a tick advances: the tick's end evaluations made, the next one begun (R35). -/
def beganTick (b : Block) : Block := nextCycle (closeTick (if b.unitsOn then tickCycles b else b))

theorem timeView_beganTick (b : Block) : (beganTick b).timeView = b.timeView := by
  rw [beganTick, timeView_nextCycle, timeView_closeTick]
  exact timeView_ite (timeView_tickCycles b) rfl

/-- What the units do in a tick once the device time has advanced. -/
def restOfTick (votes : List Vote) (sramCe hbmCe : Nat) (upsets : List Upset) (open_ : Bool) (b : Block) : Block :=
  let b := forEach upsets spoil ((b.inc Reg.FLT_CNT_A 31 16 sramCe).inc Reg.FLT_CNT_B 31 16 hbmCe)
  let b := if b.posOn then idleUpdateAll (forEach votes voteSeen b) else b
  if b.unitsOn then calUpdate open_ (tickUnits b) else b

theorem timeView_restOfTick (votes : List Vote) (sramCe hbmCe : Nat) (upsets : List Upset) (open_ : Bool) (b : Block) :
    (restOfTick votes sramCe hbmCe upsets open_ b).timeView = b.timeView := by
  refine timeView_mayDo ?_ (timeView_mayDo ?_ ?_)
  · rw [timeView_calUpdate, timeView_tickUnits]
  · rw [timeView_idleUpdateAll]
    exact timeView_forEach _ _ fun v _ c => timeView_voteSeen c v
  · rw [timeView_forEach _ _ fun u _ c => timeView_spoil c u]
    simp (disch := grind)

theorem tick_eq {b : Block} (up : 1 ≤ b.stage_) (votes : List Vote) (sramCe hbmCe : Nat) (upsets : List Upset) :
    tick votes sramCe hbmCe upsets b = restOfTick votes sramCe hbmCe upsets b.gapOpen (tickTime (beganTick b)) :=
  if_neg (Nat.ne_of_gt up)

/-- The time unit as a tick leaves it, and its registers: what `tickTime` makes of them. -/
theorem timeView_tick {b : Block} (up : 1 ≤ b.stage_) (votes : List Vote) (sramCe hbmCe : Nat) (upsets : List Upset) :
    (tick votes sramCe hbmCe upsets b).timeView = (tickTime (beganTick b)).timeView := by
  rw [tick_eq up, timeView_restOfTick]

/-- TIME_TICK ends with the tick's block, settled, at the next tick. -/
theorem timeView_timeTick {s : State} (up : 1 ≤ s.blk.stage_) (votes : List Vote) (sramCe hbmCe : Nat) (upsets : List Upset) :
    ∃ u, exec (.timeTick votes sramCe hbmCe upsets) s = .next u ∧
      u.blk.timeView = (tickTime (beganTick s.blk)).timeView := by
  refine ⟨_, rfl, ?_⟩
  have settled := Settles.settle s.blk (tick votes sramCe hbmCe upsets s.blk)
  refine Eq.trans ?_ (timeView_tick up votes sramCe hbmCe upsets)
  exact timeView_of settled.tim fun off inside => settled.rd off (by grind)

/-! ### The device time after a tick -/

/-- The count, the increment, and what is written for the next tick. -/
def Tim.law (t : Tim) : BitVec 64 × BitVec 32 × BitVec 40 := (t.ns, t.fr, t.inc)

/-- Block `t` has the count, the increment and the registers of `b`. -/
structure SameLaw (b t : Block) : Prop where
  law : t.tim.law = b.tim.law
  rd : ∀ off, t.rd off = b.rd off

namespace SameLaw

variable {b c t : Block}

theorem refl (b : Block) : SameLaw b b := ⟨rfl, fun _ => rfl⟩

theorem trans (h : SameLaw b c) (k : SameLaw c t) : SameLaw b t := ⟨k.law.trans h.law, fun off => (k.rd off).trans (h.rd off)⟩

theorem ite {p : Prop} [Decidable p] {x y : Block} (hx : SameLaw b x) (hy : SameLaw b y) : SameLaw b (if p then x else y) := by
  split
  · exact hx
  · exact hy

theorem setTim {x : Tim} (h : x.law = b.tim.law) : SameLaw b (setTim x b) := ⟨h, fun _ => rfl⟩

theorem toutEdge (b : Block) : SameLaw b (toutEdge b) := by
  unfold Machine.toutEdge
  split
  · exact ite (ite (setTim rfl) ((setTim rfl).trans ⟨rfl, fun _ => rfl⟩)) (refl b)
  · exact refl b

theorem trainJump (plain : Nat) (b : Block) : SameLaw b (trainJump plain b) := by
  unfold Machine.trainJump
  split
  · exact refl b
  · exact (ite (toutEdge b) (refl b)).trans (setTim rfl)

/-- A tick advances the count once a new increment is in force (R41 to R43); a jump moves a TIME_OUT train only. -/
theorem tickTime (b : Block) : SameLaw (Machine.setTim (takeInc b).tim.advance (takeInc b)) (tickTime b) := by
  have jumped {p : Prop} [Decidable p] (plain : Nat) {x : Tim} {c : Block} (h : x.law = c.tim.law) :
      SameLaw c (if p then Machine.trainJump plain (Machine.setTim x c) else Machine.setTim x c) :=
    ite ((setTim h).trans (trainJump plain _)) (setTim h)
  unfold Machine.tickTime
  dsimp only
  exact jumped _ rfl

end SameLaw

/-! ### STEP and SET (R43) -/

theorem takeInc_of_old {b : Block} (h : b.tim.incWritten = false) : takeInc b = b := by rw [takeInc, h]; rfl

end Sys2Proof.Machine

namespace Sys2Proof.Machine

/-! ### STEP and SET (R43) -/

/-- What the next tick makes of the time unit rests on this part of it (R41 to R43). -/
def Tim.forTick (t : Tim) : Tim :=
  { ns := t.ns, fr := t.fr, inc := t.inc, incWritten := t.incWritten, steps := t.steps, set := t.set }

theorem Tim.law_advance_forTick (t : Tim) : t.advance.law = t.forTick.advance.law := by
  obtain ⟨ns, fr, inc, breaks, jumpFrom, incWritten, steps, set, ppsLast, train, pulseEnd, ptmOut, ptmPrev, ptmAuto, route⟩ := t
  cases set <;> rfl

/-- The counter of 96 bits whose words are the quotient and the remainder of a number. -/
theorem count_of_words {c : Nat} (h : c < 2 ^ 96) :
    (BitVec.ofNat 64 (c / 2 ^ 32)).toNat * 2 ^ 32 + (BitVec.ofNat 32 c).toNat = c := by
  rw [BitVec.toNat_ofNat, BitVec.toNat_ofNat, Nat.mod_eq_of_lt (by omega)]
  exact Nat.div_add_mod' c _

theorem count_of_words_int (x : Int) : (((BitVec.ofNat 64 ((x % 2 ^ 96).toNat / 2 ^ 32)).toNat * 2 ^ 32 +
    (BitVec.ofNat 32 (x % 2 ^ 96).toNat).toNat : Nat) : Int) = x % 2 ^ 96 := by
  rw [count_of_words (by omega)]
  exact Int.toNat_of_nonneg (Int.emod_nonneg _ (by decide))

/-- The counter after an advance without SET (R41, R43). -/
theorem Tim.count_advance {t : Tim} (h : t.set = none) : (t.advance.count : Int) =
    ((t.count : Int) + t.inc.toNat + (t.steps.map BitVec.toInt).sum * 2 ^ 32) % 2 ^ 96 := by
  have steps : t.steps.foldl (fun (s : Int) w => s + w.toInt) 0 = (t.steps.map BitVec.toInt).sum := by
    rw [List.sum_eq_foldl, List.foldl_map]
  rw [Tim.count, Tim.advance, h]
  dsimp only
  have base : ((2 ^ 32 : Nat) : Int) = 2 ^ 32 := by norm_num
  have modulus : ((2 ^ 96 : Nat) : Int) = 2 ^ 96 := by norm_num
  rw [steps, base, modulus, Nat.cast_add]
  exact count_of_words_int _

theorem Tim.advance_set {t : Tim} {v : BitVec 64} (h : t.set = some v) : t.advance.ns = v ∧ t.advance.fr = 0 := by
  rw [Tim.advance, h]
  exact ⟨rfl, rfl⟩

/-- Block `t` is `b` with a time unit of the same count that the next tick treats alike. -/
structure SameTick (b t : Block) : Prop where
  core : t.core = { b with tim := t.tim }.core
  forTick : t.tim.forTick = b.tim.forTick

namespace SameTick

variable {b c t : Block}

theorem refl (b : Block) : SameTick b b := ⟨rfl, rfl⟩

theorem trans (h : SameTick b c) (k : SameTick c t) : SameTick b t :=
  ⟨k.core.trans (congrArg (Machine.setTim t.tim) h.core), k.forTick.trans h.forTick⟩

theorem ite {p : Prop} [Decidable p] {x : Block} (h : SameTick b x) : SameTick b (if p then x else b) := by
  split
  · exact h
  · exact refl b

theorem toutArm (b : Block) : SameTick b (toutArm b) := by
  have scheduled {c : Block} (core : c.core = b.core) (tim : c.tim = b.tim) (x : Option Train) :
      SameTick b (Machine.setTim { c.tim with train := x } c) :=
    ⟨congrArg (Machine.setTim { c.tim with train := x }) core, (congrArg Tim.forTick tim : c.tim.forTick = b.tim.forTick)⟩
  unfold Machine.toutArm
  dsimp only
  split
  · exact refl b
  · refine scheduled ?_ ?_ _
    · rw [apply_ite Block.core, Block.core_setBit, ite_self]
    · rw [apply_ite Block.tim, Block.tim_setBit, ite_self]

theorem toutStop (b : Block) : SameTick b (toutStop b) := ⟨rfl, rfl⟩

theorem ptmStart (b : Block) : SameTick b (ptmStart b) := ite ⟨rfl, rfl⟩

end SameTick

/-- The time unit with the pulses STEP and SET of a write of TIM_CMD kept (R43). -/
def Block.pulsed (b : Block) (val : Word) : Tim :=
  { b.tim with
    steps := b.tim.steps ++ (if val.getLsbD 0 then [b.rd Reg.TIM_STEP] else [])
    set := if val.getLsbD 1 then some (b.rd64 Reg.TIM_SET_LO) else b.tim.set }

theorem sameTick_timCmd (val : Word) (b : Block) : SameTick (setTim (b.pulsed val) b) (timCmd val b) := by
  have pulses : (if bitOf val 1 then timSet (if bitOf val 0 then timStep b else b) else if bitOf val 0 then timStep b else b) =
      setTim (b.pulsed val) b := by
    unfold Block.pulsed bitOf
    cases val.getLsbD 0 <;> cases val.getLsbD 1 <;> simp <;> rfl
  unfold timCmd
  dsimp only
  rw [pulses]
  exact ((SameTick.ite (.toutArm _)).trans (.ite (.toutStop _))).trans (.ite (.ptmStart _))

/-- A write of TIM_CMD keeps its pulses for the next tick (R43). -/
theorem ends_pulses {s : State} {r : Requester} {val : Word} (hw : Writes r s) :
    Ends (.registerWrite r (BitVec.ofNat 21 Reg.TIM_CMD) val (.bytes 0xF)) s fun b =>
      b.tim.forTick = (s.blk.pulsed val).forTick ∧ b.stage_ = s.blk.stage_ := by
  refine ends_of_unitWrite hw (off := Reg.TIM_CMD) rfl (by decide) (yields_of_command regRow_timCmd rfl _ _ _) (fun o l => ?_)
    fun o l t k => ?_
  · exact (Block.now_of_core (sameTick_timCmd val (s.blk.sending o l)).core).trans rfl
  · have same := sameTick_timCmd val (s.blk.sending o l)
    change Settles (timCmd val (s.blk.sending o l)) t at k
    refine ⟨?_, ?_⟩
    · rw [k.tim]
      exact same.forTick
    · have core := k.core.trans same.core
      exact (congrArg Block.stage_ core : t.core.stage_ = _)

/-- The time unit that a tick makes of the one before. -/
theorem law_timeTick {s : State} (up : 1 ≤ s.blk.stage_) (votes : List Vote) (sramCe hbmCe : Nat) (upsets : List Upset) :
    ∃ u, exec (.timeTick votes sramCe hbmCe upsets) s = .next u ∧
      u.blk.tim.law = (takeInc (beganTick s.blk)).tim.advance.law ∧
      ∀ off, ¬ notTim off → u.blk.rd off = (takeInc (beganTick s.blk)).rd off := by
  obtain ⟨u, run, view⟩ := timeView_timeTick up votes sramCe hbmCe upsets
  have same := SameLaw.tickTime (beganTick s.blk)
  refine ⟨u, run, ?_, fun off inside => ?_⟩
  · rw [tim_of_timeView view]
    exact same.law
  · rw [rd_of_timeView view (by grind) (by grind)]
    rw [same.rd, setTim_rd]

theorem Tim.fields_of_law {t x : Tim} (h : t.law = x.law) : t.ns = x.ns ∧ t.fr = x.fr ∧ t.inc = x.inc :=
  ⟨congrArg Prod.fst h, congrArg (fun y => y.2.1) h, congrArg (fun y => y.2.2) h⟩

theorem Tim.count_of_law {t x : Tim} (h : t.law = x.law) : t.count = x.count := by
  obtain ⟨ns, fr, -⟩ := Tim.fields_of_law h
  rw [Tim.count, ns, fr, Tim.count]

/-- Settles O16: a write of TIM_CMD keeps its pulses beside those before, and the tick applies them all. -/
theorem stepAndSet : Obligations.StepAndSet := by
  unfold Obligations.StepAndSet
  rintro s r val votes sramCe hbmCe upsets steps hw up old rfl
  obtain ⟨t, wrote, -, -, kept, stage⟩ := ends_pulses (val := val) hw
  obtain ⟨u, next, law, -⟩ := law_timeTick (s := t) (by omega) votes sramCe hbmCe upsets
  have unwritten : t.blk.tim.incWritten = false := (congrArg Tim.incWritten kept : t.blk.tim.forTick.incWritten = _).trans old
  have began := tim_of_timeView (timeView_beganTick t.blk)
  have outcome : u.blk.tim.law = (s.blk.pulsed val).advance.law := by
    rw [law, takeInc_of_old (by rw [began, unwritten]), began, Tim.law_advance_forTick, kept, ← Tim.law_advance_forTick]
  obtain ⟨ns, fr, -⟩ := Tim.fields_of_law outcome
  have set (v : BitVec 64) (h : (s.blk.pulsed val).set = some v) : u.blk.tim.ns = v ∧ u.blk.tim.fr = 0 := by
    obtain ⟨x, y⟩ := Tim.advance_set h
    exact ⟨ns.trans x, fr.trans y⟩
  refine ⟨t, u, wrote, next, fun now_ => set _ (if_pos now_), fun none_ v earlier => set v ?_, fun none_ unset => ?_⟩
  · rw [Block.pulsed, none_, if_neg Bool.false_ne_true, earlier]
  · rw [Tim.count_of_law outcome]
    exact Tim.count_advance (t := s.blk.pulsed val) (by rw [Block.pulsed, none_, if_neg Bool.false_ne_true, unset])

end Sys2Proof.Machine

namespace Sys2Proof.Machine

/-! ### A new increment (R42) -/

/-- An increment within ±31,250 ppm of the nominal one (R42). -/
def clamped (v : Nat) : Nat := max 0x01F0000000 (min v 0x0210000000)

theorem clampInc_eq (v : Nat) : clampInc v = (clamped v, decide (v ≠ clamped v)) := by
  unfold clampInc clamped
  split
  · refine Prod.ext (by dsimp only; omega) (decide_eq_true (by omega)).symm
  · split
    · refine Prod.ext (by dsimp only; omega) (decide_eq_true (by omega)).symm
    · refine Prod.ext (by dsimp only; omega) (decide_eq_false (by omega)).symm

theorem clamped_bounds (v : Nat) : 0x01F0000000 ≤ clamped v ∧ clamped v ≤ 0x0210000000 := by
  unfold clamped
  omega

/-- The increment that the registers ask for (R42). -/
def Block.askedInc (b : Block) : Nat := b.fld Reg.TIM_INC_NS 7 0 * 2 ^ 32 + b.num Reg.TIM_INC_FR

/-- The increment's registers showing the one asked for, clamped. -/
def incPair (b : Block) : Block :=
  (b.wrN Reg.TIM_INC_NS (clamped b.askedInc / 2 ^ 32)).wrN Reg.TIM_INC_FR (clamped b.askedInc % 2 ^ 32)

/-- The registers once the increment asked for is in effect (R42). -/
def incShown (b : Block) : Block := if b.askedInc = clamped b.askedInc then incPair b else (incPair b).setBit Reg.TIM_STAT 4

theorem tim_incPair (b : Block) : (incPair b).tim = b.tim := (Block.tim_wrN _ _ _).trans (Block.tim_wrN _ _ _)

theorem tim_incShown (b : Block) : (incShown b).tim = b.tim := by
  rw [incShown, apply_ite Block.tim, Block.tim_setBit, tim_incPair, ite_self]

theorem incShown_eq (b : Block) :
    (if decide (b.askedInc ≠ clamped b.askedInc) = true then (incPair b).setBit Reg.TIM_STAT 4 else incPair b) = incShown b := by
  unfold incShown
  by_cases h : b.askedInc = clamped b.askedInc
  · rw [if_pos h, if_neg (by simp [← h])]
  · rw [if_neg h, if_pos (by simpa using h)]

theorem takeInc_of_new {b : Block} (h : b.tim.incWritten = true) :
    takeInc b = setTim { b.tim with inc := BitVec.ofNat 40 (clamped b.askedInc), incWritten := false } (incShown b) := by
  rw [← tim_incShown b, ← incShown_eq, incPair, takeInc, h, ← Block.askedInc, clampInc_eq, Bool.not_true, if_neg Bool.false_ne_true]

/-- The registers of the increment read the one in effect (R42). -/
theorem rd_incShown {b : Block} {off : Nat} (h : off ≠ Reg.TIM_STAT) : (incShown b).rd off = (incPair b).rd off := by
  rw [incShown]
  exact rd_ite rfl (Block.rd_setBit_other h _)

theorem incNs_incShown (b : Block) : (incShown b).fld Reg.TIM_INC_NS 7 0 = clamped b.askedInc / 2 ^ 32 := by
  obtain ⟨low, high⟩ := clamped_bounds b.askedInc
  rw [Block.fld, rd_incShown (by decide), incPair, Block.rd_wrN_other (by decide), Block.rd_wrN, if_pos rfl, fieldOf,
    BitVec.toNat_ofNat, Nat.shiftRight_zero, Nat.mod_eq_of_lt (a := clamped b.askedInc / 2 ^ 32) (by omega)]
  exact Nat.mod_eq_of_lt (by omega)

theorem incFr_incShown (b : Block) : (incShown b).num Reg.TIM_INC_FR = clamped b.askedInc % 2 ^ 32 := by
  rw [Block.num, rd_incShown (by decide), incPair, Block.rd_wrN, if_pos rfl, BitVec.toNat_ofNat, Nat.mod_mod]

/-- A clamp sets INC_CLAMP (R42). -/
theorem incClamp_incShown (b : Block) :
    (incShown b).bit Reg.TIM_STAT 4 = (b.bit Reg.TIM_STAT 4 || decide (b.askedInc ≠ clamped b.askedInc)) := by
  unfold incShown
  split
  · next same =>
    have kept : (incPair b).bit Reg.TIM_STAT 4 = b.bit Reg.TIM_STAT 4 := by
      rw [Block.bit, incPair, Block.rd_wrN_other (by decide), Block.rd_wrN_other (by decide), Block.bit]
    rw [kept, decide_eq_false (not_not_intro same), Bool.or_false]
  · next moved =>
    rw [Block.bit_setBit_same _ _ (by decide), decide_eq_true moved, Bool.or_true]

theorem setTim_tim (x : Tim) (b : Block) : (setTim x b).tim = x := rfl

theorem Tim.inc_advance (t : Tim) : t.advance.inc = t.inc := by
  unfold Tim.advance
  split <;> rfl

/-- A tick without SET and STEP adds the increment (R41). -/
theorem Tim.count_advance_plain {t : Tim} {w : Nat} (unset : t.set = none) (still : t.steps = []) (inc : t.inc.toNat = w) :
    t.advance.count = (t.count + w) % 2 ^ 96 := by
  have sum := Tim.count_advance unset
  rw [still, inc, List.map_nil, List.sum_nil, Int.zero_mul, Int.add_zero] at sum
  exact_mod_cast sum

/-- Settles O17: the write leaves the increment asked for to the next tick, which clamps it, shows it and adds it. -/
theorem incrementTakesEffect : Obligations.IncrementTakesEffect := by
  unfold Obligations.IncrementTakesEffect
  rintro s r val votes sramCe hbmCe v w upsets hw prevails up unset steps rfl bound
  obtain ⟨t, wrote, -, -, ns, tim, core, regs⟩ := ends_timIncWrite (val := val) hw prevails
  have stage : t.blk.stage_ = s.blk.stage_ := (congrArg Block.stage_ core : t.blk.core.stage_ = _)
  obtain ⟨u, next, law, shown⟩ := law_timeTick (s := t) (by omega) votes sramCe hbmCe upsets
  have view := timeView_beganTick t.blk
  have began : (beganTick t.blk).tim = { s.blk.tim with incWritten := true } := (tim_of_timeView view).trans tim
  have asked : (beganTick t.blk).askedInc = fieldOf val 7 0 * 2 ^ 32 + s.blk.num Reg.TIM_INC_FR := by
    rw [Block.askedInc, Block.fld, rd_of_timeView view (by decide) (by decide), ← Block.fld, ns, Block.num,
      rd_of_timeView view (by decide) (by decide), regs _ (by decide), Block.num]
  have took := takeInc_of_new (b := beganTick t.blk) (congrArg Tim.incWritten began)
  have effect : clamped (beganTick t.blk).askedInc = w := by rw [asked, bound, clamped]
  have moved : (takeInc (beganTick t.blk)).tim = { s.blk.tim with inc := BitVec.ofNat 40 w, incWritten := false } := by
    rw [took, setTim_tim, effect, began]
  obtain ⟨-, -, inc⟩ := Tim.fields_of_law law
  have inc40 : (BitVec.ofNat 40 w).toNat = w := by
    have bounds := clamped_bounds (beganTick t.blk).askedInc
    rw [BitVec.toNat_ofNat, Nat.mod_eq_of_lt (by omega)]
  have reads {off : Nat} (inside : ¬ notTim off) : u.blk.rd off = (incShown (beganTick t.blk)).rd off := by
    rw [shown off inside, took, setTim_rd]
  refine ⟨t, u, wrote, next, ?_, ?_, ?_, ?_, ?_, ?_⟩
  · rw [tim]
  · rw [inc, Tim.inc_advance, moved]
  · rw [Tim.count_of_law law, moved]
    exact Tim.count_advance_plain (t := { s.blk.tim with inc := BitVec.ofNat 40 w, incWritten := false }) unset steps inc40
  · rw [← effect, ← incNs_incShown, Block.fld, reads (by decide), Block.fld]
  · rw [← effect, ← incFr_incShown, Block.num, reads (by decide), Block.num]
  · rw [Block.bit, reads (by decide), ← Block.bit, incClamp_incShown, effect, asked, Block.bit,
      rd_of_timeView view (by decide) (by decide), regs _ (by decide), Block.bit]

end Sys2Proof.Machine

namespace Sys2Proof.Machine

/-! ### What a calibration run that waits for its conditions changes (R220) -/

/-- The block but for what calibration runs change: heads, ports, registers, emissions and notes. -/
def Block.calRest (b : Block) : Block := { b.core with ports := [], heads := [] }

theorem Block.core_of_calRest {a b : Block} (h : b.calRest = a.calRest) :
    b.core = { a with ports := b.ports, heads := b.heads }.core :=
  congrArg (fun c : Block => { c with ports := b.ports, heads := b.heads }) h

theorem Block.calRest_congr {a b : Block} (h : b.core = a.core) : b.calRest = a.calRest :=
  congrArg (fun c : Block => { c with ports := [], heads := [] }) h

theorem Block.calRest_ite {c : Prop} [Decidable c] {x y a : Block} (hx : x.calRest = a.calRest) (hy : y.calRest = a.calRest) :
    (if c then x else y).calRest = a.calRest := by
  split
  · exact hx
  · exact hy

section
variable (b : Block)

@[simp] theorem Block.core_setFld (off hi lo v : Nat) : (b.setFld off hi lo v).core = b.core := by cases b; rfl

@[simp] theorem Block.core_putBit (off i : Nat) (v : Bool) : (b.putBit off i v).core = b.core := by cases b; rfl

@[simp] theorem core_setCalState (h n : Nat) : (setCalState h n b).core = b.core := by simp [setCalState]

@[simp] theorem calRest_setCalState (h n : Nat) : (setCalState h n b).calRest = b.calRest :=
  Block.calRest_congr (core_setCalState b h n)

@[simp] theorem calRest_setCal (h : Nat) (c : CalSt) : (setCal h c b).calRest = b.calRest := rfl

@[simp] theorem calRest_setHd (h : Nat) (x : HeadSt) : (b.setHd h x).calRest = b.calRest := rfl

@[simp] theorem calRest_calShutter (h : Nat) (close : Bool) : (calShutter h close b).calRest = b.calRest :=
  Block.calRest_ite rfl rfl

theorem core_mirror (w : PairWrite) : (mirror w b).core = b.core := (Settles.mirror w b).core

@[simp] theorem calRest_mirrorShut (h : Nat) : (mirrorShut h b).calRest = b.calRest := by
  unfold mirrorShut
  dsimp only
  split
  · exact Block.calRest_ite (Block.calRest_congr (core_mirror b _)) rfl
  · rfl

@[simp] theorem calRest_mirrorOutcome (h cause : Nat) : (mirrorOutcome h cause b).calRest = b.calRest :=
  Block.calRest_ite (Block.calRest_congr (core_mirror b _)) rfl

@[simp] theorem calRest_setCalCause (h n : Nat) : (setCalCause h n b).calRest = b.calRest :=
  Block.calRest_congr (Block.core_setFld b _ _ _ _)

@[simp] theorem calRest_calEnd (h : Nat) : (calEnd h b).calRest = b.calRest := by
  simp [calEnd]

@[simp] theorem calRest_calOpen (h : Nat) : (calOpen h b).calRest = b.calRest :=
  Block.calRest_ite (calRest_calEnd b h) (Block.calRest_ite
    (Block.calRest_ite (calRest_calEnd b h) (calRest_setCalState b h 8))
    (Block.calRest_ite (calRest_setCalState b h 8) (by simp)))

@[simp] theorem calRest_calGapClosed (h : Nat) : (calGapClosed h b).calRest = b.calRest :=
  Block.calRest_ite rfl (Block.calRest_ite (by simp) (Block.calRest_ite (by simp) rfl))

theorem calRest_calUpdate (wasOpen : Bool) : (calUpdate wasOpen b).calRest = b.calRest :=
  forEach_induct (fun c : Block => c.calRest = b.calRest) _ rfl fun h _ c hc => by
    have closed : (if wasOpen && !c.gapOpen then calGapClosed h c else c).calRest = b.calRest :=
      Block.calRest_ite ((calRest_calGapClosed c h).trans hc) hc
    exact Block.calRest_ite ((calRest_setCalState _ h 1).trans closed) closed

end

theorem act_calUpdate (wasOpen : Bool) (b : Block) : (calUpdate wasOpen b).act = b.act :=
  (congrArg Block.act (calRest_calUpdate b wasOpen) : (calUpdate wasOpen b).calRest.act = b.calRest.act)

theorem now_calUpdate (wasOpen : Bool) (b : Block) : (calUpdate wasOpen b).now = b.now :=
  (congrArg Block.now (calRest_calUpdate b wasOpen) : (calUpdate wasOpen b).calRest.now = b.calRest.now)

section
variable {off : Nat} (ho : off ∉ calStats)
include ho

omit ho in
theorem not_calStat_of_lt (h : off < 0xC0000) : off ∉ calStats := fun m => by
  obtain ⟨k, -, e⟩ := List.mem_map.mp m
  grind

theorem ne_calStat {h : Nat} (hh : h ∈ List.range 24) : off ≠ Reg.CAL_H_STAT h := fun e =>
  ho (e ▸ List.mem_map_of_mem hh)

theorem rd_calGapClosed_other {h : Nat} (hh : h ∈ List.range 24) (b : Block) : (calGapClosed h b).rd off = b.rd off := by
  have ne := ne_calStat ho hh
  refine rd_ite rfl (rd_ite ?_ (rd_ite (by simp) rfl))
  rw [rd_calOpen_other ne, mirrorOutcome]
  exact rd_ite (by rw [rd_mirror, setCalCause, Block.rd_setFld_other ne]) (by rw [setCalCause, Block.rd_setFld_other ne])

theorem rd_calUpdate_other (wasOpen : Bool) (b : Block) : (calUpdate wasOpen b).rd off = b.rd off :=
  forEach_induct (fun c : Block => c.rd off = b.rd off) _ rfl fun h hh c hc => by
    have closed : (if wasOpen && !c.gapOpen then calGapClosed h c else c).rd off = b.rd off :=
      rd_ite ((rd_calGapClosed_other ho hh c).trans hc) hc
    exact rd_ite ((rd_setCalState_other (ne_calStat ho hh) 1).trans closed) closed

end

/-- The gap condition rests on the high-water marks and on the registers of the gap and of the event inputs (R220). -/
theorem gapOpen_congr {a b : Block} (hwm : ∀ n, b.hwmNow n = a.hwmNow n) (rd : ∀ off ∉ calStats, b.rd off = a.rd off) :
    b.gapOpen = a.gapOpen := by
  have gap := rd Reg.CAL_GAP (by decide)
  have inputs := rd Reg.ACT_EI_STAT (by decide)
  have low : b.rdPos Reg.CAL_GAP_PLO_LO = a.rdPos Reg.CAL_GAP_PLO_LO :=
    congrArg₂ posOf (rd _ (by decide)) (rd _ (by decide))
  have high : b.rdPos Reg.CAL_GAP_PHI_LO = a.rdPos Reg.CAL_GAP_PHI_LO :=
    congrArg₂ posOf (rd _ (by decide)) (rd _ (by decide))
  unfold Block.gapOpen Block.bit Block.fld
  rw [gap, inputs, hwm, low, high]

theorem hwmNow_of_core {a b : Block} (h : b.core = a.core) (n : Nat) : b.hwmNow n = a.hwmNow n :=
  (congrArg (fun c : Block => c.hwmNow n) h : b.core.hwmNow n = a.core.hwmNow n)

/-- While the gap stays as it was, a waiting run changes its own registers only. -/
theorem core_calUpdate (b : Block) : (calUpdate b.gapOpen b).core = b.core := by
  refine (forEach_induct (fun c : Block => c.core = b.core ∧ ∀ off ∉ calStats, c.rd off = b.rd off) _ ⟨rfl, fun _ _ => rfl⟩
    fun h hh c hc => ?_).1
  obtain ⟨core, rd⟩ := hc
  rw [gapOpen_congr (hwmNow_of_core core) rd, Bool.and_not_self, if_neg Bool.false_ne_true]
  dsimp only
  split
  · exact ⟨(core_setCalState c h 1).trans core, fun off ho => (rd_setCalState_other (ne_calStat ho hh) 1).trans (rd off ho)⟩
  · exact ⟨core, rd⟩

end Sys2Proof.Machine

namespace Sys2Proof.Machine

/-! ### Event outputs (R210) -/

theorem Settles.pulse {b t : Block} (h : Settles b t) (k : Nat) : t.pulse k = b.pulse k := by rw [Block.pulse, Block.pulse, h.act]

theorem Settles.eiCh {b t : Block} (h : Settles b t) (i : Nat) : t.eiCh i = b.eiCh i := by rw [Block.eiCh, Block.eiCh, h.act]

/-- Block `t` is `b` with the outputs `ks` at level `v`, their pulses ended. -/
structure OutputsSet (v : Bool) (ks : Nat → Bool) (b t : Block) : Prop where
  level : ∀ j < 16, t.bit Reg.ACT_EO_LEVEL j = if ks j then v else b.bit Reg.ACT_EO_LEVEL j
  pulse : ∀ j, t.pulse j = if ks j then none else b.pulse j
  core : t.core = { b with act := t.act }.core
  regs : SameRegs b t [Reg.ACT_EO_LEVEL]

/-- The level bit of one output. -/
theorem Block.bit_putBit (b : Block) (off : Nat) {i j : Nat} (hi : i < 32) (v : Bool) :
    (b.putBit off i v).bit off j = if j = i then v else b.bit off j := by
  rw [Block.bit, Block.rd_putBit, if_pos rfl, bitOf_setFieldOf hi (Nat.le_refl i)]
  by_cases h : j = i
  · cases v <;> simp [h, b2n]
  · rw [if_neg (by omega), if_neg h]
    rfl

theorem Block.bit_putBit_same (b : Block) (off : Nat) {i : Nat} (hi : i < 32) (v : Bool) : (b.putBit off i v).bit off i = v := by
  rw [Block.bit_putBit b off hi, if_pos rfl]

theorem Block.bit_setBit_of_ne {b : Block} {off i j : Nat} (hi : i < 32) (h : j ≠ i) :
    (b.setBit off i).bit off j = b.bit off j := by
  rw [Block.bit, Block.rd_setBit, if_pos rfl, bitOf_setFieldOf hi (Nat.le_refl i), if_neg (by omega)]
  rfl

/-- A level set drives the ball, and tells of its change. -/
theorem settles_setLevel (k : Nat) (v : Bool) (t : Nat) (b : Block) : Settles (b.putBit Reg.ACT_EO_LEVEL k v) (setLevel k v t b) := by
  unfold setLevel
  dsimp only
  split
  · exact .refl _
  · exact .of_emitted ⟨[_], rfl⟩

theorem pulse_setPulse (k j : Nat) (p : Option Pulse) (b : Block) :
    (setPulse k p b).pulse j = if j = k then p else b.pulse j := by
  simp [Block.pulse, setPulse, SMap.get_set]

namespace OutputsSet

variable {v : Bool} {ks ls : Nat → Bool} {b c t : Block}

theorem none (h : ∀ j, ks j = false) : OutputsSet v ks b b where
  level j _ := by simp [h]
  pulse j := by simp [h]
  core := rfl
  regs _ _ := rfl

theorem trans (h : OutputsSet v ks b c) (k : OutputsSet v ls c t) : OutputsSet v (fun j => ks j || ls j) b t where
  level j hj := by
    rw [k.level j hj, h.level j hj]
    cases ks j <;> cases ls j <;> rfl
  pulse j := by
    rw [k.pulse j, h.pulse j]
    cases ks j <;> cases ls j <;> rfl
  core := k.core.trans (congrArg (fun x : Block => { x with act := t.act }) h.core)
  regs off ho := (k.regs off ho).trans (h.regs off ho)

theorem now (h : OutputsSet v ks b t) : t.now = b.now := (Block.now_of_core h.core).trans rfl

theorem settles (h : OutputsSet v ks b c) (k : Settles c t) : OutputsSet v ks b t where
  level j hj := (k.bit (by decide) j).trans (h.level j hj)
  pulse j := (k.pulse j).trans (h.pulse j)
  core := by rw [k.core, k.act, h.core]
  regs off ho := (k.rd off (List.ne_of_not_mem_cons ho)).trans (h.regs off ho)

end OutputsSet

theorem outputsSet_eoTo {k : Nat} (hk : k < 16) (v : Bool) (t : Nat) (b : Block) :
    OutputsSet v (fun j => decide (j = k)) b (eoTo k v t b) :=
  OutputsSet.settles (c := (setPulse k none b).putBit Reg.ACT_EO_LEVEL k v)
    { level := fun j _ => by
        rw [Block.bit_putBit _ _ (by omega)]
        simp [Block.bit, Block.rd, setPulse]
      pulse := fun j => by
        rw [Block.pulse, Block.putBit, Block.setFld, Block.wr_act]
        simpa [Block.pulse] using pulse_setPulse k j Option.none b
      core := Block.core_putBit _ _ _ _
      regs := fun off ho => Block.rd_putBit_other (by simpa using (List.not_mem_of_not_mem_cons ho)) _ _ }
    (settles_setLevel k v t _)

theorem outputsSet_forEach (v : Bool) (mask : Word) (xs : List Nat) (hx : ∀ k ∈ xs, k < 16) (b : Block) :
    OutputsSet v (fun j => decide (j ∈ xs) && mask.getLsbD j) b
      (forEach xs (fun k c => if mask.getLsbD k then eoTo k v (c.inst.t16 + 512) c else c) b) := by
  induction xs generalizing b with
  | nil => exact .none fun _ => rfl
  | cons k xs ih =>
    have rest := ih (fun j hj => hx j (List.mem_cons_of_mem _ hj))
    have first : OutputsSet v (fun j => decide (j = k) && mask.getLsbD k) b
        (if mask.getLsbD k then eoTo k v (b.inst.t16 + 512) b else b) := by
      split
      · next h => simpa [h] using outputsSet_eoTo (hx k List.mem_cons_self) v _ b
      · next h => exact .none fun j => by simp [h]
    have both := first.trans (rest _)
    rw [forEach_cons]
    convert both using 2 with j
    by_cases h : j = k <;> simp [h]

/-- EO_SET and EO_CLR drive the written outputs (R210). -/
theorem outputsSet_eoWrite (v : Bool) (val : Word) (b : Block) :
    OutputsSet v (fun j => decide (j < 16) && val.getLsbD j) b (eoWrite v (val &&& 0xFFFF) b) := by
  unfold eoWrite
  convert outputsSet_forEach v (val &&& 0xFFFF) (List.range 16) (fun k hk => List.mem_range.mp hk) b using 2 with j
  by_cases h : j < 16
  · interval_cases j <;> simp
  · simp [h]

section
variable {s : State} {r : Requester}

/-- A write to a command register of event outputs. -/
theorem ends_eoWrite {c : Instr} {off : Nat} {row : RegRow} {val : Word} {v : Bool} {P : Block → Prop} (hw : Writes r s)
    (hc : exec c s = carryOut (writeBy r off val) s) (word : registerWord off) (command : regRow off = some row)
    (keeps : row.rw = 0#32) (unit : ∀ b, writeUnit r off val b = eoWrite v (val &&& 0xFFFF) b)
    (hP : ∀ t, OutputsSet v (fun j => decide (j < 16) && val.getLsbD j) s.blk t → P t) : Ends c s P := by
  refine ends_of_unitWrite hw hc word (yields_of_command command keeps _ _ _) (fun o l => ?_) fun o l t k => ?_
  · rw [unit]
    exact (outputsSet_eoWrite v val (s.blk.sending o l)).now
  · rw [unit] at k
    obtain ⟨level, pulse, core, regs⟩ := (outputsSet_eoWrite v val _).settles k
    exact hP t ⟨level, pulse, core, regs⟩

theorem ends_eoPulseEnd {k : Fin 16} {p : Pulse} (on : s.blk.unitsOn = true) (running : s.blk.pulse k = some p)
    (elapsed : p.ends ≤ s.blk.inst.t16) {P : Block → Prop}
    (hP : ∀ t, OutputsSet false (fun j => decide (j = k.val)) s.blk t → P t) : Ends (.eoPulseEnd k) s P := by
  have ended : whenUnits (eoPulseEnd k) s.blk = eoTo k false (p.ends + 512) s.blk := by
    rw [whenUnits, if_pos on, eoPulseEnd, running]
    exact if_pos elapsed
  have cleared := outputsSet_eoTo k.isLt false (p.ends + 512) s.blk
  refine ends_of_carryOut_now rfl ?_ fun t h => ?_
  · rw [ended]
    exact cleared.now
  · rw [ended] at h
    exact hP t (cleared.settles h)

/-! ### Event inputs (R211, R213) -/

theorem eiCh_of_act {a b : Block} (h : b.act = a.act) (i : Nat) : b.eiCh i = a.eiCh i := by rw [Block.eiCh, h, Block.eiCh]

theorem eiCh_setEi (i j : Nat) (e : EiCh) (b : Block) : (setEi i e b).eiCh j = if j = i then e else b.eiCh j := by
  simp [Block.eiCh, setEi, SMap.get_set]

/-- A level change at an event input, on the block (R211). -/
def eventInput (i : Nat) (level : Bool) (sub : Nat) (b : Block) : Block :=
  if b.unitsOn then eiChange i level sub b else setEi i { b.eiCh i with raw := level } b

/-- What a level change leaves of an input's state: the ball's level, and the filter's hold where the unit runs. -/
def Block.eiAfter (b : Block) (i : Nat) (level : Bool) (sub : Nat) : EiCh :=
  if b.unitsOn then
    { raw := level
      hold := if level = b.bit Reg.ACT_EI_STAT i then none
        else some { level := level, cross := b.instAt sub, due := b.now + sub + b.eiFilt }
      at_ := (List.range 8).map fun n => (b.ch n).at_ (b.instAt sub).ref }
  else { b.eiCh i with raw := level }

theorem ends_eventInputChange {i : Fin 8} {level : Bool} {sub : Sub} {P : Block → Prop}
    (hP : ∀ t, Settles (setEi i (s.blk.eiAfter i level sub) s.blk) t → P t) : Ends (.eventInputChange i level sub) s P := by
  have changed : eventInput i level sub s.blk = setEi i (s.blk.eiAfter i level sub) s.blk := by
    unfold eventInput Block.eiAfter
    split <;> rfl
  refine ends_of_carryOut_now (f := eventInput i level sub) rfl ?_ fun t h => hP t ?_
  · rw [changed]
    rfl
  · rwa [changed] at h

end

section
variable (b : Block)

@[simp] theorem Block.act_putBit (off i : Nat) (v : Bool) : (b.putBit off i v).act = b.act := by cases b; rfl

@[simp] theorem Block.act_wr64 (lo : Nat) (v : BitVec 64) : (b.wr64 lo v).act = b.act := by cases b; rfl

@[simp] theorem Block.core_wrPos (lo : Nat) (v : Pos48) : (b.wrPos lo v).core = b.core := by cases b; rfl

theorem posOf_halves (p : Pos48) : posOf (posLo p) (posHi p) = p := by
  refine BitVec.eq_of_getLsbD_eq fun i hi => ?_
  rw [posOf, BitVec.getLsbD_append]
  by_cases h : i < 32
  · simp [posLo, h]
  · have place : 32 + (i - 32) = i := by omega
    simp [posHi, h, place, BitVec.getElem_signExtend, hi, show i < 64 by omega, show i - 32 < 16 by omega]

theorem Block.rd_wrPos (lo : Nat) (p : Pos48) (o : Nat) :
    (b.wrPos lo p).rd o = if o = lo + 4 then posHi p else if o = lo then posLo p else b.rd o := by
  rw [Block.wrPos, Block.rd_wr, Block.rd_wr]

end

/-- A pair of registers reads the position written to it. -/
theorem Block.rdPos_wrPos (b : Block) (lo : Nat) (p : Pos48) : (b.wrPos lo p).rdPos lo = p := by
  rw [Block.rdPos, Block.rd_wrPos, Block.rd_wrPos, if_neg (by omega), if_pos rfl, if_pos rfl, posOf_halves]

/-- The input's filter with its hold over: its level is the one held. -/
def eiLevelled (i : Nat) (h : Hold) (b : Block) : Block :=
  (setEi i { b.eiCh i with hold := none } b).putBit Reg.ACT_EI_STAT i h.level

theorem eiCh_eiLevelled (i : Nat) (h : Hold) (b : Block) : (eiLevelled i h b).eiCh i = { b.eiCh i with hold := none } :=
  (eiCh_of_act (Block.act_putBit _ _ _ _) i).trans ((eiCh_setEi i i _ b).trans (if_pos rfl))

/-- A held level that is due is captured with its time and its position, where capture is enabled (R211). -/
theorem eiAccept_enabled {i : Nat} {h : Hold} {b : Block} (en : b.eiEnabled i h.level = true) :
    eiAccept i h b = (((eiLevelled i h b).wr64 (Reg.ACT_EI_TIME_LO i) (BitVec.ofNat 64 h.cross.t1)).wrPos (Reg.ACT_EI_POS_LO i)
        ((b.eiCh i).at_.getD (b.fld Reg.ACT_EI_CTL 18 16) 0)).setBit Reg.ACT_EI_STAT (8 + i) := by
  have ctl : (eiLevelled i h b).rd Reg.ACT_EI_CTL = b.rd Reg.ACT_EI_CTL := Block.rd_putBit_other (by decide) _ _
  have enabled : (eiLevelled i h b).eiEnabled i h.level = true := by rwa [Block.eiEnabled, Block.bit, ctl]
  have kept : ((eiLevelled i h b).wr64 (Reg.ACT_EI_TIME_LO i) (BitVec.ofNat 64 h.cross.t1)).eiCh i =
      (eiLevelled i h b).eiCh i := eiCh_of_act (Block.act_wr64 _ _ _) i
  unfold eiAccept
  dsimp only
  rw [← eiLevelled, if_pos enabled, kept, eiCh_eiLevelled, Block.fld, ctl, Block.fld]

theorem eiDue_enabled {b : Block} {i : Nat} {on : Bool} {h : Hold} (due : b.eiDue i on = some h) :
    (b.eiCh i).hold = some h ∧ b.eiEnabled i h.level = on := by
  unfold Block.eiDue at due
  split at due
  · next x held =>
    split at due
    · next c =>
      cases due
      simp at c
      exact ⟨held, c.2⟩
    · cases due
  · cases due

theorem core_eiAccept {i : Nat} {h : Hold} {b : Block} (en : b.eiEnabled i h.level = true) :
    (eiAccept i h b).core = (setEi i { b.eiCh i with hold := none } b).core := by
  rw [eiAccept_enabled en, Block.core_setBit, Block.core_wrPos, Block.core_wr64, eiLevelled, Block.core_putBit]

theorem bit_eiAccept {i : Nat} (hi : i < 8) {h : Hold} {b : Block} (en : b.eiEnabled i h.level = true) :
    (eiAccept i h b).bit Reg.ACT_EI_STAT i = h.level ∧ (eiAccept i h b).bit Reg.ACT_EI_STAT (8 + i) = true := by
  refine ⟨?_, ?_⟩
  · rw [eiAccept_enabled en, Block.bit_setBit_of_ne (by omega) (by omega), Block.bit, Block.rd_wrPos, if_neg (by grind), if_neg (by grind), Block.rd_wr64, if_neg (by grind), if_neg (by grind)]
    exact Block.bit_putBit_same _ _ (by omega) _
  · rw [eiAccept_enabled en]
    exact Block.bit_setBit_same _ _ (by omega)

theorem captured_eiAccept {i : Nat} {h : Hold} {b : Block} (en : b.eiEnabled i h.level = true) :
    (eiAccept i h b).rd64 (Reg.ACT_EI_TIME_LO i) = BitVec.ofNat 64 h.cross.t1 ∧
      (eiAccept i h b).rd (Reg.ACT_EI_POS_LO i) = posLo ((b.eiCh i).at_.getD (b.fld Reg.ACT_EI_CTL 18 16) 0) := by
  rw [eiAccept_enabled en]
  refine ⟨?_, ?_⟩
  · rw [Block.rd64_setBit (by grind) (by grind), Block.rd64, Block.rd_wrPos, Block.rd_wrPos, if_neg (by grind),
      if_neg (by grind), if_neg (by grind), if_neg (by grind), ← Block.rd64, Block.rd64_wr64]
  · rw [Block.rd_setBit_other (by grind), Block.rd_wrPos, if_neg (by grind), if_pos rfl]

/-- The acceptance of a level whose hold is due, on the block. -/
def eiDueAccept (i : Nat) (b : Block) : Block :=
  match b.eiDue i true with
  | some h => eiAccept i h b
  | none => b

theorem ends_eiEdge {s : State} {i : Fin 8} {h : Hold} (on : s.blk.unitsOn = true) (due : s.blk.eiDue i true = some h) :
    Ends (.eiEdge i) s fun b => (b.eiCh i).hold = none ∧ b.bit Reg.ACT_EI_STAT i = h.level ∧
        b.bit Reg.ACT_EI_STAT (8 + i.val) = true ∧
        b.rd64 (Reg.ACT_EI_TIME_LO i) = BitVec.ofNat 64 h.cross.t1 ∧
        b.rd (Reg.ACT_EI_POS_LO i) = posLo ((s.blk.eiCh i).at_.getD (s.blk.fld Reg.ACT_EI_CTL 18 16) 0) ∧
        b.core = { s.blk with act := b.act, ports := b.ports, heads := b.heads }.core := by
  obtain ⟨held, en⟩ := eiDue_enabled due
  have edge : whenUnits (gapSettle (eiDueAccept i)) s.blk = calUpdate s.blk.gapOpen (eiAccept i h s.blk) := by
    rw [whenUnits, if_pos on, gapSettle, eiDueAccept, due]
  have core := core_eiAccept en
  refine ends_of_carryOut_now (f := whenUnits (gapSettle (eiDueAccept i))) rfl ?_ fun t k => ?_
  · rw [edge, now_calUpdate]
    exact (Block.now_of_core core).trans rfl
  rw [edge] at k
  have rd {off : Nat} (low : off < 0x14000) : t.rd off = (eiAccept i h s.blk).rd off :=
    (k.rd _ (by grind)).trans (rd_calUpdate_other (not_calStat_of_lt (by omega)) _ _)
  have act : t.act = (eiAccept i h s.blk).act := k.act.trans (act_calUpdate _ _)
  obtain ⟨level, captured⟩ := bit_eiAccept i.isLt en
  obtain ⟨time, position⟩ := captured_eiAccept en
  refine ⟨?_, ?_, ?_, ?_, ?_, ?_⟩
  · rw [eiCh_of_act (act.trans (Block.act_of_core core)), eiCh_setEi, if_pos rfl]
  · rw [Block.bit, rd (by decide)]
    exact level
  · rw [Block.bit, rd (by decide)]
    exact captured
  · rw [Block.rd64, rd (by grind), rd (by grind)]
    exact time
  · rw [rd (by grind)]
    exact position
  · have rest : (calUpdate s.blk.gapOpen (eiAccept i h s.blk)).calRest =
        (setEi i { s.blk.eiCh i with hold := none } s.blk).calRest :=
      (calRest_calUpdate _ _).trans (Block.calRest_congr core)
    have same := Block.core_of_calRest ((Block.calRest_congr k.core).trans rest)
    have acts : t.act = (setEi i { s.blk.eiCh i with hold := none } s.blk).act := act.trans (Block.act_of_core core)
    rw [same, acts]
    rfl

/-- Settles O38: the written outputs are set one after another, the rest are single updates of the unit's state. -/
theorem eventLines : Obligations.EventLines := by
  unfold Obligations.EventLines
  intro s r val k i level sub
  refine ⟨fun hw => ⟨?_, ?_⟩, fun p on running elapsed => ?_, ?_, fun h on due => ends_eiEdge on due⟩
  · refine ends_eoWrite (row := ⟨0x28, 1, 0, 0, 0, 0, 0, []⟩) (v := true) hw rfl (by decide) rfl rfl (fun _ => rfl) fun t k => ?_
    refine ⟨fun j hj => ?_, fun j hj => ?_, k.core, k.regs⟩
    · rw [k.level j hj, decide_eq_true hj]
      cases val.getLsbD j <;> simp
    · rw [k.pulse j, decide_eq_true hj, Bool.true_and]
  · refine ends_eoWrite (row := ⟨0x2C, 1, 0, 0, 0, 0, 0, []⟩) (v := false) hw rfl (by decide) rfl rfl (fun _ => rfl) fun t k => ?_
    refine ⟨fun j hj => ?_, fun j hj => ?_, k.core, k.regs⟩
    · rw [k.level j hj, decide_eq_true hj]
      cases val.getLsbD j <;> simp
    · rw [k.pulse j, decide_eq_true hj, Bool.true_and]
  · refine ends_eoPulseEnd on running elapsed fun t c => ⟨?_, ?_, fun j hj ne => ⟨?_, ?_⟩, c.core, c.regs⟩
    · simpa using c.level k k.isLt
    · simpa using c.pulse k
    · simpa [ne] using c.level j hj
    · simpa [ne] using c.pulse j
  · refine ends_eventInputChange fun t c => ?_
    have own (j : Nat) : t.eiCh j = if j = i then s.blk.eiAfter i level sub else s.blk.eiCh j :=
      (c.eiCh j).trans (eiCh_setEi _ _ _ _)
    refine ⟨?_, fun on => ?_, fun on => ?_, fun off => ?_, fun j ne => ?_, ?_, fun off ho => ?_⟩
    · rw [own, if_pos rfl, Block.eiAfter]
      split <;> rfl
    · rw [own, if_pos rfl, Block.eiAfter, if_pos on]
    · rw [own, if_pos rfl, Block.eiAfter, if_pos on]
    · rw [own, if_pos rfl, Block.eiAfter, off, if_neg Bool.false_ne_true]
    · rw [own, if_neg ne]
    · rw [c.core, c.act]
      rfl
    · exact c.rd off (by simpa using ho)

end Sys2Proof.Machine

namespace Sys2Proof.Machine

/-! ### A channel's motion leaves the rest alone (R29 to R39) -/

/-- Block `t` is `b` but for the state of the channels `ns`, the strikes, the actions, the event inputs and registers other
than the settings of a channel's inputs. -/
structure Moves (ns : List Nat) (b t : Block) : Prop where
  ch : ∀ m ∉ ns, t.ch m = b.ch m
  ctl : ∀ m, t.rd (Reg.POS_CTL m) = b.rd (Reg.POS_CTL m)
  filt : ∀ m, t.rd (Reg.POS_FILT m) = b.rd (Reg.POS_FILT m)
  now : t.now = b.now
  tim : t.tim = b.tim
  hbm : t.hbm = b.hbm

namespace Moves

variable {ns : List Nat} {b c t : Block}

theorem refl (ns : List Nat) (b : Block) : Moves ns b b := ⟨fun _ _ => rfl, fun _ => rfl, fun _ => rfl, rfl, rfl, rfl⟩

theorem trans (h : Moves ns b c) (k : Moves ns c t) : Moves ns b t where
  ch m hm := (k.ch m hm).trans (h.ch m hm)
  ctl m := (k.ctl m).trans (h.ctl m)
  filt m := (k.filt m).trans (h.filt m)
  now := k.now.trans h.now
  tim := k.tim.trans h.tim
  hbm := k.hbm.trans h.hbm

theorem mono (h : Moves [] b t) (ns : List Nat) : Moves ns b t :=
  ⟨fun m _ => h.ch m List.not_mem_nil, h.ctl, h.filt, h.now, h.tim, h.hbm⟩

theorem ite {p : Prop} [Decidable p] {x y : Block} (hx : Moves ns b x) (hy : Moves ns b y) : Moves ns b (if p then x else y) := by
  split
  · exact hx
  · exact hy

theorem forEach {α : Type} {f : α → Block → Block} (xs : List α) (b : Block) (hf : ∀ x ∈ xs, ∀ c, Moves ns c (f x c)) :
    Moves ns b (Machine.forEach xs f b) :=
  forEach_induct (Moves ns b) xs (.refl ns b) fun x hx c hc => hc.trans (hf x hx c)

/-- An update of registers other than the settings. -/
theorem of_core (core : t.core = b.core)
    (ctl : ∀ m, t.rd (Reg.POS_CTL m) = b.rd (Reg.POS_CTL m)) (filt : ∀ m, t.rd (Reg.POS_FILT m) = b.rd (Reg.POS_FILT m)) :
    Moves [] b t where
  ch m _ := (congrArg (fun x : Block => x.ch m) core : t.core.ch m = b.core.ch m)
  ctl := ctl
  filt := filt
  now := Block.now_of_core core
  tim := Block.tim_of_core core
  hbm := (congrArg Block.hbm core : t.core.hbm = b.core.hbm)

variable (b)

theorem setBit {off : Nat} (ctl : ∀ m, Reg.POS_CTL m ≠ off) (filt : ∀ m, Reg.POS_FILT m ≠ off) (i : Nat) :
    Moves [] b (b.setBit off i) :=
  of_core (Block.core_setBit _ _ _) (fun m => Block.rd_setBit_other (ctl m) i) fun m => Block.rd_setBit_other (filt m) i

theorem inc {off : Nat} (ctl : ∀ m, Reg.POS_CTL m ≠ off) (filt : ∀ m, Reg.POS_FILT m ≠ off) (hi lo k : Nat) :
    Moves [] b (b.inc off hi lo k) :=
  of_core (Block.core_inc _ _ _ _ _) (fun m => Block.rd_inc_other (ctl m) _ _ _) fun m => Block.rd_inc_other (filt m) _ _ _

theorem wrPos {lo : Nat} (ctl : ∀ m, Reg.POS_CTL m ≠ lo ∧ Reg.POS_CTL m ≠ lo + 4)
    (filt : ∀ m, Reg.POS_FILT m ≠ lo ∧ Reg.POS_FILT m ≠ lo + 4) (p : Pos48) : Moves [] b (b.wrPos lo p) :=
  of_core (Block.core_wrPos _ _ _) (fun m => by rw [Block.rd_wrPos, if_neg (ctl m).2, if_neg (ctl m).1])
    fun m => by rw [Block.rd_wrPos, if_neg (filt m).2, if_neg (filt m).1]

theorem setGrp (g : Nat) (x : StkGrp) : Moves [] b (b.setGrp g x) := ⟨fun _ _ => rfl, fun _ => rfl, fun _ => rfl, rfl, rfl, rfl⟩

theorem setAct (i : Nat) (e : ActEntry) : Moves [] b (b.setAct i e) := ⟨fun _ _ => rfl, fun _ => rfl, fun _ => rfl, rfl, rfl, rfl⟩

theorem setEi (i : Nat) (e : EiCh) : Moves [] b (setEi i e b) := ⟨fun _ _ => rfl, fun _ => rfl, fun _ => rfl, rfl, rfl, rfl⟩

theorem setCh (n : Nat) (c : PosCh) : Moves [n] b (b.setCh n c) :=
  ⟨fun m hm => Block.ch_setCh_other _ _ _ _ (by simpa using hm), fun _ => rfl, fun _ => rfl, rfl, rfl, rfl⟩

/-! The parts of a counted transition that move no channel. -/

theorem keysSettle (n : Nat) (cross : Inst) : Moves [] b (keysSettle n cross b) :=
  forEach _ b fun x _ c => by
    dsimp only
    split
    · split
      · exact ite (setAct c _ _) (refl _ c)
      · exact refl _ c
    · exact refl _ c

theorem eiMoved (n : Nat) (cross : Inst) : Moves [] b (eiMoved n cross b) :=
  forEach _ b fun i _ c => by
    dsimp only
    split
    · exact ite (setEi c _ _) (refl _ c)
    · exact refl _ c

theorem idleUpdate (g : Nat) : Moves [] b (idleUpdate g b) := by
  unfold Machine.idleUpdate
  dsimp only
  split <;> split
  · exact refl _ b
  · exact setGrp b _ _
  · exact setGrp b _ _
  · exact refl _ b

theorem idleUpdateAll : Moves [] b (idleUpdateAll b) := forEach _ b fun g _ c => idleUpdate c g

theorem recompute (g : Nat) : Moves [] b (recompute g b) := setGrp b _ _

theorem strikeJump (n : Nat) (load : Bool) (old : Pos48) : Moves [] b (strikeJump n load old b) :=
  forEach _ b fun g _ c => by
    refine ite ?_ (refl _ c)
    refine trans ?_ (recompute _ g)
    exact ite ((inc c (by grind) (by grind) _ _ _).trans (setBit _ (by grind) (by grind) 2)) (refl _ c)

theorem slipCheck (m t : Nat) : Moves [] b (slipCheck m t b) :=
  ite (ite (setBit b (by grind) (by grind) 6) (refl _ b)) (refl _ b)

theorem slipChecks (n t : Nat) : Moves [] b (slipChecks n t b) :=
  forEach _ b fun m _ c => ite (slipCheck c m t) (refl _ c)

end Moves

/-! ### A counted transition (R30, R31) -/

theorem PosCh.hold_congr {c c' : PosCh} (a : c'.holdA = c.holdA) (b : c'.holdB = c.holdB) (z : c'.holdZ = c.holdZ) :
    c'.hold = c.hold := by
  funext pin
  cases pin <;> assumption

theorem PosCh.filt_congr {c c' : PosCh} (a : c'.filtA = c.filtA) (b : c'.filtB = c.filtB) (z : c'.filtZ = c.filtZ) :
    c'.filt = c.filt := by
  funext pin
  cases pin <;> assumption

/-- Channel state `c'` is `c` after one counted transition: 256 grains in its direction. -/
structure Counted (fwd : Bool) (cross : Inst) (c c' : PosCh) : Prop where
  base : c'.base = c.base + if fwd then 256#48 else -256#48
  last : c'.last = some cross
  standstill : c'.standstill = false
  filt : c'.filt = c.filt
  hold : c'.hold = c.hold
  wait : c'.wait = c.wait

theorem grains (fwd : Bool) : toPos (if fwd then 256 else -256) = if fwd then 256#48 else -256#48 := by
  cases fwd <;> decide

/-- The channel after a counted transition of it (R31, R37). -/
theorem counted_countTransition (n : Nat) (fwd : Bool) (cross : Inst) (b : Block) :
    Moves [n] b (countTransition n fwd cross b) ∧ Counted fwd cross (b.ch n) ((countTransition n fwd cross b).ch n) := by
  have counts (x : PosCh) (moves : Counted fwd cross (b.ch n) x) (p : Prop) [Decidable p] :
      Moves [n] b (if p then ((b.setCh n x).inc (Reg.POS_ERR n) 31 16 1).setBit (Reg.POS_STAT n) 5 else b.setCh n x) ∧
        Counted fwd cross (b.ch n)
          ((if p then ((b.setCh n x).inc (Reg.POS_ERR n) 31 16 1).setBit (Reg.POS_STAT n) 5 else b.setCh n x).ch n) := by
    have overrate : Moves [] (b.setCh n x) (((b.setCh n x).inc (Reg.POS_ERR n) 31 16 1).setBit (Reg.POS_STAT n) 5) :=
      (Moves.inc _ (by grind) (by grind) _ _ _).trans (.setBit _ (by grind) (by grind) 5)
    have set := Moves.setCh b n x
    split
    · refine ⟨set.trans (overrate.mono _), ?_⟩
      rwa [overrate.ch n List.not_mem_nil, Block.ch_setCh_same]
    · refine ⟨set, ?_⟩
      rwa [Block.ch_setCh_same]
  refine counts _ ?_ _
  exact ⟨congrArg ((b.ch n).base + ·) (grains fwd), rfl, rfl, PosCh.filt_congr rfl rfl rfl, PosCh.hold_congr rfl rfl rfl, rfl⟩

namespace Moves

variable {n : Nat} {b c t : Block}

/-- What moves no channel leaves a counted transition as it is. -/
theorem counted_before (h : Moves [] b c) {fwd : Bool} {cross : Inst}
    (k : Moves [n] c t ∧ Counted fwd cross (c.ch n) (t.ch n)) : Moves [n] b t ∧ Counted fwd cross (b.ch n) (t.ch n) :=
  ⟨(h.mono _).trans k.1, h.ch n List.not_mem_nil ▸ k.2⟩

theorem counted_after {fwd : Bool} {cross : Inst} (k : Moves [n] b c ∧ Counted fwd cross (b.ch n) (c.ch n)) (h : Moves [] c t) :
    Moves [n] b t ∧ Counted fwd cross (b.ch n) (t.ch n) :=
  ⟨k.1.trans (h.mono _), (h.ch n List.not_mem_nil).symm ▸ k.2⟩

end Moves

theorem counted_transition (n : Nat) (fwd : Bool) (cross : Inst) (b : Block) :
    Moves [n] b (transition n fwd cross b) ∧ Counted fwd cross (b.ch n) ((transition n fwd cross b).ch n) := by
  have count := Moves.counted_before (.keysSettle b n cross) (counted_countTransition n fwd cross (keysSettle n cross b))
  exact Moves.counted_after count (((Moves.eiMoved _ n cross).trans (.slipChecks _ n cross.ref)).trans (.idleUpdateAll _))

/-- The direction in which a change of A (`onA`) or B to `level` moves channel `n` (R30). -/
def Block.moveForward (b : Block) (n : Nat) (onA level : Bool) : Bool :=
  quadForward onA level (if onA then (b.ch n).quadB else (b.ch n).quadA) (b.bit (Reg.POS_CTL n) 1)

theorem counted_quadCount (n : Nat) (onA : Bool) (h : Hold) (b : Block) :
    Moves [n] b (quadCount n onA h b) ∧
      Counted (b.moveForward n onA h.level) h.cross (b.ch n) ((quadCount n onA h b).ch n) := by
  obtain ⟨moves, counts⟩ := counted_transition n (b.moveForward n onA h.level) h.cross
    (b.setCh n (if onA then { b.ch n with quadA := h.level } else { b.ch n with quadB := h.level }))
  rw [Block.ch_setCh_same] at counts
  refine ⟨(Moves.setCh b n _).trans moves, ?_⟩
  obtain ⟨base, last, standstill, filt, hold, wait⟩ := counts
  cases onA
  · exact ⟨base, last, standstill, filt.trans (PosCh.filt_congr rfl rfl rfl), hold.trans (PosCh.hold_congr rfl rfl rfl), wait⟩
  · exact ⟨base, last, standstill, filt.trans (PosCh.filt_congr rfl rfl rfl), hold.trans (PosCh.hold_congr rfl rfl rfl), wait⟩

/-! ### Accepted changes of A and B (R30) -/

/-- Channel states with the same filtered levels and the same holds. -/
structure SameInputs (c c' : PosCh) : Prop where
  filt : c'.filt = c.filt
  hold : c'.hold = c.hold

/-- The input that the quadrature machine's change is of. -/
def quadPin (onA : Bool) : EncPin := if onA then .a else .b

theorem PosCh.filt_accept_same (c : PosCh) (pin : EncPin) (level : Bool) : (c.accept pin level).filt pin = level := by
  cases pin <;> rfl

theorem PosCh.hold_accept (c : PosCh) (pin q : EncPin) (level : Bool) :
    (c.accept pin level).hold q = if q = pin then none else c.hold q := by
  cases pin <;> cases q <;> rfl

/-- The report of a double transition (R30). -/
theorem Moves.reportDouble (n : Nat) (b : Block) : Moves [] b ((b.inc (Reg.POS_ERR n) 15 0 1).setBit (Reg.POS_STAT n) 8) :=
  (Moves.inc _ (by grind) (by grind) _ _ _).trans (.setBit _ (by grind) (by grind) 8)

theorem Moves.quadDouble (n : Nat) (b : Block) : Moves [n] b (quadDouble n b) :=
  (Moves.setCh b n _).trans ((Moves.reportDouble n _).mono [n])

theorem ch_quadDouble (n : Nat) (b : Block) :
    (quadDouble n b).ch n = { b.ch n with wait := none, quadA := (b.ch n).filtA, quadB := (b.ch n).filtB } :=
  ((Moves.reportDouble n _).ch n List.not_mem_nil).trans (Block.ch_setCh_same _ _ _)

/-- A change that waited turns out to be none of a double transition, and counts (R30). -/
theorem counted_quadAlone {n : Nat} {b : Block} {onA : Bool} {w : Hold} (waits : (b.ch n).wait = some (onA, w)) :
    Moves [n] b (quadAlone n b) ∧
      Counted (b.moveForward n onA w.level) w.cross { b.ch n with wait := none } ((quadAlone n b).ch n) := by
  obtain ⟨moves, counts⟩ := counted_quadCount n onA w (b.setCh n { b.ch n with wait := none })
  rw [Block.moveForward, Block.ch_setCh_same] at counts
  rw [quadAlone, waits]
  exact ⟨(Moves.setCh b n _).trans moves, counts⟩

theorem quadAlone_of_none {n : Nat} {b : Block} (h : (b.ch n).wait = none) : quadAlone n b = b := by rw [quadAlone, h]

theorem moves_quadAlone (n : Nat) (b : Block) :
    Moves [n] b (quadAlone n b) ∧ SameInputs (b.ch n) ((quadAlone n b).ch n) := by
  match e : (b.ch n).wait with
  | none => rw [quadAlone_of_none e]; exact ⟨.refl _ b, rfl, rfl⟩
  | some (onA, w) =>
    obtain ⟨moves, counts⟩ := counted_quadAlone e
    exact ⟨moves, counts.filt, counts.hold⟩

section
variable {n : Nat} {onA : Bool} {h : Hold} {b : Block}

/-- The block with a change of A or B accepted by its filter. -/
def acceptedBlock (n : Nat) (onA : Bool) (h : Hold) (b : Block) : Block :=
  b.setCh n ((b.ch n).accept (quadPin onA) h.level)

theorem ch_acceptedBlock : (acceptedBlock n onA h b).ch n = (b.ch n).accept (quadPin onA) h.level := Block.ch_setCh_same _ _ _

theorem moveForward_acceptedBlock (level : Bool) :
    (acceptedBlock n onA h b).moveForward n onA level = b.moveForward n onA level := by
  unfold Block.moveForward
  rw [ch_acceptedBlock]
  cases onA <;> rfl

theorem wait_accept (c : PosCh) (pin : EncPin) (level : Bool) : (c.accept pin level).wait = c.wait := by cases pin <;> rfl

theorem quadPin_ne : quadPin (!onA) ≠ quadPin onA := by cases onA <;> decide

theorem quadAccept_eq : quadAccept n onA h b =
    if !b.posEn n then acceptedBlock n onA h b
    else match (b.ch n).wait with
      | some (a, w) => if a != onA && nearBy w.cross h.cross then quadDouble n (acceptedBlock n onA h b)
          else quadCount n onA h (quadAlone n (acceptedBlock n onA h b))
      | none => match (b.ch n).hold (quadPin (!onA)) with
        | some o => if nearBy o.cross h.cross then
            (acceptedBlock n onA h b).setCh n { (b.ch n).accept (quadPin onA) h.level with wait := some (onA, h) }
          else quadCount n onA h (acceptedBlock n onA h b)
        | none => quadCount n onA h (acceptedBlock n onA h b) := by
  rw [← wait_accept (b.ch n) (quadPin onA) h.level]
  have other : ((b.ch n).accept (quadPin onA) h.level).hold (quadPin (!onA)) = (b.ch n).hold (quadPin (!onA)) := by
    rw [PosCh.hold_accept, if_neg quadPin_ne]
  rw [← other]
  cases onA <;> rfl

/-- A change with no other one held or waiting counts (R30). -/
theorem counted_quadAccept (en : b.posEn n = true) (alone : (b.ch n).wait = none)
    (still : (b.ch n).hold (quadPin (!onA)) = none) :
    Counted (b.moveForward n onA h.level) h.cross ((b.ch n).accept (quadPin onA) h.level) ((quadAccept n onA h b).ch n) := by
  have counts := (counted_quadCount n onA h (acceptedBlock n onA h b)).2
  rw [moveForward_acceptedBlock, ch_acceptedBlock] at counts
  rw [quadAccept_eq, en, if_neg (by decide), alone, still]
  exact counts

/-- A change with a change of the other input within 1 ns still in its filter waits (R30). -/
theorem quadAccept_waits (en : b.posEn n = true) (alone : (b.ch n).wait = none) {o : Hold}
    (held : (b.ch n).hold (quadPin (!onA)) = some o) (near : nearBy o.cross h.cross = true) :
    quadAccept n onA h b =
      (acceptedBlock n onA h b).setCh n { (b.ch n).accept (quadPin onA) h.level with wait := some (onA, h) } := by
  rw [quadAccept_eq, en, if_neg (by decide), alone, held]
  exact if_pos near

/-- With a waiting change of the other input within 1 ns it is a double transition (R30). -/
theorem quadAccept_double (en : b.posEn n = true) {w : Hold} (waits : (b.ch n).wait = some (!onA, w))
    (near : nearBy w.cross h.cross = true) : quadAccept n onA h b = quadDouble n (acceptedBlock n onA h b) := by
  rw [quadAccept_eq, en, if_neg (by decide), waits]
  exact if_pos (by rw [near, Bool.and_true]; cases onA <;> rfl)

/-- Whatever becomes of it, the accepted level is the filter's, and its hold is over. -/
theorem moves_quadAccept (n : Nat) (onA : Bool) (h : Hold) (b : Block) :
    Moves [n] b (quadAccept n onA h b) ∧
      SameInputs ((b.ch n).accept (quadPin onA) h.level) ((quadAccept n onA h b).ch n) := by
  have accepted : Moves [n] b (acceptedBlock n onA h b) := Moves.setCh b n _
  have plain : Moves [n] b (acceptedBlock n onA h b) ∧
      SameInputs ((b.ch n).accept (quadPin onA) h.level) ((acceptedBlock n onA h b).ch n) :=
    ⟨accepted, ch_acceptedBlock ▸ ⟨rfl, rfl⟩⟩
  have counts (c : Block) (k : Moves [n] b c ∧ SameInputs ((b.ch n).accept (quadPin onA) h.level) (c.ch n)) :
      Moves [n] b (quadCount n onA h c) ∧
        SameInputs ((b.ch n).accept (quadPin onA) h.level) ((quadCount n onA h c).ch n) := by
    obtain ⟨moves, counted⟩ := counted_quadCount n onA h c
    exact ⟨k.1.trans moves, counted.filt.trans k.2.filt, counted.hold.trans k.2.hold⟩
  rw [quadAccept_eq]
  split
  · exact plain
  · split
    · split
      · refine ⟨accepted.trans (.quadDouble n _), ?_⟩
        rw [ch_quadDouble, ch_acceptedBlock]
        exact ⟨PosCh.filt_congr rfl rfl rfl, PosCh.hold_congr rfl rfl rfl⟩
      · obtain ⟨moves, same⟩ := moves_quadAlone n (acceptedBlock n onA h b)
        exact counts _ ⟨accepted.trans moves, same.filt.trans plain.2.filt, same.hold.trans plain.2.hold⟩
    · split
      · split
        · refine ⟨accepted.trans (.setCh _ n _), ?_⟩
          rw [Block.ch_setCh_same]
          exact ⟨PosCh.filt_congr rfl rfl rfl, PosCh.hold_congr rfl rfl rfl⟩
        · exact counts _ plain
      · exact counts _ plain

end

/-! ### The filter of one input (R29) -/

theorem moves_quadBefore (n t : Nat) (onA : Bool) (h : Hold) (b : Block) : Moves [n] b (quadBefore n t onA h b) := by
  unfold quadBefore
  split
  · exact .ite (moves_quadAccept n onA _ b).1 (.refl _ b)
  · exact .refl _ b

/-- A change of the other input goes first only where it is due and came first. -/
theorem quadBefore_of_later {n t : Nat} {onA : Bool} {h : Hold} {b : Block}
    (later : ∀ o ∈ (b.ch n).hold (quadPin onA), t < o.due ∨ h.cross.ref ≤ o.cross.ref) : quadBefore n t onA h b = b := by
  unfold quadBefore
  split
  · next o held =>
    have l := later o held
    exact if_neg (by simp only [Bool.and_eq_true, decide_eq_true_eq]; omega)
  · rfl

theorem moves_quadSettle (n t : Nat) (b : Block) : Moves [n] b (quadSettle n t b) := by
  unfold quadSettle
  dsimp only
  split
  · exact .ite ((moves_quadAccept n _ _ b).1.trans (moves_quadAccept n _ _ _).1)
      ((moves_quadAccept n _ _ b).1.trans (moves_quadAccept n _ _ _).1)
  · exact (moves_quadAccept n _ _ b).1
  · exact (moves_quadAccept n _ _ b).1
  · exact .refl _ b

theorem quadSettle_of_not_due {n t : Nat} {b : Block} (a : ∀ h ∈ (b.ch n).holdA, t < h.due)
    (b' : ∀ h ∈ (b.ch n).holdB, t < h.due) : quadSettle n t b = b := by
  have off {x : Option Hold} (k : ∀ h ∈ x, t < h.due) : (x.bind fun h => if h.due ≤ t then some h else none) = none := by
    cases x with
    | none => rfl
    | some h => exact if_neg (Nat.not_le.mpr (k h rfl))
  unfold quadSettle
  dsimp only
  rw [off a, off b']

/-- The block with an accepted level of Z, once the changes of A and B due before have counted. -/
def zAccepted (n t : Nat) (h : Hold) (b : Block) : Block :=
  (quadSettle n t b).setCh n (((quadSettle n t b).ch n).accept .z h.level)

/-- The block with a captured index. -/
def zCaptured (n : Nat) (h : Hold) (b : Block) : Block :=
  ((b.setCh n ((b.ch n).touch h.cross.ref)).wrPos (Reg.POS_ZCAP_LO n) ((b.ch n).at_ h.cross.ref)).setBit (Reg.POS_STAT n) 4

/-- The block with the position zeroed by an index. -/
def zZeroed (n : Nat) (h : Hold) (b : Block) : Block :=
  idleUpdateAll (strikeJump n false ((b.ch n).touch h.cross.ref).hwm ((zCaptured n h b).setCh n
    (((b.ch n).touch h.cross.ref).jumpTo h.cross.ref 0 (((b.ch n).touch h.cross.ref).hwm - (b.ch n).at_ h.cross.ref) .backward)))

theorem indexAccept_eq (n t : Nat) (h : Hold) (b : Block) : indexAccept n t h b =
    if (zAccepted n t h b).posEn n && h.level && (zAccepted n t h b).bit (Reg.POS_CTL n) 2 &&
        (!(zAccepted n t h b).bit (Reg.POS_CTL n) 3 || ((zAccepted n t h b).ch n).filtA && ((zAccepted n t h b).ch n).filtB) then
      if (zCaptured n h (zAccepted n t h b)).bit (Reg.POS_CTL n) 4 && ((zAccepted n t h b).ch n).moved &&
          ((zAccepted n t h b).ch n).fwd then zZeroed n h (zAccepted n t h b)
      else zCaptured n h (zAccepted n t h b)
    else zAccepted n t h b := by
  unfold indexAccept
  dsimp only
  rfl

section
variable (n : Nat) (h : Hold) (b : Block)

theorem regs_zCaptured : Moves [] (b.setCh n ((b.ch n).touch h.cross.ref)) (zCaptured n h b) :=
  (Moves.wrPos _ (by grind) (by grind) _).trans (.setBit _ (by grind) (by grind) 4)

theorem moves_zCaptured : Moves [n] b (zCaptured n h b) := (Moves.setCh b n _).trans ((regs_zCaptured n h b).mono [n])

theorem ch_zCaptured : (zCaptured n h b).ch n = (b.ch n).touch h.cross.ref :=
  ((regs_zCaptured n h b).ch n List.not_mem_nil).trans (Block.ch_setCh_same _ _ _)

theorem moves_zZeroed : Moves [n] b (zZeroed n h b) :=
  ((moves_zCaptured n h b).trans (.setCh _ n _)).trans (((Moves.strikeJump _ n false _).trans (.idleUpdateAll _)).mono [n])

theorem ch_zZeroed : (zZeroed n h b).ch n = ((b.ch n).touch h.cross.ref).jumpTo h.cross.ref 0
    (((b.ch n).touch h.cross.ref).hwm - (b.ch n).at_ h.cross.ref) .backward :=
  (((Moves.strikeJump _ n false _).trans (.idleUpdateAll _)).ch n List.not_mem_nil).trans (Block.ch_setCh_same _ _ _)

theorem rd_zZeroed (off : Nat) : (zZeroed n h b).rd off = (zCaptured n h b).rd off := by
  refine forEach_induct (fun c : Block => c.rd off = (zCaptured n h b).rd off) _ ?_ fun g _ c hc => ?_
  · refine forEach_induct (fun c : Block => c.rd off = (zCaptured n h b).rd off) _ rfl fun g _ c hc => ?_
    exact rd_ite hc hc
  · unfold idleUpdate
    dsimp only
    split <;> split <;> exact hc

theorem rdPos_zCaptured : (zCaptured n h b).rdPos (Reg.POS_ZCAP_LO n) = (b.ch n).at_ h.cross.ref := by
  rw [zCaptured, Block.rdPos, Block.rd_setBit_other (by grind), Block.rd_setBit_other (by grind), ← Block.rdPos, Block.rdPos_wrPos]

/-- An accepted level of Z is the filter's, whatever it captures. -/
theorem moves_indexAccept (t : Nat) : Moves [n] b (indexAccept n t h b) ∧
    ((indexAccept n t h b).ch n).filt .z = h.level ∧ ((indexAccept n t h b).ch n).hold .z = none := by
  have accepted : Moves [n] b (zAccepted n t h b) := (moves_quadSettle n t b).trans (.setCh _ n _)
  have own : (zAccepted n t h b).ch n = ((quadSettle n t b).ch n).accept .z h.level := Block.ch_setCh_same _ _ _
  rw [indexAccept_eq]
  split
  · split
    · refine ⟨accepted.trans (moves_zZeroed n h _), ?_⟩
      rw [ch_zZeroed, own]
      exact ⟨rfl, rfl⟩
    · refine ⟨accepted.trans (moves_zCaptured n h _), ?_⟩
      rw [ch_zCaptured, own]
      exact ⟨rfl, rfl⟩
  · refine ⟨accepted, ?_⟩
    rw [own]
    exact ⟨rfl, rfl⟩

end

end Sys2Proof.Machine

namespace Sys2Proof.Machine

/-! ### FILTER_ACCEPT (R29, R30, R36) -/

section
variable {n t : Nat} {pin : EncPin} {h : Hold} {b : Block}

theorem filterBy_quad {onA : Bool} (held : (b.ch n).hold (quadPin onA) = some h) (due : h.due ≤ t) :
    filterBy n t (quadPin onA) b = quadAccept n onA h (quadBefore n t (!onA) h b) := by
  unfold filterBy
  rw [held]
  dsimp only
  rw [if_pos due]
  cases onA <;> rfl

theorem filterBy_z (held : (b.ch n).hold .z = some h) (due : h.due ≤ t) : filterBy n t .z b = indexAccept n t h b := by
  unfold filterBy
  rw [held]
  exact if_pos due

theorem filterBy_of_not_due (k : ∀ h ∈ (b.ch n).hold pin, t < h.due) : filterBy n t pin b = b := by
  unfold filterBy
  split
  · next h held => exact if_neg (Nat.not_le.mpr (k h held))
  · rfl

theorem eq_z_or_quadPin (pin : EncPin) : pin = .z ∨ ∃ onA, pin = quadPin onA := by
  cases pin
  · exact .inr ⟨true, rfl⟩
  · exact .inr ⟨false, rfl⟩
  · exact .inl rfl

/-- A level that is due becomes the filter's level and its hold is over. -/
theorem moves_filterBy (held : (b.ch n).hold pin = some h) (due : h.due ≤ t) : Moves [n] b (filterBy n t pin b) ∧
    ((filterBy n t pin b).ch n).filt pin = h.level ∧ ((filterBy n t pin b).ch n).hold pin = none := by
  obtain rfl | ⟨onA, rfl⟩ := eq_z_or_quadPin pin
  · rw [filterBy_z held due]
    exact moves_indexAccept n h b t
  · rw [filterBy_quad held due]
    obtain ⟨moves, same⟩ := moves_quadAccept n onA h (quadBefore n t (!onA) h b)
    refine ⟨(moves_quadBefore n t _ h b).trans moves, ?_, ?_⟩
    · rw [same.filt, PosCh.filt_accept_same]
    · rw [same.hold, PosCh.hold_accept, if_pos rfl]

end

/-- Block `t` is `u` but for what a calibration run that waits changes (R220) and for what settles. -/
structure Watched (u t : Block) : Prop where
  ch : ∀ m, t.ch m = u.ch m
  rd : ∀ off < 0x60000, t.rd off = u.rd off
  tim : t.tim = u.tim
  hbm : t.hbm = u.hbm

theorem watched_calUpdate {u t : Block} {wasOpen : Bool} (k : Settles (calUpdate wasOpen u) t) : Watched u t := by
  have rest : t.calRest = u.calRest := (Block.calRest_congr k.core).trans (calRest_calUpdate u wasOpen)
  exact {
    ch := fun m => (congrArg (fun x : Block => x.ch m) rest : t.calRest.ch m = u.calRest.ch m)
    rd := fun off low => (k.rd off (by grind)).trans (rd_calUpdate_other (not_calStat_of_lt (by omega)) _ _)
    tim := (congrArg Block.tim rest : t.calRest.tim = u.calRest.tim)
    hbm := (congrArg Block.hbm rest : t.calRest.hbm = u.calRest.hbm) }

theorem Watched.bit {u t : Block} (k : Watched u t) {off : Nat} (low : off < 0x60000) (i : Nat) : t.bit off i = u.bit off i :=
  congrArg (bitOf · i) (k.rd off low)

theorem Watched.fld {u t : Block} (k : Watched u t) {off : Nat} (low : off < 0x60000) (hi lo : Nat) :
    t.fld off hi lo = u.fld off hi lo := congrArg (fieldOf · hi lo) (k.rd off low)

/-- A command that changes the block to `u` within the watch of the gap (R220). -/
theorem ends_of_watch {c : Instr} {g : Block → Block} {s : State} {P : Block → Prop} {u : Block}
    (hc : exec c s = carryOut g s) (hg : g s.blk = calUpdate s.blk.gapOpen u) (now : u.now = s.blk.now)
    (hP : ∀ t, Watched u t → P t) : Ends c s P := by
  refine ends_of_carryOut_now hc ?_ fun t k => ?_
  · rw [hg, now_calUpdate, now]
  · rw [hg] at k
    exact hP t (watched_calUpdate k)

/-! The cases of an accepted level. -/

section
variable {n : Nat} {onA : Bool} {h : Hold} {b : Block}

theorem quadPin_other : (if quadPin onA = .a then EncPin.b else .a) = quadPin (!onA) := by cases onA <;> rfl

theorem quadPin_ne_z : quadPin onA ≠ .z := by cases onA <;> decide

theorem decide_quadPin : decide (quadPin onA = .a) = onA := by cases onA <;> rfl

theorem decide_quadPin_other : decide (quadPin (!onA) = .a) = !onA := by cases onA <;> rfl

theorem quadForward_quadPin (level : Bool) : quadForward (decide (quadPin onA = .a)) level
    (if quadPin onA = .a then (b.ch n).quadB else (b.ch n).quadA) (b.bit (Reg.POS_CTL n) 1) = b.moveForward n onA level := by
  cases onA <;> rfl

theorem filterAccept_quad (held : (b.ch n).hold (quadPin onA) = some h) (due : h.due ≤ b.now)
    (later : ∀ o ∈ (b.ch n).hold (quadPin (!onA)), b.now < o.due ∨ h.cross.ref ≤ o.cross.ref) :
    filterAccept n (quadPin onA) b = quadAccept n onA h b := by
  rw [filterAccept, filterBy_quad held due, quadBefore_of_later later]

/-- A rising Z is captured where the index is enabled and its gate holds (R36). -/
theorem filterAccept_z (held : (b.ch n).hold .z = some h) (due : h.due ≤ b.now) (rising : h.level = true)
    (en : b.posEn n = true) (index : b.bit (Reg.POS_CTL n) 2 = true)
    (gate : b.bit (Reg.POS_CTL n) 3 = false ∨ (b.ch n).filtA = true ∧ (b.ch n).filtB = true)
    (a : (b.ch n).holdA = none) (b' : (b.ch n).holdB = none) :
    filterAccept n .z b =
      if b.bit (Reg.POS_CTL n) 4 && (b.ch n).moved && (b.ch n).fwd then zZeroed n h (b.setCh n ((b.ch n).accept .z h.level))
      else zCaptured n h (b.setCh n ((b.ch n).accept .z h.level)) := by
  have alone : zAccepted n b.now h b = b.setCh n ((b.ch n).accept .z h.level) := by
    rw [zAccepted, quadSettle_of_not_due (by simp [a]) (by simp [b'])]
  have ctl : (zCaptured n h (b.setCh n ((b.ch n).accept .z h.level))).bit (Reg.POS_CTL n) 4 = b.bit (Reg.POS_CTL n) 4 :=
    congrArg (bitOf · 4) ((moves_zCaptured n h _).ctl n)
  rw [filterAccept, filterBy_z held due, indexAccept_eq, alone, ctl, Block.ch_setCh_same]
  refine if_pos ?_
  show (b.posEn n && h.level && b.bit (Reg.POS_CTL n) 2 &&
    (!b.bit (Reg.POS_CTL n) 3 || (b.ch n).filtA && (b.ch n).filtB)) = true
  rw [en, rising, index]
  rcases gate with open_ | ⟨x, y⟩
  · rw [open_]; rfl
  · rw [x, y]; simp

end

/-- The counts of double transitions and the report of one (R30). -/
theorem reported_quadDouble (n : Nat) (b : Block) :
    (quadDouble n b).fld (Reg.POS_ERR n) 15 0 = min (b.fld (Reg.POS_ERR n) 15 0 + 1) 0xFFFF ∧
      (quadDouble n b).bit (Reg.POS_STAT n) 8 = true := by
  refine ⟨?_, Block.bit_setBit_same _ _ (by decide)⟩
  rw [Block.fld, quadDouble, Block.rd_setBit_other (by grind)]
  exact Block.fld_inc_same _ _ _ _ (by decide) (by decide) _

theorem ends_filterAccept {s : State} {n : Chan} {pin : EncPin} {h : Hold} {P : Block → Prop} (on : s.blk.posOn = true)
    (held : (s.blk.ch n).hold pin = some h) (due : h.due ≤ s.blk.now)
    (hP : ∀ t, Watched (filterAccept n pin s.blk) t → P t) : Ends (.filterAccept n pin) s P :=
  ends_of_watch (g := whenPos (gapSettle (filterAccept n pin))) rfl (if_pos on) (moves_filterBy held due).1.now hP

/-- A zeroed channel stands at 0 (R36). -/
theorem at_zZeroed (n : Nat) (h : Hold) (b : Block) (t : Nat) : ((zZeroed n h b).ch n).at_ t = 0 := by
  rw [ch_zZeroed]
  rfl

/-- Settles O14: the changes of A and B by what is held and waits of the other input, the index by its gate. -/
theorem acceptedTransitionCounts : Obligations.AcceptedTransitionCounts := by
  unfold Obligations.AcceptedTransitionCounts
  rintro s n pin h other on held due rfl
  refine ends_filterAccept on held due fun t k => ?_
  obtain ⟨moves, level, over_⟩ := moves_filterBy held due
  have own := k.ch n
  refine ⟨by rw [own]; exact level, by rw [own]; exact over_, k.tim.trans moves.tim, k.hbm.trans moves.hbm,
    fun m ne => (k.ch m).trans (moves.ch m (by simpa using ne)), ?_, ?_⟩
  · intro quad en
    obtain rfl | ⟨onA, rfl⟩ := eq_z_or_quadPin pin
    · exact absurd rfl quad
    rw [quadPin_other, decide_quadPin_other]
    have counted (later : ∀ o ∈ (s.blk.ch n).hold (quadPin (!onA)), s.blk.now < o.due ∨ h.cross.ref ≤ o.cross.ref) :
        t.ch n = (quadAccept n onA h s.blk).ch n := by rw [own, filterAccept_quad held due later]
    refine ⟨fun free alone => ?_, fun o other alone near later => ?_, fun w free waits near => ?_⟩
    · obtain ⟨base, last, standstill, -, -, -⟩ := counted_quadAccept (h := h) en alone free
      rw [counted (by simp [free])]
      refine ⟨last, standstill, base.trans ?_⟩
      rw [quadForward_quadPin]
      cases onA <;> rfl
    · rw [counted (by simpa [other] using later), quadAccept_waits en alone other near, Block.ch_setCh_same, decide_quadPin]
      exact ⟨rfl, by cases onA <;> rfl⟩
    · have double : filterAccept n (quadPin onA) s.blk = quadDouble n (acceptedBlock n onA h s.blk) :=
        (filterAccept_quad held due (by simp [free])).trans (quadAccept_double en waits near)
      obtain ⟨count, report⟩ := reported_quadDouble n (acceptedBlock n onA h s.blk)
      refine ⟨?_, ?_, ?_, ?_⟩
      · rw [own, double, ch_quadDouble]
      · rw [own, double, ch_quadDouble, ch_acceptedBlock]
        cases onA <;> rfl
      · rw [k.fld (by grind), double]
        exact count
      · rw [k.bit (by grind), double]
        exact report
  · rintro rfl rising en index gate a b
    have outcome := filterAccept_z held due rising en index gate a b
    have rd (off : Nat) (low : off < 0x60000) :
        t.rd off = (zCaptured n h (s.blk.setCh n ((s.blk.ch n).accept .z h.level))).rd off := by
      rw [k.rd off low, outcome]
      exact rd_ite (rd_zZeroed _ _ _ off) rfl
    refine ⟨?_, ?_, fun zero moved fwd => ?_⟩
    · rw [Block.rdPos, rd _ (by grind), rd _ (by grind), ← Block.rdPos, rdPos_zCaptured, Block.ch_setCh_same]
      rfl
    · rw [Block.bit, rd _ (by grind)]
      exact Block.bit_setBit_same _ _ (by decide)
    · rw [own, outcome, if_pos (by rw [zero, moved, fwd]; rfl), at_zZeroed]

end Sys2Proof.Machine

namespace Sys2Proof.Machine

/-! ### ENCODER_LEVEL_CHANGE (R28 to R30) -/

/-- The hold that a level change at an input starts, if its filter does not hold that level already (R29). -/
def Block.newHold (b : Block) (n : Nat) (pin : EncPin) (level : Bool) (cross : Inst) : Option Hold :=
  if level = (b.ch n).filt pin then none else some { level := level, cross := cross, due := cross.ref + b.filtNs n * tuNs }

/-- The block with the new hold at an input. -/
def heldBlock (n : Nat) (pin : EncPin) (level : Bool) (cross : Inst) (b : Block) : Block :=
  b.setCh n ((b.ch n).setHold pin level (b.newHold n pin level cross))

/-- A level change at an encoder input, on the block. -/
def encoderInput (n : Nat) (pin : EncPin) (level : Bool) (sub : Nat) (b : Block) : Block :=
  if b.posOn then gapSettle (encoderChange n pin level sub) b else encoderBall n pin level b

section
variable {n : Nat} {pin : EncPin} {level : Bool} {sub : Nat} {b : Block}

theorem encoderChange_eq {c : Block} (settled : posSettle n (b.now + sub) b = c) : encoderChange n pin level sub b =
    if (c.ch n).waitsFor pin then quadAlone n (heldBlock n pin level (b.instAt sub) c)
    else heldBlock n pin level (b.instAt sub) c := by
  subst settled
  rfl

theorem posSettle_of_not_due {t : Nat} (k : ∀ q ∈ [EncPin.a, .b, .z], ∀ h ∈ (b.ch n).hold q, t < h.due) : posSettle n t b = b := by
  rw [posSettle, quadSettle_of_not_due (k .a (by decide)) (k .b (by decide)), filterBy_of_not_due (k .z (by decide))]

theorem quadSettle_single {t : Nat} {onA : Bool} {h : Hold} (held : (b.ch n).hold (quadPin onA) = some h) (due : h.due ≤ t)
    (free : (b.ch n).hold (quadPin (!onA)) = none) : quadSettle n t b = quadAccept n onA h b := by
  unfold quadSettle
  cases onA
  · have a : (b.ch n).holdA = none := free
    have b' : (b.ch n).holdB = some h := held
    simp [a, b', due]
  · have a : (b.ch n).holdA = some h := held
    have b' : (b.ch n).holdB = none := free
    simp [a, b', due]

theorem PosCh.hold_setHold_same (c : PosCh) (pin : EncPin) (raw : Bool) (h : Option Hold) : (c.setHold pin raw h).hold pin = h := by
  cases pin <;> rfl

theorem PosCh.filt_setHold (c : PosCh) (pin : EncPin) (raw : Bool) (h : Option Hold) : (c.setHold pin raw h).filt = c.filt := by
  cases pin <;> exact PosCh.filt_congr rfl rfl rfl

theorem PosCh.wait_setHold (c : PosCh) (pin : EncPin) (raw : Bool) (h : Option Hold) : (c.setHold pin raw h).wait = c.wait := by
  cases pin <;> rfl

theorem PosCh.base_setHold (c : PosCh) (pin : EncPin) (raw : Bool) (h : Option Hold) : (c.setHold pin raw h).base = c.base := by
  cases pin <;> rfl

theorem PosCh.last_setHold (c : PosCh) (pin : EncPin) (raw : Bool) (h : Option Hold) : (c.setHold pin raw h).last = c.last := by
  cases pin <;> rfl

theorem PosCh.hwmAt_setHold (c : PosCh) (pin : EncPin) (raw : Bool) (h : Option Hold) (t : Nat) :
    (c.setHold pin raw h).hwmAt t = c.hwmAt t := by
  cases pin <;> rfl

theorem ch_heldBlock (cross : Inst) :
    (heldBlock n pin level cross b).ch n = (b.ch n).setHold pin level (b.newHold n pin level cross) := Block.ch_setCh_same _ _ _

theorem moves_heldBlock (n : Nat) (pin : EncPin) (level : Bool) (cross : Inst) (b : Block) :
    Moves [n] b (heldBlock n pin level cross b) := .setCh b n _

theorem moveForward_heldBlock (cross : Inst) (onA raw : Bool) :
    (heldBlock n pin level cross b).moveForward n onA raw = b.moveForward n onA raw := by
  unfold Block.moveForward
  rw [ch_heldBlock]
  cases pin <;> rfl

theorem waitsFor_other {c : PosCh} {onA : Bool} {w : Hold} (waits : c.wait = some (onA, w)) :
    c.waitsFor (quadPin (!onA)) = true := by
  cases onA <;> simp [PosCh.waitsFor, waits, quadPin]

theorem waitsFor_of_none {c : PosCh} (h : c.wait = none) (pin : EncPin) : c.waitsFor pin = false := by
  cases pin <;> simp [PosCh.waitsFor, h]

/-- A hold moves no high-water mark, and so leaves the gap as it was. -/
theorem gapOpen_heldBlock (cross : Inst) : (heldBlock n pin level cross b).gapOpen = b.gapOpen := by
  refine gapOpen_congr (fun m => ?_) fun _ _ => rfl
  by_cases own : m = n
  · subst own
    rw [Block.hwmNow, ch_heldBlock, PosCh.hwmAt_setHold]
    rfl
  · rw [Block.hwmNow, (moves_heldBlock n pin level cross b).ch m (by simpa using own)]
    rfl

end

section
variable {s : State} {n : Chan} {pin : EncPin} {level : Bool} {sub : Sub} (on : s.blk.posOn = true)
include on

theorem encoderInput_on : encoderInput n pin level sub s.blk = calUpdate s.blk.gapOpen (encoderChange n pin level sub s.blk) :=
  if_pos on

/-- A hold that starts or ends changes the channel, and the registers of a calibration run that waits (R220). -/
theorem ends_hold (free : ∀ q ∈ [EncPin.a, .b, .z], ∀ h ∈ (s.blk.ch n).hold q, s.blk.now + sub < h.due)
    (single : (s.blk.ch n).waitsFor pin = false) : Ends (.encoderLevelChange n pin level sub) s fun b =>
      b.ch n = (s.blk.ch n).setHold pin level (s.blk.newHold n pin level (s.blk.instAt sub)) ∧
      b.core = { s.blk with pos := b.pos }.core ∧ SameRegs s.blk b calStats ∧ ∀ m, m ≠ n.val → b.ch m = s.blk.ch m := by
  have held : encoderChange n pin level sub s.blk = heldBlock n pin level (s.blk.instAt sub) s.blk := by
    rw [encoderChange_eq (posSettle_of_not_due free), single]
    rfl
  have done : encoderInput n pin level sub s.blk =
      calUpdate (heldBlock n pin level (s.blk.instAt sub) s.blk).gapOpen (heldBlock n pin level (s.blk.instAt sub) s.blk) := by
    rw [encoderInput_on on, held, gapOpen_heldBlock]
  have core := core_calUpdate (heldBlock n pin level (s.blk.instAt sub) s.blk)
  refine ends_of_carryOut_now (f := encoderInput n pin level sub) rfl ?_ fun t k => ?_
  · rw [done]
    exact (Block.now_of_core core).trans rfl
  rw [done] at k
  have whole : t.core = (heldBlock n pin level (s.blk.instAt sub) s.blk).core := k.core.trans core
  have pos : t.pos = (heldBlock n pin level (s.blk.instAt sub) s.blk).pos :=
    (congrArg Block.pos whole : t.core.pos = (heldBlock n pin level (s.blk.instAt sub) s.blk).core.pos)
  have ch (m : Nat) : t.ch m = (heldBlock n pin level (s.blk.instAt sub) s.blk).ch m := by rw [Block.ch, pos]; rfl
  refine ⟨(ch n).trans (ch_heldBlock _), ?_, fun off ho => ?_, fun m ne =>
    (ch m).trans ((moves_heldBlock _ _ _ _ _).ch m (by simpa using ne))⟩
  · rw [whole, pos]
    rfl
  · exact (k.rd off (List.ne_of_not_mem_cons ho)).trans (rd_calUpdate_other (List.not_mem_of_not_mem_cons ho) _ _)

/-- A change that waited for this input to turn out a double transition counts alone (R30). -/
theorem ends_waited (free : ∀ q ∈ [EncPin.a, .b, .z], ∀ h ∈ (s.blk.ch n).hold q, s.blk.now + sub < h.due) {onA : Bool} {w : Hold}
    (other : pin = quadPin (!onA)) (waits : (s.blk.ch n).wait = some (onA, w)) :
    Ends (.encoderLevelChange n pin level sub) s fun b =>
      (b.ch n).hold pin = s.blk.newHold n pin level (s.blk.instAt sub) ∧ (b.ch n).wait = none ∧ (b.ch n).last = some w.cross ∧
      (b.ch n).base = (s.blk.ch n).base + (if s.blk.moveForward n onA w.level then 256#48 else -256#48) ∧
      (∀ m, m ≠ n.val → b.ch m = s.blk.ch m) ∧ b.tim = s.blk.tim ∧ b.hbm = s.blk.hbm := by
  have wakes : (s.blk.ch n).waitsFor pin = true := other ▸ waitsFor_other waits
  have counted : encoderChange n pin level sub s.blk = quadAlone n (heldBlock n pin level (s.blk.instAt sub) s.blk) := by
    rw [encoderChange_eq (posSettle_of_not_due free), wakes]
    rfl
  have still : ((heldBlock n pin level (s.blk.instAt sub) s.blk).ch n).wait = some (onA, w) := by
    rw [ch_heldBlock, PosCh.wait_setHold, waits]
  obtain ⟨moved, counts⟩ := counted_quadAlone still
  have moves := (moves_heldBlock n pin level (s.blk.instAt sub) s.blk).trans moved
  rw [moveForward_heldBlock] at counts
  obtain ⟨base, last, -, -, hold, wait⟩ := counts
  refine ends_of_watch (g := encoderInput n pin level sub) rfl (encoderInput_on on) (counted ▸ moves.now) fun t k => ?_
  rw [counted] at k
  refine ⟨?_, ?_, ?_, ?_, fun m ne => (k.ch m).trans (moves.ch m (by simpa using ne)), k.tim.trans moves.tim,
    k.hbm.trans moves.hbm⟩
  · rw [k.ch, hold, ch_heldBlock]
    exact PosCh.hold_setHold_same _ _ _ _
  · rw [k.ch, wait]
  · rw [k.ch, last]
  · rw [k.ch, base, ch_heldBlock, PosCh.base_setHold]

/-- A hold that is over by the crossing counts before a new one starts (R29). -/
theorem ends_overdue {onA : Bool} {h : Hold} (held : (s.blk.ch n).hold (quadPin onA) = some h) (due : h.due ≤ s.blk.now + sub)
    (others : ∀ q ∈ [EncPin.a, .b, .z], q ≠ quadPin onA → (s.blk.ch n).hold q = none) (alone : (s.blk.ch n).wait = none)
    (en : s.blk.posEn n = true) : Ends (.encoderLevelChange n (quadPin onA) level sub) s fun b =>
      (b.ch n).filt (quadPin onA) = h.level ∧ (b.ch n).last = some h.cross ∧
      (b.ch n).hold (quadPin onA) = (if level = h.level then none
        else some { level := level, cross := s.blk.instAt sub, due := s.blk.now + sub + s.blk.filtNs n * tuNs }) ∧
      (b.ch n).base = (s.blk.ch n).base + (if s.blk.moveForward n onA h.level then 256#48 else -256#48) ∧
      (∀ m, m ≠ n.val → b.ch m = s.blk.ch m) ∧ b.tim = s.blk.tim ∧ b.hbm = s.blk.hbm := by
  have free : (s.blk.ch n).hold (quadPin (!onA)) = none := others _ (by cases onA <;> decide) quadPin_ne
  have index : (s.blk.ch n).hold .z = none := others _ (by decide) quadPin_ne_z.symm
  obtain ⟨moved, same⟩ := moves_quadAccept n onA h s.blk
  obtain ⟨base, last, -, filt, -, wait⟩ := counted_quadAccept (h := h) en alone free
  have settled : posSettle n (s.blk.now + sub) s.blk = quadAccept n onA h s.blk := by
    rw [posSettle, quadSettle_single held due free, filterBy_of_not_due]
    rw [same.hold, PosCh.hold_accept, if_neg quadPin_ne_z.symm, index]
    simp
  have changed : encoderChange n (quadPin onA) level sub s.blk =
      heldBlock n (quadPin onA) level (s.blk.instAt sub) (quadAccept n onA h s.blk) := by
    rw [encoderChange_eq settled, waitsFor_of_none (wait.trans ((wait_accept _ _ _).trans alone))]
    rfl
  have moves := moved.trans (moves_heldBlock n (quadPin onA) level (s.blk.instAt sub) (quadAccept n onA h s.blk))
  refine ends_of_watch (g := encoderInput n (quadPin onA) level sub) rfl (encoderInput_on on) (changed ▸ moves.now) fun t k => ?_
  rw [changed] at k
  have own := (k.ch n).trans (ch_heldBlock _)
  refine ⟨?_, ?_, ?_, ?_, fun m ne => (k.ch m).trans (moves.ch m (by simpa using ne)), k.tim.trans moves.tim,
    k.hbm.trans moves.hbm⟩
  · rw [own, PosCh.filt_setHold, filt, PosCh.filt_accept_same]
  · rw [own, PosCh.last_setHold, last]
  · rw [own, PosCh.hold_setHold_same, Block.newHold, filt, PosCh.filt_accept_same, Block.filtNs, Block.fld, moved.filt]
    rfl
  · rw [own, PosCh.base_setHold, base]
    cases onA <;> rfl

end

/-- Settles O13: a hold that starts or ends, one that ends a wait, and one that finds its input's last hold over. -/
theorem encoderFilter : Obligations.EncoderFilter := by
  unfold Obligations.EncoderFilter
  intro s n pin level sub hold on
  refine ⟨?_, ?_⟩
  · rintro free rfl
    refine ⟨ends_hold on free, fun onA w other waits => ?_⟩
    have partner : pin = quadPin (!onA) := other.trans (by cases onA <;> rfl)
    exact ends_waited on free partner waits
  · intro h quad held due others alone en
    obtain rfl | ⟨onA, rfl⟩ := eq_z_or_quadPin pin
    · exact absurd rfl quad
    have forward := quadForward_quadPin (n := n) (onA := onA) (b := s.blk) h.level
    rw [forward]
    exact ends_overdue on held due others alone en

end Sys2Proof.Machine

namespace Sys2Proof.Machine

/-! ### STANDSTILL (R32) -/

/-- The clock, the time unit and the position channels. -/
def Block.clocked (b : Block) : Nat × Tim × SMap PosCh := (b.now, b.tim, b.pos)

theorem Block.clocked_of_core {a b : Block} (h : b.core = a.core) : b.clocked = a.clocked :=
  (congrArg Block.clocked h : b.core.clocked = a.core.clocked)

theorem Block.ch_of_clocked {a b : Block} (h : b.clocked = a.clocked) (n : Nat) : b.ch n = a.ch n := by
  have pos : b.pos = a.pos := congrArg (fun x : Nat × Tim × SMap PosCh => x.2.2) h
  rw [Block.ch, pos, Block.ch]

theorem Block.now_of_clocked {a b : Block} (h : b.clocked = a.clocked) : b.now = a.now := congrArg Prod.fst h

theorem Block.tim_of_clocked {a b : Block} (h : b.clocked = a.clocked) : b.tim = a.tim :=
  congrArg (fun x : Nat × Tim × SMap PosCh => x.2.1) h

theorem Reported.clocked {offs : List Nat} {a b : Block} (h : Reported offs a b) : b.clocked = a.clocked :=
  (congrArg Block.clocked h.frame).trans rfl

theorem Block.clocked_ite {c : Prop} [Decidable c] {x y a : Block} (hx : x.clocked = a.clocked) (hy : y.clocked = a.clocked) :
    (if c then x else y).clocked = a.clocked := by
  split
  · exact hx
  · exact hy

theorem Block.clocked_forEach {α : Type} {f : α → Block → Block} (xs : List α) (b : Block)
    (hf : ∀ x c, (f x c).clocked = c.clocked) : (forEach xs f b).clocked = b.clocked :=
  forEach_induct (fun c : Block => c.clocked = b.clocked) xs rfl fun x _ c hc => (hf x c).trans hc

section
variable (b : Block)

@[simp] theorem clocked_incPl (p : Nat) (reg : Nat → Nat) (hi lo n : Nat) : (b.incPl p reg hi lo n).clocked = b.clocked :=
  Block.clocked_ite (Block.clocked_of_core (Block.core_inc _ _ _ _ _)) rfl

@[simp] theorem clocked_sramUe (n : Nat) : (sramUe n b).clocked = b.clocked :=
  Block.clocked_ite rfl ((reported_raiseFlt _ _).clocked.trans (Block.clocked_of_core (Block.core_inc _ _ _ _ _)))

@[simp] theorem clocked_outLine (h p pitch : Nat) (srcs : List (Nat × Nat)) (g : LTag) (pix : List Pix) (lapsed : Bool) :
    (outLine h p pitch srcs g pix lapsed b).clocked = b.clocked := by
  unfold outLine sendLine
  dsimp only
  split <;> rfl

@[simp] theorem clocked_emitOpen (h p cols : Nat) (c : TdiCfg) (j : Int) (line : Option OpenLine) :
    (emitOpen h p cols c j line b).clocked = b.clocked := by
  have place : (b.wrPos (Reg.PL_TDI_LAST_J_LO p) (toPos j)).clocked = b.clocked := Block.clocked_of_core (Block.core_wrPos _ _ _)
  unfold emitOpen
  dsimp only
  split
  · rw [clocked_outLine, clocked_incPl, place]
  · rw [clocked_outLine]
    refine Block.clocked_ite ((clocked_incPl _ _ _ _ _ _).trans ?_) ?_
    all_goals exact ((clocked_sramUe _ _).trans place)

@[simp] theorem clocked_emitGaps (h p cols : Nat) (c : TdiCfg) (last : Option Int) (j : Int) :
    (emitGaps h p cols c last j b).clocked = b.clocked := by
  unfold emitGaps
  split
  · rfl
  · exact Block.clocked_ite rfl (Block.clocked_ite (clocked_incPl _ _ _ _ _ _)
      (Block.clocked_forEach _ b fun i c => clocked_emitOpen c _ _ _ _ _ _))

theorem clocked_closeLines (h p : Nat) (test : OpenLine → Bool) : (closeLines h p test b).clocked = b.clocked := by
  unfold closeLines
  dsimp only
  split
  · rfl
  · exact Block.clocked_forEach _ _ fun l c => (clocked_emitOpen _ _ _ _ _ _ _).trans (clocked_emitGaps _ _ _ _ _ _ _)

/-- Open lines that standstill flushes move no channel. -/
theorem clocked_standstillFlush (n : Nat) : (standstillFlush n b).clocked = b.clocked :=
  Block.clocked_forEach _ b fun _ c => Block.clocked_ite (Block.clocked_ite (clocked_closeLines c _ _ _) rfl) rfl

theorem clocked_flushStill (n : Nat) (f : Block → Block) : (flushStill n f b).clocked = (f b).clocked :=
  Block.clocked_ite (clocked_standstillFlush _ n) rfl

end

/-- A channel at standstill from `now` on (R32, R33). -/
def PosCh.stopped (c : PosCh) (now : Nat) : PosCh :=
  { c.touch now with frozen := some (c.frac now), standstill := true, fresh := true, run := [] }

/-- The points predicted for later that the groups of channel `n` drop as it stops. -/
def dropPreds (n : Nat) (b : Block) : Block :=
  forEach (List.range 8) (fun g b =>
    if b.stkSrc g == n then
      let s := b.grp g
      b.setGrp g { s with preds := s.preds.filter fun p => decide (p.at_ ≤ b.now) }
    else b) b

theorem moves_dropPreds (n : Nat) (b : Block) : Moves [] b (dropPreds n b) :=
  .forEach _ b fun _ _ c => .ite (.setGrp c _ _) (.refl _ c)

/-- Standstill moves nothing but its channel (R32). -/
theorem moves_standstill_of_due {n : Nat} {b : Block} (due : b.stallDue n = true) (alone : (b.ch n).wait = none) :
    Moves [n] b (standstill n b) ∧ ((standstill n b).ch n).standstill = true ∧ ((standstill n b).ch n).valid = false ∧
      ((standstill n b).ch n).at_ b.now = (b.ch n).at_ b.now := by
  have keys := Moves.keysSettle b n b.inst
  have ends := (moves_dropPreds n (toStandstill n (keysSettle n b.inst b))).trans (.idleUpdateAll _)
  have stopped : standstill n b = idleUpdateAll (dropPreds n (toStandstill n (keysSettle n b.inst b))) := by
    rw [standstill, if_pos due, stopChannel, quadAlone_of_none alone]
    rfl
  have own : (standstill n b).ch n = (b.ch n).stopped b.now := by
    rw [stopped, ends.ch n List.not_mem_nil, toStandstill, Block.ch_setCh_same, keys.ch n List.not_mem_nil, keys.now]
    rfl
  refine ⟨?_, by rw [own]; rfl, by rw [own]; rfl, by rw [own]; rfl⟩
  rw [stopped]
  exact ((keys.mono _).trans (.setCh _ n _)).trans (ends.mono _)

theorem stallDue_eq {n : Nat} {b : Block} {l : Inst} (en : b.posEn n = true) (runs : (b.ch n).standstill = false)
    (last : (b.ch n).last = some l) :
    b.stallDue n = ((b.ch n).wait.isNone && decide (l.ref + b.stallTu n ≤ b.now)) := by
  rw [Block.stallDue, en, runs, last]
  rfl

/-- Settles O15: a channel that stops keeps its fraction; one whose time has not come, or that waits, runs on. -/
theorem standstillFreezesFraction : Obligations.StandstillFreezesFraction := by
  unfold Obligations.StandstillFreezesFraction
  intro s n l on en runs last
  have due := stallDue_eq en runs last
  have acts : whenPos (flushStill n (standstill n)) s.blk = flushStill n (standstill n) s.blk := if_pos on
  refine ⟨fun elapsed alone => ?_, fun wait => ?_⟩
  · obtain ⟨moves, stands, invalid, frozen⟩ := moves_standstill_of_due (by rw [due, alone]; simpa using elapsed) alone
    have clocked := clocked_flushStill s.blk n (standstill n)
    refine ends_of_carryOut_now (f := whenPos (flushStill n (standstill n))) rfl ?_ fun t k => ?_
    · rw [acts, Block.now_of_clocked clocked, moves.now]
    rw [acts] at k
    have ch : t.ch n = (standstill n s.blk).ch n := by rw [Block.ch, k.pos]; exact Block.ch_of_clocked clocked n
    rw [ch]
    exact ⟨stands, invalid, frozen, (k.tim.trans (Block.tim_of_clocked clocked)).trans moves.tim⟩
  · have stays : flushStill n (standstill n) s.blk = s.blk := by
      have idle : standstill n s.blk = s.blk := if_neg (by
        rw [due]
        rcases wait with early | waits
        · simp [Nat.not_le.mpr early]
        · simp [Option.isNone_eq_false_iff.mpr waits])
      rw [flushStill, idle, Bool.not_and_self]
      rfl
    refine ends_of_carryOut_now (f := whenPos (flushStill n (standstill n))) rfl ?_ fun t k => ?_
    · rw [acts, stays]
    · rw [acts, stays] at k
      refine ⟨?_, k.core, fun off ho => k.rd off (List.ne_of_not_mem_cons ho)⟩
      rw [Block.ch, k.pos, Block.ch]

end Sys2Proof.Machine

namespace Sys2Proof.Machine

/-! ### The next strike point (R53, R54) -/

/-- The distance from `h` to a point that lies `x` grains past `a`, modulo 2^48 (R34). -/
theorem posDiff_add_toPos (a h : Pos48) (x : Int) : posDiff (a + toPos x) h = (x - posDiff h a).bmod (2 ^ 48) := by
  have moved : a + toPos x - h = toPos x - (h - a) := by abel
  rw [posDiff, moved, BitVec.toInt_sub, toPos, BitVec.toInt_ofInt, Int.sub_bmod, Int.bmod_bmod, ← Int.sub_bmod, posDiff]

theorem stkPitch_pos (b : Block) (g : Nat) : (0 : Int) < b.stkPitch g := by
  unfold Block.stkPitch
  dsimp only
  split <;> omega

theorem stkPitch_lt (b : Block) (g : Nat) : b.stkPitch g < 2 ^ 32 := by
  have width : b.num (Reg.STK_GRP_PITCH g) < 2 ^ 32 := BitVec.isLt _
  unfold Block.stkPitch
  dsimp only
  split <;> omega

/-- The next point lies past the high-water mark by one pitch, less what the mark lies past a strike point (R53). -/
theorem posDiff_nextPoint (b : Block) (g : Nat) :
    posDiff (b.nextPoint g) (b.hwmNow (b.stkSrc g)) =
      b.stkPitch g - posDiff (b.hwmNow (b.stkSrc g)) (b.stkAnchor g) % b.stkPitch g := by
  have positive := stkPitch_pos b g
  have narrow : (b.stkPitch g : Int) < 2 ^ 32 := by exact_mod_cast stkPitch_lt b g
  rw [Block.nextPoint, posDiff_add_toPos]
  generalize posDiff (b.hwmNow (b.stkSrc g)) (b.stkAnchor g) = d
  have rest_nonneg := Int.emod_nonneg d positive.ne'
  have rest_lt := Int.emod_lt_of_pos d positive
  have distance : (d / (b.stkPitch g : Int) + 1) * b.stkPitch g - d = b.stkPitch g - d % b.stkPitch g := by
    rw [Int.emod_def]
    ring
  rw [distance]
  exact Int.bmod_eq_of_le (by omega) (by omega)

/-- Settles O19: the next point is a whole number of pitches past the anchor, and at most one past the high-water mark. -/
theorem nextPointIsSmallest : Obligations.NextPointIsSmallest := by
  unfold Obligations.NextPointIsSmallest
  intro b g
  have positive := stkPitch_pos b g
  refine ⟨⟨_, rfl⟩, ?_, ?_⟩
  · rw [posDiff_nextPoint]
    exact Int.sub_pos_of_lt (Int.emod_lt_of_pos _ positive)
  · rw [posDiff_nextPoint]
    exact Int.sub_le_self _ (Int.emod_nonneg _ positive.ne')

end Sys2Proof.Machine

namespace Sys2Proof.Machine

/-! ### Strike groups under register writes (R51, R53, R60) -/

theorem Settles.stk {b t : Block} (h : Settles b t) : t.stk = b.stk := (congrArg Block.stk h.frame).trans rfl

theorem Settles.grp {b t : Block} (h : Settles b t) (k : Nat) : t.grp k = b.grp k := by rw [Block.grp, h.stk, Block.grp]

/-- The next point rests on the group's settings, its source and the clock (R53). -/
theorem nextPoint_congr {a b : Block} (pos : b.pos = a.pos) (now : b.now = a.now) (g : Grp)
    (rd : ∀ off, off < 0x12000 → b.rd off = a.rd off) : b.nextPoint g = a.nextPoint g := by
  unfold Block.nextPoint Block.stkAnchor Block.stkPitch Block.stkInterp Block.stkSrc Block.hwmNow Block.ch Block.rdPos Block.num
    Block.fld
  rw [pos, now, rd _ (by grind), rd _ (by grind), rd _ (by grind), rd _ (by grind)]

/-- Block `t` is `b` but for the state of strike group `g` and the listed registers. -/
structure GroupWritten (g : Nat) (offs : List Nat) (b t : Block) : Prop where
  other : ∀ k, k ≠ g → t.grp k = b.grp k
  core : t.core = { b with stk := t.stk }.core
  regs : SameRegs b t offs

namespace GroupWritten

variable {g : Nat} {offs : List Nat} {b c t : Block}

theorem refl (g : Nat) (offs : List Nat) (b : Block) : GroupWritten g offs b b := ⟨fun _ _ => rfl, rfl, fun _ _ => rfl⟩

theorem trans (h : GroupWritten g offs b c) (k : GroupWritten g offs c t) : GroupWritten g offs b t where
  other j hj := (k.other j hj).trans (h.other j hj)
  core := k.core.trans (congrArg (fun x : Block => { x with stk := t.stk }) h.core)
  regs off ho := (k.regs off ho).trans (h.regs off ho)

theorem mono (h : GroupWritten g [] b t) (offs : List Nat) : GroupWritten g offs b t :=
  ⟨h.other, h.core, fun off ho => h.regs off (by simp [List.ne_of_not_mem_cons ho])⟩

theorem setGrp (g : Nat) (b : Block) (x : StkGrp) : GroupWritten g [] b (b.setGrp g x) :=
  ⟨fun _ hk => b.grp_setGrp_other _ _ _ hk, rfl, fun _ _ => rfl⟩

theorem genWrite (g off : Nat) (val : Word) (b : Block) : GroupWritten g [off] b (b.genWrite off val) where
  other k _ := by rw [Block.genWrite_frame]; rfl
  core := by rw [Block.genWrite_frame]; rfl
  regs o ho := by rw [Block.rd_genWrite, if_neg (by simpa using List.not_mem_of_not_mem_cons ho)]

theorem settles (h : GroupWritten g offs b c) (k : Settles c t) : GroupWritten g offs b t where
  other j hj := (k.grp j).trans (h.other j hj)
  core := by rw [k.core, k.stk, h.core]
  regs off ho := (k.rd off (List.ne_of_not_mem_cons ho)).trans (h.regs off ho)

theorem of_settles (k : Settles b t) : GroupWritten g [] b t := (refl g [] b).settles k

theorem now (h : GroupWritten g offs b t) : t.now = b.now := (Block.now_of_core h.core).trans rfl

theorem pos (h : GroupWritten g offs b t) : t.pos = b.pos := (congrArg Block.pos h.core : t.core.pos = _).trans rfl

theorem rd (h : GroupWritten g [] b t) {off : Nat} (low : off < 0x12000) : t.rd off = b.rd off := h.regs off (by grind)

theorem nextPoint {g : Grp} (h : GroupWritten g [] b t) : t.nextPoint g = b.nextPoint g :=
  nextPoint_congr h.pos h.now g fun _ low => h.rd low

end GroupWritten

theorem recompute_points (g : Grp) (b : Block) : GroupWritten g [] b (recompute g b) ∧
    ((recompute g b).grp g).next = (recompute g b).nextPoint g ∧ ((recompute g b).grp g).preds = [] := by
  have group := GroupWritten.setGrp g b { b.grp g with next := b.nextPoint g, preds := [] }
  refine ⟨group, ?_, ?_⟩
  · rw [recompute, Block.grp_setGrp_same, group.nextPoint]
  · rw [recompute, Block.grp_setGrp_same]

/-- The idle cadence starts or stops, and the strike points stay (R57). -/
theorem idleUpdate_points (g : Nat) (b : Block) : GroupWritten g [] b (idleUpdate g b) ∧
    ((idleUpdate g b).grp g).next = (b.grp g).next ∧ ((idleUpdate g b).grp g).preds = (b.grp g).preds := by
  have idled (t : Option Nat) := Block.grp_setGrp_same b g { b.grp g with idle := t }
  unfold idleUpdate
  dsimp only
  split <;> split
  · exact ⟨.refl g [] b, rfl, rfl⟩
  · exact ⟨.setGrp g b _, by rw [idled], by rw [idled]⟩
  · exact ⟨.setGrp g b _, by rw [idled], by rw [idled]⟩
  · exact ⟨.refl g [] b, rfl, rfl⟩

/-! ### STK_GRP_CTL -/

theorem regRow_stkCtl (g : Grp) : regRow (Reg.STK_GRP_CTL g) = some ⟨0, 1, 0, 0, 0x377, 0x377, 0, []⟩ := by
  fin_cases g <;> rfl

theorem registerWord_stkCtl (g : Grp) : registerWord (Reg.STK_GRP_CTL g) := by
  revert g
  decide

theorem writeUnit_stkCtl (r : Requester) (g : Grp) (val : Word) (b : Block) :
    writeUnit r (Reg.STK_GRP_CTL g) val b = writeStkCtl g val b := by
  fin_cases g <;> rfl

/-- A bit that the mask covers reads as written. -/
theorem bitOf_masked {i : Nat} {mask : Word} (h : mask.getLsbD i = true) (old val : Word) :
    bitOf ((old &&& ~~~ mask) ||| (val &&& mask)) i = val.getLsbD i := by
  simp only [bitOf, BitVec.getLsbD_or, BitVec.getLsbD_and, BitVec.getLsbD_not, h]
  simp

/-- STK_GRP_CTL of group `g` holds the fields of `val`. -/
structure CtlHolds (g : Nat) (val : Word) (c : Block) : Prop where
  en : c.stkEn g = val.getLsbD 0
  src : c.stkSrc g = fieldOf val 6 4
  mode : c.fld (Reg.STK_GRP_CTL g) 2 1 = fieldOf val 2 1

theorem ctlHolds_genWrite (g : Grp) (val : Word) (b : Block) : CtlHolds g val (b.genWrite (Reg.STK_GRP_CTL g) val) := by
  have stored : (b.genWrite (Reg.STK_GRP_CTL g) val).rd (Reg.STK_GRP_CTL g) =
      (b.rd (Reg.STK_GRP_CTL g) &&& ~~~ 0x377) ||| (val &&& 0x377) := by
    rw [Block.rd_genWrite, if_pos rfl, written_of_rw (regRow_stkCtl g) rfl rfl]
  constructor
  · rw [Block.stkEn, Block.bit, stored]
    exact bitOf_masked (by decide) _ _
  · rw [Block.stkSrc, Block.fld, stored]
    exact fieldOf_masked (by decide) _ _
  · rw [Block.fld, stored]
    exact fieldOf_masked (by decide) _ _

theorem CtlHolds.of_rd {g : Nat} {val : Word} {c t : Block} (h : CtlHolds g val c)
    (rd : t.rd (Reg.STK_GRP_CTL g) = c.rd (Reg.STK_GRP_CTL g)) : CtlHolds g val t where
  en := (congrArg (bitOf · 0) rd).trans h.en
  src := (congrArg (fieldOf · 6 4) rd).trans h.src
  mode := (congrArg (fieldOf · 2 1) rd).trans h.mode

/-- `val`, written to STK_GRP_CTL, changes SRC or MODE, or enables a group that was not. -/
def Block.ctlChanged (a : Block) (g : Nat) (val : Word) : Prop :=
  a.stkEn g = false ∨ a.stkSrc g ≠ fieldOf val 6 4 ∨ a.fld (Reg.STK_GRP_CTL g) 2 1 ≠ fieldOf val 2 1

/-- Block `t` is `a` after a write of `val` to STK_GRP_CTL of group `g` (R53). -/
structure CtlWritten (g : Grp) (val : Word) (a t : Block) : Prop where
  group : GroupWritten g [Reg.STK_GRP_CTL g] a t
  holds : CtlHolds g val t
  restarts : val.getLsbD 0 = true → a.ctlChanged g val → (t.grp g).next = t.nextPoint g ∧ (t.grp g).preds = []
  runsOn : val.getLsbD 0 = true → ¬ a.ctlChanged g val →
    (t.grp g).next = (a.grp g).next ∧ (t.grp g).preds = (a.grp g).preds
  disabled : val.getLsbD 0 = false → (t.grp g).preds = [] ∧ (t.grp g).next = (a.grp g).next

/-- What leaves the settings and the strike points of the group alone keeps the outcome of the write. -/
theorem CtlWritten.of_points {g : Grp} {val : Word} {a c t : Block} (h : CtlWritten g val a c)
    (group : GroupWritten g [] c t) (next : (t.grp g).next = (c.grp g).next) (preds : (t.grp g).preds = (c.grp g).preds) :
    CtlWritten g val a t where
  group := h.group.trans (group.mono _)
  holds := h.holds.of_rd (group.rd (by grind))
  restarts := by rw [next, preds, group.nextPoint]; exact h.restarts
  runsOn := by rw [next, preds]; exact h.runsOn
  disabled := by rw [next, preds]; exact h.disabled

theorem ctlWritten_writeStkCtl (g : Grp) (val : Word) (a : Block) : CtlWritten g val a (writeStkCtl g val a) := by
  have group := GroupWritten.genWrite g (Reg.STK_GRP_CTL g) val a
  have holds := ctlHolds_genWrite g val a
  have grp : (a.genWrite (Reg.STK_GRP_CTL g) val).grp g = a.grp g := by
    rw [Block.genWrite_frame]
    rfl
  unfold writeStkCtl
  generalize a.genWrite (Reg.STK_GRP_CTL g) val = c at group holds grp
  have changed : (!bitOf (a.rd (Reg.STK_GRP_CTL g)) 0 ||
      fieldOf (c.rd (Reg.STK_GRP_CTL g)) 6 4 != fieldOf (a.rd (Reg.STK_GRP_CTL g)) 6 4 ||
      fieldOf (c.rd (Reg.STK_GRP_CTL g)) 2 1 != fieldOf (a.rd (Reg.STK_GRP_CTL g)) 2 1) = true ↔ a.ctlChanged g val := by
    rw [Block.ctlChanged, ← holds.src, ← holds.mode]
    simp [Block.stkEn, Block.stkSrc, Block.bit, Block.fld, or_assoc, ne_comm]
  have en : bitOf (c.rd (Reg.STK_GRP_CTL g)) 0 = val.getLsbD 0 := holds.en
  dsimp only
  rw [en]
  obtain ⟨idled, next, preds⟩ := idleUpdate_points g _
  refine .of_points ?_ idled next preds
  split
  · next h =>
    obtain ⟨on, h⟩ := Bool.and_eq_true_iff.mp h
    obtain ⟨again, found⟩ := recompute_points g c
    exact ⟨group.trans (again.mono _), holds.of_rd rfl, fun _ _ => found, fun _ same => absurd (changed.mp h) same,
      fun off => absurd (on.symm.trans off) (by decide)⟩
  · next h =>
    have runs (on : val.getLsbD 0 = true) : ¬ a.ctlChanged g val := fun k => h (Bool.and_eq_true_iff.mpr ⟨on, changed.mpr k⟩)
    split
    · next on =>
      refine ⟨group, holds, fun on k => absurd k (runs on), fun _ _ => ?_, fun off => ?_⟩
      · rw [grp]
        exact ⟨rfl, rfl⟩
      · exact absurd (on.symm.trans off) (by decide)
    · next off =>
      refine ⟨group.trans ((GroupWritten.setGrp g c _).mono _), holds.of_rd rfl, fun on _ => absurd on off,
        fun on _ => absurd on off, fun _ => ?_⟩
      rw [Block.grp_setGrp_same, grp]
      exact ⟨rfl, rfl⟩

theorem ends_stkGrpCtlWrite {s : State} {r : Requester} {g : Grp} {val : Word} {P : Block → Prop} (hw : Writes r s)
    (hp : Prevails r (Reg.STK_GRP_CTL g) s) (hP : ∀ t, CtlWritten g val s.blk t → P t) :
    Ends (.stkGrpCtlWrite r g val) s P := by
  refine ends_of_unitWrite hw rfl (registerWord_stkCtl g) (yields_of_prevails hp val) (fun o l => ?_) fun o l t k => ?_
  · rw [writeUnit_stkCtl]
    exact (ctlWritten_writeStkCtl g val _).group.now
  · rw [writeUnit_stkCtl] at k
    obtain ⟨⟨other, core, regs⟩, holds, restarts, runsOn, disabled⟩ := (ctlWritten_writeStkCtl g val _).of_points
      (.of_settles k) (congrArg StkGrp.next (k.grp g)) (congrArg StkGrp.preds (k.grp g))
    exact hP t ⟨⟨other, core, regs⟩, holds, restarts, runsOn, disabled⟩

/-! ### STK_PITCH and STK_ANCHOR -/

theorem registerWord_pitchOffset (g : Grp) (reg : PitchReg) : registerWord (pitchOffset g reg) := by
  cases reg <;> revert g <;> decide

theorem writeUnit_pitchOffset (r : Requester) (g : Grp) (reg : PitchReg) (val : Word) (b : Block) :
    writeUnit r (pitchOffset g reg) val b = writeStkPoint g (pitchOffset g reg) val b := by
  cases reg <;> fin_cases g <;> rfl

theorem stkCtl_apart_pitchOffset (g : Grp) (reg : PitchReg) :
    Reg.STK_GRP_CTL g ∉ Reg.MSIX_PBA 0 :: [pitchOffset g reg] := by
  cases reg <;> revert g <;> decide

/-- A write of the pitch or the anchor finds the next point anew while the group is enabled (R53). -/
theorem writeStkPoint_points (g : Grp) (reg : PitchReg) (val : Word) (a : Block) :
    let u := writeStkPoint g (pitchOffset g reg) val a
    GroupWritten g [pitchOffset g reg] a u ∧
      (a.stkEn g = true → (u.grp g).next = u.nextPoint g ∧ (u.grp g).preds = []) ∧
      (a.stkEn g = false → (u.grp g).next = (a.grp g).next) := by
  have group := GroupWritten.genWrite g (pitchOffset g reg) val a
  have en : (a.genWrite (pitchOffset g reg) val).stkEn g = a.stkEn g :=
    congrArg (bitOf · 0) (group.regs _ (stkCtl_apart_pitchOffset g reg))
  have grp : (a.genWrite (pitchOffset g reg) val).grp g = a.grp g := by
    rw [Block.genWrite_frame]
    rfl
  dsimp only
  rw [writeStkPoint, en]
  split
  · next on =>
    obtain ⟨again, found⟩ := recompute_points g (a.genWrite (pitchOffset g reg) val)
    exact ⟨group.trans (again.mono _), fun _ => found, fun off => absurd (on.symm.trans off) (by decide)⟩
  · next off => exact ⟨group, fun on => absurd on off, fun _ => congrArg StkGrp.next grp⟩

theorem ends_stkPitchAnchorWrite {s : State} {r : Requester} {g : Grp} {reg : PitchReg} {val : Word} (hw : Writes r s) :
    Ends (.stkPitchAnchorWrite r g reg val) s fun b =>
      (s.blk.stkEn g = true → (b.grp g).next = b.nextPoint g ∧ (b.grp g).preds = []) ∧
      (s.blk.stkEn g = false → (b.grp g).next = (s.blk.grp g).next) ∧
      b.core = { s.blk with stk := b.stk }.core ∧ SameRegs s.blk b [pitchOffset g reg] := by
  refine ends_of_unitWrite hw rfl (registerWord_pitchOffset g reg) rfl (fun o l => ?_) fun o l t k => ?_
  · rw [writeUnit_pitchOffset]
    exact (writeStkPoint_points g reg _ _).1.now
  · rw [writeUnit_pitchOffset] at k
    obtain ⟨group, enabled, disabled⟩ := writeStkPoint_points g reg _ (s.blk.sending o l)
    obtain ⟨-, core, regs⟩ := group.settles k
    rw [k.grp, (GroupWritten.of_settles k).nextPoint]
    exact ⟨enabled, disabled, core, regs⟩

/-! ### STK_CMD -/

theorem regRow_stkCmd (g : Grp) : regRow (Reg.STK_GRP_CMD g) = some ⟨0x44, 1, 0, 0, 0, 0, 0, []⟩ := by
  fin_cases g <;> rfl

theorem registerWord_stkCmd (g : Grp) : registerWord (Reg.STK_GRP_CMD g) := by
  revert g
  decide

theorem writeUnit_strikeNow (r : Requester) (g : Grp) (b : Block) : writeUnit r (Reg.STK_GRP_CMD g) 1 b = strikeNow g b := by
  fin_cases g <;> rfl

theorem ends_strikeNow {s : State} {g : Grp} (hw : Writes .host s) :
    Ends (.strikeNow g) s fun b => b.grp g = { s.blk.grp g with manualNext := true } ∧
      (∀ k, k ≠ g.val → b.grp k = s.blk.grp k) ∧ b.core = { s.blk with stk := b.stk }.core ∧ SameRegs s.blk b [] := by
  refine ends_of_unitWrite hw rfl (registerWord_stkCmd g) (yields_of_command (regRow_stkCmd g) rfl _ _ _) (fun o l => ?_)
    fun o l t k => ?_
  · rw [writeUnit_strikeNow]
    rfl
  · rw [writeUnit_strikeNow] at k
    obtain ⟨other, core, regs⟩ := (GroupWritten.setGrp g _ _).settles k
    refine ⟨?_, other, core, regs⟩
    rw [k.grp, strikeNow, Block.grp_setGrp_same]
    rfl

/-! ### STK_PORT -/

theorem regRow_stkPort (h : Hd) : regRow (Reg.STK_PORT h) = some ⟨0, 24, 4, 0, 0xFF07, 0xFF07, 0, []⟩ := by
  fin_cases h <;> rfl

theorem registerWord_stkPort (h : Hd) : registerWord (Reg.STK_PORT h) := by
  revert h
  decide

theorem writeUnit_stkPort (r : Requester) (h : Hd) (val : Word) (b : Block) :
    writeUnit r (Reg.STK_PORT h) val b = writeStkPort h val b := by
  fin_cases h <;> rfl

/-- STK_PORT as a write leaves it: the deskew, and of an unbound head the group (R51, R63). -/
def portStored (h : Nat) (val : Word) (b : Block) : Block :=
  (if b.bound h then b else b.genWrite (Reg.STK_PORT h) val).setFld (Reg.STK_PORT h) 15 8 (min 128 (fieldOf val 15 8))

/-- Besides its register, a write of STK_PORT may queue a command of the head. -/
theorem writeStkPort_eq (h : Nat) (val : Word) (b : Block) :
    ∃ x, writeStkPort h val b = { portStored h val b with ports := x } := by
  change ∃ x, (if (portStored h val b).bound h then portStored h val b
    else if (portStored h val b).portGroup h != b.portGroup h then setPortCmd h .group (portStored h val b)
    else portStored h val b) = _
  split
  · exact ⟨_, rfl⟩
  · split
    · exact ⟨_, rfl⟩
    · exact ⟨_, rfl⟩

theorem core_portStored (h : Nat) (val : Word) (b : Block) : (portStored h val b).core = b.core := by
  rw [portStored, Block.core_setFld]
  split
  · rfl
  · exact Block.genWrite_core _ _ _

theorem rd_portStored_other {h off : Nat} (ho : off ≠ Reg.STK_PORT h) (val : Word) (b : Block) :
    (portStored h val b).rd off = b.rd off := by
  rw [portStored, Block.rd_setFld_other ho]
  exact rd_ite rfl (by rw [Block.rd_genWrite, if_neg ho])

theorem deskew_portStored (h : Nat) (val : Word) (b : Block) :
    (portStored h val b).fld (Reg.STK_PORT h) 15 8 = min 128 (fieldOf val 15 8) := by
  rw [portStored, Block.fld, Block.rd_setFld, if_pos rfl, fieldOf_setFieldOf_same _ _ _ _ (by decide) (by decide)]
  omega

theorem portGroup_portStored (h : Hd) (val : Word) (b : Block) :
    (portStored h val b).portGroup h = if b.bound h then b.portGroup h else fieldOf val 2 0 := by
  rw [portStored, Block.portGroup, Block.fld, Block.rd_setFld, if_pos rfl,
    fieldOf_setFieldOf_other _ _ _ _ _ _ (by decide) (by decide) (by decide)]
  split
  · rfl
  · rw [Block.rd_genWrite, if_pos rfl, written_of_rw (regRow_stkPort h) rfl rfl]
    exact fieldOf_masked (by decide) _ _

theorem ends_stkPortWrite {s : State} {r : Requester} {h : Hd} {val : Word} (hw : Writes r s)
    (hp : Prevails r (Reg.STK_PORT h) s) :
    Ends (.stkPortWrite r h val) s fun b => b.fld (Reg.STK_PORT h) 15 8 = min 128 (fieldOf val 15 8) ∧
      b.portGroup h = (if s.blk.bound h then s.blk.portGroup h else fieldOf val 2 0) ∧
      b.core = { s.blk with ports := b.ports }.core ∧ SameRegs s.blk b [Reg.STK_PORT h] := by
  have core (o : List Out) (l : Trail) := core_portStored h val (s.blk.sending o l)
  refine ends_of_unitWrite hw rfl (registerWord_stkPort h) (yields_of_prevails hp val) (fun o l => ?_) fun o l t k => ?_
  · obtain ⟨x, e⟩ := writeStkPort_eq h val (s.blk.sending o l)
    rw [writeUnit_stkPort, e]
    exact (show (portStored h val (s.blk.sending o l)).now = (s.blk.sending o l).now from Block.now_of_core (core o l))
  · obtain ⟨x, e⟩ := writeStkPort_eq h val (s.blk.sending o l)
    rw [writeUnit_stkPort, e] at k
    have rd : t.rd (Reg.STK_PORT h) = (portStored h val (s.blk.sending o l)).rd (Reg.STK_PORT h) := k.rd _ (by grind)
    have ports : t.ports = x := (congrArg Block.ports k.frame).trans rfl
    refine ⟨?_, ?_, ?_, k.sameRegs fun off ho => rd_portStored_other (by simpa using ho) _ _⟩
    · rw [Block.fld, rd]
      exact deskew_portStored h val _
    · rw [Block.portGroup, Block.fld, rd]
      exact portGroup_portStored h val _
    · rw [k.core, ports]
      exact congrArg (fun c : Block => { c with ports := x }) (core o l)

/-- Settles O20: each kind of write ends with one update of its group, or of its port's register. -/
theorem strikeGroupWrites : Obligations.StrikeGroupWrites := by
  unfold Obligations.StrikeGroupWrites
  intro s r g h reg val
  refine ⟨fun hw hp => ends_stkGrpCtlWrite hw hp fun t k => ?_, ends_stkPitchAnchorWrite, ends_stkPortWrite, ends_strikeNow⟩
  refine ⟨k.holds.en, k.holds.src, ?_, k.restarts, fun on ran src mode => k.runsOn on ?_, k.disabled, k.group.other, k.group.core,
    k.group.regs⟩
  · rw [Block.stkInterp, k.holds.mode]
    rfl
  · simp [Block.ctlChanged, ran, src, mode]

end Sys2Proof.Machine

namespace Sys2Proof.Machine

/-! ### A strike issued or withheld (R58, R61, R64) -/

/-- The stamp of a group's strike number SEQ (R64). -/
def strikeStamp (g kind : Nat) (seq : BitVec 16) : BitVec 21 := BitVec.ofNat 21 (kind * 2 ^ 19 + g * 2 ^ 16 + seq.toNat)

/-- The group's state once the strike is its last. -/
def StkGrp.struck (x : StkGrp) (g kind : Nat) (pos : Pos48) (inst : Inst) : StkGrp :=
  { x with seq := x.seq + 1, last := some inst.ref
           recs := ({ stamp := strikeStamp g kind x.seq, pos := pos, time := BitVec.ofNat 68 inst.t16 } :: x.recs).take 256 }

/-- The LAST registers of a group show a strike (R64). -/
def showStrike (g : Nat) (stamp : BitVec 21) (pos : Pos48) (inst : Inst) (b : Block) : Block :=
  (((b.wr (Reg.STK_GRP_LAST_STAMP g) (stamp.setWidth 32)).wrPos (Reg.STK_GRP_LAST_POS_LO g) pos).wr64
    (Reg.STK_GRP_LAST_TIME_LO g) (BitVec.ofNat 64 (inst.t16 / 16))).wrN (Reg.STK_GRP_LAST_TIME_FR g) (inst.t16 % 16)

/-- A FALLBACK strike is counted (R56). -/
def countFallback (g : Nat) (fallback : Bool) (b : Block) : Block :=
  if fallback then (b.setBit (Reg.STK_GRP_STAT g) 1).inc (Reg.STK_GRP_CNT_B g) 31 16 1 else b

/-- A strike is counted (R64, R310). -/
def countStrike (b : Block) : Block := { b with strikes := b.strikes + 1 }

/-- The group takes a strike as its last, and the entry of its record is written. -/
def takeStrike (g kind : Nat) (pos : Pos48) (inst : Inst) (b : Block) : Block :=
  (mend (· == .strike (Fin.ofNat 8 g) (strikeStamp g kind (b.grp g).seq)) b).setGrp g ((b.grp g).struck g kind pos inst)

/-- The block with a strike recorded, before it is scheduled at the ports. -/
def struck (g kind : Nat) (pos : Pos48) (inst : Inst) (fallback : Bool) (b : Block) : Block :=
  countFallback g fallback (countStrike
    (showStrike g (strikeStamp g kind (b.grp g).seq) pos inst (takeStrike g kind pos inst b)))

theorem passBound_eq (g : Nat) (seq : BitVec 16) (b : Block) : ∃ n, passBound g seq b = { b with bounds := n } := by
  unfold passBound
  split
  · exact ⟨b.bounds, rfl⟩
  · split
    · split
      · exact ⟨b.bounds, rfl⟩
      · exact ⟨_, rfl⟩
    · exact ⟨b.bounds, rfl⟩

theorem scheduleStrike_eq (g kind : Nat) (stamp : BitVec 21) (ref : Nat) (b : Block) :
    ∃ q, scheduleStrike g kind stamp ref b = { b with sched := q } := by
  refine forEach_induct (fun c => ∃ q, c = { b with sched := q }) _ ⟨b.sched, rfl⟩ fun h _ c hc => ?_
  obtain ⟨q, rfl⟩ := hc
  split
  · exact ⟨_, rfl⟩
  · exact ⟨q, rfl⟩

section
variable {g : Grp} {b : Block} {inst : Inst} (kind : Nat) (pos : Pos48) (fallback : Bool)

theorem strike_of_soon {l : Nat} (last : (b.grp g).last = some l) (soon : inst.ref < l + b.minint g * tuNs) :
    strike g kind pos inst fallback b = (b.setBit (Reg.STK_GRP_STAT g) 0).inc (Reg.STK_GRP_CNT_A g) 31 16 1 := by
  unfold strike
  dsimp only
  rw [last]
  exact if_pos (decide_eq_true soon)

/-- A strike in time is recorded, and then scheduled and passed in a handover. -/
theorem strike_of_inTime (inTime : InTime b g inst) : strike g kind pos inst fallback b =
    passBound g (b.grp g).seq (if b.emitsStrike g (b.grp g).seq
      then scheduleStrike g kind (strikeStamp g kind (b.grp g).seq) inst.ref (struck g kind pos inst fallback b)
      else struck g kind pos inst fallback b) := by
  unfold strike
  extract_lets s tooSoon
  have issues : ¬ tooSoon = true := by
    cases last : s.last with
    | none => simp [tooSoon, last]
    | some l => simpa [tooSoon, last] using inTime l last
  rw [if_neg issues]
  rfl

theorem strike_frame_of_inTime (inTime : InTime b g inst) :
    ∃ q n, strike g kind pos inst fallback b = { struck g kind pos inst fallback b with sched := q, bounds := n } := by
  rw [strike_of_inTime kind pos fallback inTime]
  split
  · obtain ⟨q, scheduled⟩ := scheduleStrike_eq g kind (strikeStamp g kind (b.grp g).seq) inst.ref
      (struck g kind pos inst fallback b)
    obtain ⟨n, passed⟩ := passBound_eq g (b.grp g).seq { struck g kind pos inst fallback b with sched := q }
    exact ⟨q, n, by rw [scheduled, passed]⟩
  · obtain ⟨n, passed⟩ := passBound_eq g (b.grp g).seq (struck g kind pos inst fallback b)
    exact ⟨_, n, passed⟩

end

/-! What a strike records. -/

theorem core_countFallback (g : Nat) (fallback : Bool) (b : Block) : (countFallback g fallback b).core = b.core := by
  unfold countFallback
  split
  · rw [Block.core_inc, Block.core_setBit]
  · rfl

theorem rd_countFallback_other {g off : Nat} (stat : off ≠ Reg.STK_GRP_STAT g) (cnt : off ≠ Reg.STK_GRP_CNT_B g)
    (fallback : Bool) (b : Block) : (countFallback g fallback b).rd off = b.rd off :=
  rd_ite (by rw [Block.rd_inc_other cnt, Block.rd_setBit_other stat]) rfl

theorem core_countStrike {a b : Block} (h : b.core = a.core) : (countStrike b).core = (countStrike a).core :=
  congrArg countStrike h

theorem rd_countStrike (b : Block) (off : Nat) : (countStrike b).rd off = b.rd off := rfl

theorem core_showStrike (g : Nat) (stamp : BitVec 21) (pos : Pos48) (inst : Inst) (b : Block) :
    (showStrike g stamp pos inst b).core = b.core := by
  rw [showStrike, Block.core_wrN, Block.core_wr64, Block.core_wrPos]
  rfl

theorem shown_showStrike (g : Grp) (stamp : BitVec 21) (pos : Pos48) (inst : Inst) (b : Block) :
    (showStrike g stamp pos inst b).rd (Reg.STK_GRP_LAST_STAMP g) = stamp.setWidth 32 ∧
      (showStrike g stamp pos inst b).rdPos (Reg.STK_GRP_LAST_POS_LO g) = pos ∧
      (showStrike g stamp pos inst b).rd64 (Reg.STK_GRP_LAST_TIME_LO g) = BitVec.ofNat 64 (inst.t16 / 16) := by
  have time {off : Nat} (lo : off ≠ Reg.STK_GRP_LAST_TIME_LO g) (hi : off ≠ Reg.STK_GRP_LAST_TIME_LO g + 4)
      (fr : off ≠ Reg.STK_GRP_LAST_TIME_FR g) : (showStrike g stamp pos inst b).rd off =
        ((b.wr (Reg.STK_GRP_LAST_STAMP g) (stamp.setWidth 32)).wrPos (Reg.STK_GRP_LAST_POS_LO g) pos).rd off := by
    rw [showStrike, Block.rd_wrN_other fr, Block.rd_wr64, if_neg hi, if_neg lo]
  refine ⟨?_, ?_, ?_⟩
  · rw [time (by grind) (by grind) (by grind), Block.rd_wrPos, if_neg (by grind), if_neg (by grind), Block.rd_wr_same]
  · rw [Block.rdPos, time (by grind) (by grind) (by grind), time (by grind) (by grind) (by grind), ← Block.rdPos,
      Block.rdPos_wrPos]
  · rw [showStrike, Block.rd64_wrN (by grind) (by grind), Block.rd64_wr64]

/-- What a strike of group `g` leaves alone, whether it is issued or withheld. -/
structure StrikeKeeps (g : Nat) (b t : Block) : Prop where
  next : (t.grp g).next = (b.grp g).next
  preds : (t.grp g).preds = (b.grp g).preds
  decided : (t.grp g).decided = (b.grp g).decided
  other : ∀ k, k ≠ g → t.grp k = b.grp k
  pos : t.pos = b.pos
  tim : t.tim = b.tim
  now : t.now = b.now

theorem Block.grp_of_core {a b : Block} (h : b.core = a.core) (k : Nat) : b.grp k = a.grp k :=
  (congrArg (fun c : Block => c.grp k) h : b.core.grp k = a.core.grp k)

theorem StrikeKeeps.of_core {g : Nat} {b t : Block} (h : t.core = b.core) : StrikeKeeps g b t where
  next := congrArg StkGrp.next (Block.grp_of_core h g)
  preds := congrArg StkGrp.preds (Block.grp_of_core h g)
  decided := congrArg StkGrp.decided (Block.grp_of_core h g)
  other k _ := Block.grp_of_core h k
  pos := (congrArg Block.pos h : t.core.pos = b.core.pos)
  tim := Block.tim_of_core h
  now := Block.now_of_core h

section
variable {g : Grp} {b : Block} {inst : Inst} (kind : Nat) (pos : Pos48) (fallback : Bool)

theorem core_struck :
    (struck g kind pos inst fallback b).core = (countStrike (takeStrike g kind pos inst b)).core := by
  rw [struck, core_countFallback]
  exact core_countStrike (core_showStrike _ _ _ _ _)

theorem grp_struck_same : (struck g kind pos inst fallback b).grp g = (b.grp g).struck g kind pos inst :=
  (Block.grp_of_core (core_struck kind pos fallback) g).trans (Block.grp_setGrp_same _ _ _)

theorem grp_struck_other {k : Nat} (ne : k ≠ g) : (struck g kind pos inst fallback b).grp k = b.grp k :=
  (Block.grp_of_core (core_struck kind pos fallback) k).trans (Block.grp_setGrp_other _ _ _ _ ne)

theorem strikeKeeps_struck : StrikeKeeps g b (struck g kind pos inst fallback b) where
  next := by rw [grp_struck_same]; rfl
  preds := by rw [grp_struck_same]; rfl
  decided := by rw [grp_struck_same]; rfl
  other k ne := grp_struck_other kind pos fallback ne
  pos := (congrArg Block.pos (core_struck kind pos fallback) : (struck g kind pos inst fallback b).core.pos = _).trans rfl
  tim := (Block.tim_of_core (core_struck kind pos fallback)).trans rfl
  now := (Block.now_of_core (core_struck kind pos fallback)).trans rfl

theorem rd_struck {off : Nat} (stat : off ≠ Reg.STK_GRP_STAT g) (cnt : off ≠ Reg.STK_GRP_CNT_B g) :
    (struck g kind pos inst fallback b).rd off =
      (showStrike g (strikeStamp g kind (b.grp g).seq) pos inst (takeStrike g kind pos inst b)).rd off := by
  rw [struck, rd_countFallback_other stat cnt, rd_countStrike]

theorem recorded_struck : Recorded b (struck g kind pos inst fallback b) g kind pos inst ∧
    (struck g kind pos inst fallback b).strikes = b.strikes + 1 := by
  obtain ⟨stamp, place, time⟩ :=
    shown_showStrike g (strikeStamp g kind (b.grp g).seq) pos inst (takeStrike g kind pos inst b)
  refine ⟨⟨?_, ?_, ?_, ?_, ?_, ?_⟩, ?_⟩
  · rw [grp_struck_same]; rfl
  · rw [grp_struck_same]; rfl
  · rw [grp_struck_same]; rfl
  · rw [rd_struck _ _ _ (by grind) (by grind)]
    exact stamp
  · rw [Block.rdPos, rd_struck _ _ _ (by grind) (by grind), rd_struck _ _ _ (by grind) (by grind)]
    exact place
  · rw [Block.rd64, rd_struck _ _ _ (by grind) (by grind), rd_struck _ _ _ (by grind) (by grind)]
    exact time
  · exact (congrArg Block.strikes (core_struck kind pos fallback) : (struck g kind pos inst fallback b).core.strikes = _).trans rfl

theorem strikeKeeps_strike : StrikeKeeps g b (strike g kind pos inst fallback b) := by
  by_cases inTime : InTime b g inst
  · obtain ⟨q, n, e⟩ := strike_frame_of_inTime kind pos fallback inTime
    obtain ⟨next, preds, decided, other, place, tim, now⟩ :=
      strikeKeeps_struck (g := g) (b := b) (inst := inst) kind pos fallback
    rw [e]
    exact ⟨next, preds, decided, other, place, tim, now⟩
  · simp only [InTime, not_forall, Nat.not_le] at inTime
    obtain ⟨l, last, soon⟩ := inTime
    rw [strike_of_soon kind pos fallback last soon]
    exact .of_core (by rw [Block.core_inc, Block.core_setBit])

theorem recorded_strike (inTime : InTime b g inst) : Recorded b (strike g kind pos inst fallback b) g kind pos inst ∧
    (strike g kind pos inst fallback b).strikes = b.strikes + 1 := by
  obtain ⟨q, n, e⟩ := strike_frame_of_inTime kind pos fallback inTime
  rw [e]
  exact recorded_struck kind pos fallback

theorem withheld_strike {l : Nat} (last : (b.grp g).last = some l) (soon : inst.ref < l + b.minint g * tuNs) :
    Withheld b (strike g kind pos inst fallback b) g ∧ (strike g kind pos inst fallback b).strikes = b.strikes := by
  rw [strike_of_soon kind pos fallback last soon]
  have core : ((b.setBit (Reg.STK_GRP_STAT g) 0).inc (Reg.STK_GRP_CNT_A g) 31 16 1).core = b.core := by
    rw [Block.core_inc, Block.core_setBit]
  have same := Block.grp_of_core core g
  refine ⟨⟨⟨by rw [same], by rw [same], by rw [same]⟩, ?_, ?_⟩, (congrArg Block.strikes core : _ = b.core.strikes)⟩
  · rw [Block.bit, Block.rd_inc_other (by grind)]
    exact Block.bit_setBit_same _ _ (by decide)
  · rw [Block.fld_inc_same _ _ _ _ (by decide) (by decide), Block.fld, Block.rd_setBit_other (by grind)]
    rfl

end

/-! Strikes past step 3 of R60. -/

/-- The block without the strikes of group `g` that were past step 3, but for the listed ones. -/
def setDecided (g : Nat) (ds : List Decided) (b : Block) : Block := b.setGrp g { b.grp g with decided := ds }

theorem issueDecided_eq {g : Grp} {b : Block} {d : Decided} {ds : List Decided} (h : (b.grp g).decided = d :: ds) :
    issueDecided g d.idle b = strike g (if d.idle then 2 else 1) d.pos d.inst false (setDecided g ds b) := by
  rw [issueDecided, h]
  exact if_pos rfl

section
variable (g : Grp) (ds : List Decided) (b : Block)

theorem grp_setDecided : (setDecided g ds b).grp g = { b.grp g with decided := ds } := Block.grp_setGrp_same _ _ _

theorem inTime_setDecided (inst : Inst) : InTime (setDecided g ds b) g inst ↔ InTime b g inst := by
  rw [InTime, grp_setDecided]
  rfl

theorem recorded_setDecided (t : Block) (kind : Nat) (pos : Pos48) (inst : Inst) :
    Recorded (setDecided g ds b) t g kind pos inst ↔ Recorded b t g kind pos inst := by
  rw [Recorded, grp_setDecided]

theorem withheld_setDecided (t : Block) : Withheld (setDecided g ds b) t g ↔ Withheld b t g := by
  rw [Withheld, NoStrike, grp_setDecided]
  rfl

end

/-! A strike issued or withheld is seen in the block that the command ends with. -/

theorem Settles.recorded {a b t : Block} (k : Settles b t) {g : Grp} {kind : Nat} {pos : Pos48} {inst : Inst}
    (h : Recorded a b g kind pos inst) : Recorded a t g kind pos inst := by
  obtain ⟨seq, last, recs, stamp, place, time⟩ := h
  rw [Recorded, k.grp, k.rd _ (by grind), k.rd64 (by grind) (by grind), Block.rdPos, k.rd _ (by grind), k.rd _ (by grind)]
  exact ⟨seq, last, recs, stamp, place, time⟩

theorem Settles.withheld {a b t : Block} (k : Settles b t) {g : Grp} (h : Withheld a b g) : Withheld a t g := by
  obtain ⟨⟨seq, last, recs⟩, rate, count⟩ := h
  rw [Withheld, NoStrike, k.grp, k.bit (by grind), Block.fld, k.rd _ (by grind)]
  exact ⟨⟨seq, last, recs⟩, rate, count⟩

theorem Settles.strikes {b t : Block} (k : Settles b t) : t.strikes = b.strikes := (congrArg Block.strikes k.frame).trans rfl

theorem ends_issueDecided {s : State} {g : Grp} {d : Decided} {ds : List Decided} (on : s.blk.posOn = true)
    (h : (s.blk.grp g).decided = d :: ds) :
    Ends (if d.idle then .idleStrike g else .interpolatedStrike g) s fun b => (b.grp g).decided = ds ∧
      (b.grp g).next = (s.blk.grp g).next ∧ (b.grp g).preds = (s.blk.grp g).preds ∧
      (InTime s.blk g d.inst → Recorded s.blk b g (if d.idle then 2 else 1) d.pos d.inst ∧ b.strikes = s.blk.strikes + 1) ∧
      (∀ l, (s.blk.grp g).last = some l → d.inst.ref < l + s.blk.minint g * tuNs →
        Withheld s.blk b g ∧ b.strikes = s.blk.strikes) ∧
      (∀ k, k ≠ g.val → b.grp k = s.blk.grp k) ∧ b.pos = s.blk.pos ∧ b.tim = s.blk.tim := by
  have ran : exec (if d.idle then .idleStrike g else .interpolatedStrike g) s = carryOut (whenPos (issueDecided g d.idle)) s := by
    cases d.idle <;> rfl
  have acts : whenPos (issueDecided g d.idle) s.blk =
      strike g (if d.idle then 2 else 1) d.pos d.inst false (setDecided g ds s.blk) := (if_pos on).trans (issueDecided_eq h)
  have keeps := strikeKeeps_strike (g := g) (b := setDecided g ds s.blk) (inst := d.inst) (if d.idle then 2 else 1) d.pos false
  obtain ⟨next, preds, decided, other, pos, tim, now⟩ := keeps
  refine ends_of_carryOut_now ran (by rw [acts]; exact now) fun t k => ?_
  rw [acts] at k
  rw [grp_setDecided] at next preds decided
  rw [k.grp, k.strikes, k.pos, k.tim]
  refine ⟨decided, next, preds, fun inTime => ?_, fun l last soon => ?_, fun j ne => ?_, pos, tim⟩
  · obtain ⟨recorded, counted⟩ := recorded_strike (b := setDecided g ds s.blk) (if d.idle then 2 else 1) d.pos false
      ((inTime_setDecided g ds s.blk d.inst).mpr inTime)
    exact ⟨k.recorded ((recorded_setDecided g ds s.blk _ _ _ _).mp recorded), counted⟩
  · obtain ⟨withheld, uncounted⟩ := withheld_strike (b := setDecided g ds s.blk) (if d.idle then 2 else 1) d.pos false
      ((congrArg StkGrp.last (grp_setDecided g ds s.blk)).trans last) soon
    exact ⟨k.withheld ((withheld_setDecided g ds s.blk _).mp withheld), uncounted⟩
  · rw [k.grp, other j ne]
    exact Block.grp_setGrp_other _ _ _ _ ne

end Sys2Proof.Machine

namespace Sys2Proof.Machine

/-! ### What a command tells of besides its own emissions (R278, R374) -/

/-- An emission that may follow any command: an MSI-X message, a ball that follows its drive, idle sets. -/
def followsCommand : Out → Bool
  | .msix .. | .eo .. | .timeOut .. | .svcBalls .. | .idle .. => true
  | _ => false

/-- Block `t` tells of nothing that `b` does not, but for what may follow any command. -/
def OnlyFollows (b t : Block) : Prop := ∀ o ∈ t.out, o ∈ b.out ∨ followsCommand o = true

namespace OnlyFollows

variable {b c t : Block}

theorem refl (b : Block) : OnlyFollows b b := fun _ => .inl

theorem trans (h : OnlyFollows b c) (k : OnlyFollows c t) : OnlyFollows b t := fun o m => (k o m).elim (h o) .inr

theorem emit (h : OnlyFollows b t) {o : Out} (ho : followsCommand o = true) : OnlyFollows b (t.emit o) := fun p m => by
  rcases List.mem_cons.mp m with e | m
  · exact .inr (e ▸ ho)
  · exact h p m

theorem ite {p : Prop} [Decidable p] {x y : Block} (hx : OnlyFollows b x) (hy : OnlyFollows b y) :
    OnlyFollows b (if p then x else y) := by
  split
  · exact hx
  · exact hy

theorem sendMsix (v : Nat) (b : Block) : OnlyFollows b (sendMsix v b) :=
  .ite (.refl b) (.ite (.refl b) (.ite ((OnlyFollows.refl b).emit rfl) (.refl b)))

theorem signalVec (src imod : Nat) (b : Block) : OnlyFollows b (signalVec src imod b) := by
  refine .ite (.refl b) ?_
  dsimp only
  split
  · exact .refl b
  · exact .ite (sendMsix _ b) (sendMsix _ b)

theorem forEach {α : Type} {f : α → Block → Block} (xs : List α) (b : Block) (hf : ∀ x c, OnlyFollows c (f x c)) :
    OnlyFollows b (Machine.forEach xs f b) :=
  forEach_induct (OnlyFollows b) xs (.refl b) fun x _ c hc => hc.trans (hf x c)

theorem ballsSettle (old b : Block) : OnlyFollows b (ballsSettle old b) := by
  unfold Machine.ballsSettle
  dsimp only
  generalize hc : Machine.forEach (List.range 16) _ b = c
  have outputs : OnlyFollows b c := by
    rw [← hc]
    exact .forEach _ b fun _ c => .ite (.refl c) ((OnlyFollows.refl c).emit rfl)
  have timeOut (p : Bool) : OnlyFollows b (if p then c else c.emit (.timeOut c.toutBall c.ns)) :=
    .ite outputs (outputs.emit rfl)
  exact .ite (timeOut _) ((timeOut _).emit rfl)

theorem settle (old b : Block) : OnlyFollows b (settle old b) :=
  ((OnlyFollows.ite (.refl b) (signalVec _ _ b)).trans (ballsSettle old (requestSummary old b))).trans
    (.forEach _ _ fun _ c => .ite (.refl c) ((OnlyFollows.refl c).emit rfl))

end OnlyFollows

/-- What a command ends with: `f`'s block, settled, which tells of nothing more but what may follow any command. -/
theorem ends_of_carryOut_told {c : Instr} {f : Block → Block} {s : State} {P : Block → Prop}
    (hc : exec c s = carryOut f s) (hn : (f s.blk).now = s.blk.now)
    (hP : ∀ t, Settles (f s.blk) t → OnlyFollows (f s.blk) t → P t) : Ends c s P := by
  refine ⟨_, hc, rfl, rfl, ?_⟩
  have still : { settle s.blk (f s.blk) with now := s.blk.now } = settle s.blk (f s.blk) := by
    rw [← hn, ← (Settles.settle s.blk (f s.blk)).now]
  dsimp only
  rw [still]
  exact hP _ (.settle _ _) (.settle _ _)

/-! ### Strike symbols on the command lanes (R62, R71) -/

/-- From block `b` to `t`, further emissions, and no change of the strikes, the channels, the time unit, or the last strike
symbol of port `h`. -/
structure LaneKept (h : Nat) (b t : Block) : Prop where
  strikeAt : (t.port h).strikeAt = (b.port h).strikeAt
  sched : t.sched = b.sched
  pos : t.pos = b.pos
  tim : t.tim = b.tim
  stk : t.stk = b.stk
  now : t.now = b.now
  out : ∀ o ∈ b.out, o ∈ t.out

namespace LaneKept

variable {h : Nat} {b c t : Block}

theorem refl (h : Nat) (b : Block) : LaneKept h b b := ⟨rfl, rfl, rfl, rfl, rfl, rfl, fun _ m => m⟩

theorem trans (k : LaneKept h b c) (l : LaneKept h c t) : LaneKept h b t where
  strikeAt := l.strikeAt.trans k.strikeAt
  sched := l.sched.trans k.sched
  pos := l.pos.trans k.pos
  tim := l.tim.trans k.tim
  stk := l.stk.trans k.stk
  now := l.now.trans k.now
  out o m := l.out o (k.out o m)

theorem of_settles (k : Settles b t) (h : Nat) : LaneKept h b t where
  strikeAt := (congrArg (fun x : Block => (x.port h).strikeAt) k.frame).trans rfl
  sched := (congrArg Block.sched k.frame).trans rfl
  pos := k.pos
  tim := k.tim
  stk := k.stk
  now := k.now
  out := k.out

theorem setHd (h k : Nat) (b : Block) (x : HeadSt) : LaneKept h b (b.setHd k x) := ⟨rfl, rfl, rfl, rfl, rfl, rfl, fun _ m => m⟩

theorem setPort (b : Block) {p : HdPort} (hp : p.strikeAt = (b.port h).strikeAt) : LaneKept h b (b.setPort h p) :=
  ⟨by rw [Block.port_setPort_same, hp], rfl, rfl, rfl, rfl, rfl, fun _ m => m⟩

theorem ladderSent (h t : Nat) (b : Block) : LaneKept h b (ladderSent h t b) := by
  unfold Machine.ladderSent
  split
  · split
    · exact setHd h h b _
    · exact refl h b
  · exact refl h b

theorem mirrorShut (h : Nat) (b : Block) : LaneKept h b (mirrorShut h b) := by
  unfold Machine.mirrorShut
  dsimp only
  split
  · split
    · exact of_settles (.mirror _ b) h
    · exact refl h b
  · exact refl h b

theorem noteSent (h : Nat) (c : HdCmd) (t : Nat) (b : Block) : LaneKept h b (noteSent h c t b) := by
  unfold Machine.noteSent
  split
  · exact ladderSent h t b
  · dsimp only
    split
    · exact (setHd h h b _).trans (mirrorShut h _)
    · exact refl h b
  · exact refl h b

end LaneKept

/-- The commands of `os` that the lane carries at `t`, sent again in full after a strike symbol (R71). -/
def sendCut (h t : Nat) (os : List OutCmd) (b : Block) : List OutCmd × Block := os.foldl (fun acc o =>
  if o.onLane t then
    let (o, b) := transmit h o (t + charTime 4) acc.2
    (acc.1 ++ [o], b)
  else (acc.1 ++ [o], acc.2)) ([], b)

theorem emitted_sendCut (h t : Nat) (os : List OutCmd) (b : Block) : Emitted b (sendCut h t os b).2 := by
  refine List.foldlRecOn (motive := fun acc : List OutCmd × Block => Emitted b acc.2) os _ (.refl b) fun acc emitted o _ => ?_
  split
  · exact emitted.emit _
  · exact emitted

theorem cutCommands_eq (h t : Nat) (b : Block) : cutCommands h t b =
    (sendCut h t (b.port h).ghosts (sendCut h t (b.port h).outs b).2).2.setPort h { b.port h with
      outs := (sendCut h t (b.port h).outs b).1
      ghosts := (sendCut h t (b.port h).ghosts (sendCut h t (b.port h).outs b).2).1 } := rfl

theorem laneKept_cutCommands (h t : Nat) (b : Block) : LaneKept h b (cutCommands h t b) := by
  rw [cutCommands_eq]
  have sent : Emitted b _ := (emitted_sendCut h t (b.port h).outs b).trans (emitted_sendCut h t (b.port h).ghosts _)
  have kept := LaneKept.of_settles (.of_emitted sent) h
  exact kept.trans (.setPort _ kept.strikeAt.symm)

/-- The block as a strike symbol leaves the lane of port `h`, before commands are cut. -/
def symbolSent (h : Nat) (x : Sched) (xs : List Sched) (b : Block) : Block :=
  (({ b with sched := b.sched.set (fun _ => []) h xs } : Block).setPort h { b.port h with strikeAt := some x.at_ }).emit
    (.strike (Fin.ofNat 24 h) x.stamp (strikeChars x.stamp) x.at_)

section
variable {h : Hd} {b : Block} {x : Sched} {xs : List Sched} (scheduled : b.sched.get (fun _ => []) h = x :: xs)
  (due : x.at_ ≤ b.now)
include scheduled due

theorem emitStrike_dropped (dead : b.laneStrikes h = false) :
    emitStrike h b = { b with sched := b.sched.set (fun _ => []) h xs } := by
  rw [emitStrike, scheduled]
  dsimp only
  rw [if_neg (Nat.not_lt.mpr due)]
  exact if_pos (by
    rw [Bool.or_eq_true, Bool.not_eq_true']
    exact .inl dead)

theorem laneKept_emitStrike (carries : b.laneStrikes h = true) : LaneKept h (symbolSent h x xs b) (emitStrike h b) := by
  have live : ({ b with sched := b.sched.set (fun _ => []) h xs } : Block).laneStrikes h = true := carries
  have lane : ¬ (!({ b with sched := b.sched.set (fun _ => []) h xs } : Block).laneStrikes h ||
      decide (24 ≤ h.val)) = true := by
    simp [live]
  rw [emitStrike, scheduled]
  dsimp only
  rw [if_neg (Nat.not_lt.mpr due), if_neg lane]
  refine (laneKept_cutCommands h x.at_ (symbolSent h x xs b)).trans ?_
  refine forEach_induct (LaneKept h _) _ (.refl h _) fun o _ c kept => ?_
  split
  · exact kept.trans (.noteSent h _ _ c)
  · exact kept

end

theorem ends_strikeSymbolEmit {s : State} {h : Hd} {x : Sched} {xs : List Sched} (on : s.blk.posOn = true)
    (scheduled : s.blk.sched.get (fun _ => []) h = x :: xs) (due : x.at_ ≤ s.blk.now) :
    Ends (.strikeSymbolEmit h) s fun b => b.sched.get (fun _ => []) h = xs ∧
      (s.blk.laneStrikes h = true → .strike h x.stamp (strikeChars x.stamp) x.at_ ∈ b.out ∧
        (b.port h).strikeAt = some x.at_) ∧
      (s.blk.laneStrikes h = false → ∀ y cs t, .strike h y cs t ∈ b.out → .strike h y cs t ∈ s.blk.out) ∧
      b.pos = s.blk.pos ∧ b.tim = s.blk.tim ∧ b.stk = s.blk.stk := by
  have acts : whenPos (emitStrike h) s.blk = emitStrike h s.blk := if_pos on
  have taken : (s.blk.sched.set (fun _ => []) h xs).get (fun _ => []) h = xs := by simp
  cases lane : s.blk.laneStrikes h with
  | false =>
    rw [emitStrike_dropped scheduled due lane] at acts
    refine ends_of_carryOut_told (f := whenPos (emitStrike h)) rfl (by rw [acts]) fun t k follows => ?_
    rw [acts] at k follows
    have sched : t.sched = s.blk.sched.set (fun _ => []) h xs := (congrArg Block.sched k.frame).trans rfl
    refine ⟨sched ▸ taken, (fun live => absurd live Bool.false_ne_true), fun _ y cs u m => ?_, k.pos, k.tim, k.stk⟩
    exact (follows _ m).resolve_right Bool.false_ne_true
  | true =>
    have left := laneKept_emitStrike scheduled due lane
    refine ends_of_carryOut_now (f := whenPos (emitStrike h)) rfl (by rw [acts]; exact left.now) fun t k => ?_
    rw [acts] at k
    obtain ⟨strikeAt, sched, pos, tim, stk, -, out⟩ := left.trans (.of_settles k h)
    have symbol : .strike h x.stamp (strikeChars x.stamp) x.at_ ∈ (symbolSent h x xs s.blk).out := by
      rw [symbolSent, Fin.ofNat_val_eq_self]
      exact List.mem_cons_self
    refine ⟨sched ▸ taken, fun _ => ⟨out _ symbol, strikeAt.trans ?_⟩, (fun dead => absurd dead (by decide)), pos, tim, stk⟩
    exact congrArg HdPort.strikeAt (Block.port_setPort_same _ _ _)

/-- Settles O21: a decided strike is issued or withheld by its interval, and a symbol leaves or is dropped by its lane. -/
theorem strikesIssue : Obligations.StrikesIssue := by
  unfold Obligations.StrikesIssue
  intro s g h d ds on
  exact ⟨ends_issueDecided on, fun x xs scheduled due => ends_strikeSymbolEmit on scheduled due⟩

end Sys2Proof.Machine

namespace Sys2Proof.Machine

/-! ### What a settled command leaves of a head port -/

theorem Settles.ports {b t : Block} (k : Settles b t) : t.ports = b.ports := (congrArg Block.ports k.frame).trans rfl

theorem Settles.port {b t : Block} (k : Settles b t) (h : Nat) : t.port h = b.port h := by rw [Block.port, k.ports, Block.port]

/-- Block `t` settles one that differs from `a` only in its ports, its registers and its emissions. -/
theorem Settles.corePorts {a b t : Block} (k : Settles b t) {x : SMap HdPort} (hb : b.core = { a.core with ports := x }) :
    t.core = { a with ports := t.ports }.core := by
  obtain rfl : t.ports = x := k.ports.trans (congrArg Block.ports hb : b.core.ports = x)
  exact k.core.trans hb

theorem whenUnits_on {b : Block} (on : b.unitsOn = true) (f : Block → Block) : whenUnits f b = f b := if_pos on

theorem Block.num_wrN (b : Block) {off v : Nat} (hv : v < 2 ^ 32) : (b.wrN off v).num off = v := by
  rw [Block.num, Block.rd_wrN, if_pos rfl, BitVec.toNat_ofNat, Nat.mod_eq_of_lt hv]

theorem satU_lt (w : Nat) (x : Int) : satU w x < 2 ^ w := by
  have top : (0 : Int) < 2 ^ w := by positivity
  simp only [satU, clampI]
  zify
  omega

/-! ### HD_LINK_CMD (R85) -/

theorem regRow_hdLinkCmd (h : Hd) : regRow (Reg.HD_LINK_CMD h) = some ⟨8, 1, 0, 0, 0, 0, 0, []⟩ := by
  fin_cases h <;> rfl

theorem registerWord_hdLinkCmd (h : Hd) : registerWord (Reg.HD_LINK_CMD h) := by
  revert h
  decide

theorem writeUnit_hdLinkCmd (r : Requester) (h : Hd) (val : Word) (b : Block) :
    writeUnit r (Reg.HD_LINK_CMD h) val b = linkCmd h val b := by
  fin_cases h <;> rfl

/-- What a pulse of HD_LINK_CMD ends with. -/
theorem ends_linkCmd {c : Instr} {s : State} {h : Hd} {val : Word} {P : Block → Prop} (hw : Writes .host s)
    (hc : exec c s = carryOut (writeBy .host (Reg.HD_LINK_CMD h) val) s)
    (hn : ∀ o l, (linkCmd h val (s.blk.sending o l)).now = s.blk.now)
    (hP : ∀ o l t, Settles (linkCmd h val (s.blk.sending o l)) t → P t) : Ends c s P := by
  refine ends_of_unitWrite hw hc (registerWord_hdLinkCmd h) (yields_of_command (regRow_hdLinkCmd h) rfl _ _ _) ?_ ?_
  · intro o l
    rw [writeUnit_hdLinkCmd]
    exact hn o l
  · intro o l t k
    rw [writeUnit_hdLinkCmd] at k
    exact hP o l t k

theorem linkCmd_retrain (h : Nat) (b : Block) : linkCmd h 1 b = retrainLink h b := rfl

theorem linkCmd_reload (h : Nat) (b : Block) : linkCmd h 2 b = reload h b := rfl

theorem linkCmd_measure (h : Nat) (b : Block) : linkCmd h 4 b = measureStart h b := rfl

theorem linkCmd_go (h : Nat) (b : Block) : linkCmd h 8 b = mailboxGo h b := rfl

/-! ### The lane delay (R80) -/

/-- The block with a measurement of port `h` asked for, and none begun. -/
def measureAsked (h : Nat) (b : Block) : Block := b.setPort h { b.port h with echoWaits := true, measure := none }

/-- The block as K28.3 leaves the lane of port `h`. -/
def measureSent (h : Nat) (b : Block) : Block :=
  (b.setPort h { b.port h with measure := some b.now, echoAt := some b.now, echoWaits := false }).emit (.echo h (.k 28 3) b.now)

theorem laneFree_measureAsked (h : Nat) (b : Block) : (measureAsked h b).laneFree h = b.laneFree h := by
  have port : (measureAsked h b).port h = _ := Block.port_setPort_same _ _ _
  unfold Block.laneFree Block.laneFrom
  rw [port]
  rfl

theorem core_measureSent (h : Nat) (b : Block) : (measureSent h b).core = { b.core with ports := (measureSent h b).ports } := rfl

theorem rd_measureAsked (h : Nat) (b : Block) (off : Nat) : (measureAsked h b).rd off = b.rd off := rfl

theorem rd_measureSent (h : Nat) (b : Block) (off : Nat) : (measureSent h b).rd off = b.rd off := rfl

theorem laneOn_measureAsked (h : Nat) (b : Block) : (measureAsked h b).laneOn h = b.laneOn h := rfl

theorem measureStart_eq {h : Nat} {b : Block} (on : b.laneOn h = true) :
    measureStart h b = if b.laneFree h then measureSent h (measureAsked h b) else measureAsked h b := by
  have waits : ((measureAsked h b).port h).echoWaits = true := by simp [measureAsked]
  rw [measureStart, if_pos on]
  change echoSend h (measureAsked h b) = _
  rw [echoSend, waits, laneOn_measureAsked, laneFree_measureAsked, on]
  rfl

theorem ends_measure {s : State} {h : Hd} (hw : Writes .host s) (on : s.blk.laneOn h = true) :
    Ends (.measure h) s fun b =>
      (if s.blk.laneFree h then (b.port h).measure = some s.blk.now ∧ .echo h (.k 28 3) s.blk.now ∈ b.out
       else (b.port h).measure = none ∧ (b.port h).echoWaits = true) ∧
      b.core = { s.blk with ports := b.ports }.core ∧ SameRegs s.blk b [] := by
  have started (o : List Out) (l : Trail) := measureStart_eq (show (s.blk.sending o l).laneOn h = true from on)
  by_cases free : s.blk.laneFree h = true
  · have sent (o : List Out) (l : Trail) :
        linkCmd h 4 (s.blk.sending o l) = measureSent h (measureAsked h (s.blk.sending o l)) := (started o l).trans (if_pos free)
    refine ends_linkCmd hw rfl (fun o l => by rw [sent]; rfl) fun o l t k => ?_
    rw [sent] at k
    rw [if_pos free]
    refine ⟨⟨?_, k.out _ List.mem_cons_self⟩, k.corePorts (core_measureSent _ _), k.sameRegs fun off _ => ?_⟩
    · rw [k.port]
      exact congrArg HdPort.measure (Block.port_setPort_same _ _ _)
    · rw [rd_measureSent, rd_measureAsked, Block.sending_rd]
  · have waits (o : List Out) (l : Trail) :
        linkCmd h 4 (s.blk.sending o l) = measureAsked h (s.blk.sending o l) := (started o l).trans (if_neg free)
    refine ends_linkCmd hw rfl (fun o l => by rw [waits]; rfl) fun o l t k => ?_
    rw [waits] at k
    rw [if_neg free]
    refine ⟨?_, k.corePorts rfl, k.sameRegs fun off _ => rfl⟩
    rw [k.port, measureAsked, Block.port_setPort_same]
    exact ⟨rfl, rfl⟩

/-- The block with no measurement of port `h` running. -/
def measureOver (h : Nat) (b : Block) : Block := b.setPort h { b.port h with measure := none }

/-- HD_RTT of a measurement without an answer in time. -/
def rttLost (h : Nat) (b : Block) : Block := (measureOver h b).wrN (Reg.HD_RTT h) 0xFFFF

section
variable {h sub t : Nat} {b : Block} (up : b.linkUp h = true) (running : (b.port h).measure = some t)
include up running

theorem measureEnd_late (late : 0xFFFF ≤ b.now + sub - t) : measureEnd h sub b = rttLost h b := by
  rw [measureEnd, running]
  simp only [up, Bool.not_true]
  exact if_pos late

theorem measureEnd_known {c : CharHdr} (soon : b.now + sub - t < 0xFFFF) (hdr : (b.port h).hdr = some c) :
    measureEnd h sub b = ((measureOver h b).wrN (Reg.HD_RTT h) (b.now + sub - t)).wrN (Reg.HD_LDELAY h)
      (satU 16 (roundDiv (((b.now + sub - t : Nat) : Int) - c.turn - 96) 2)) := by
  have kept : (((measureOver h b).wrN (Reg.HD_RTT h) (b.now + sub - t)).port h).hdr = some c := by
    exact (congrArg HdPort.hdr (Block.port_setPort_same _ _ _)).trans hdr
  rw [measureEnd, running]
  simp only [up, Bool.not_true, Bool.false_eq_true, if_false]
  refine (if_neg (Nat.not_le.mpr soon)).trans ?_
  change (match (((measureOver h b).wrN (Reg.HD_RTT h) (b.now + sub - t)).port h).hdr with
    | some c => _
    | none => _) = _
  rw [kept]
  rfl

/-- Without a loaded header HD_LDELAY takes a free value. -/
theorem measureEnd_unknown (soon : b.now + sub - t < 0xFFFF) (hdr : (b.port h).hdr = none) :
    ∃ v n, measureEnd h sub b =
      { (measureOver h b).wrN (Reg.HD_RTT h) (b.now + sub - t) with free := n }.wrN (Reg.HD_LDELAY h) v := by
  have kept : (((measureOver h b).wrN (Reg.HD_RTT h) (b.now + sub - t)).port h).hdr = none := by
    exact (congrArg HdPort.hdr (Block.port_setPort_same _ _ _)).trans hdr
  refine ⟨(Config.freeValue b.free).toNat % 65536, b.free + 1, ?_⟩
  rw [measureEnd, running]
  simp only [up, Bool.not_true, Bool.false_eq_true, if_false]
  refine (if_neg (Nat.not_le.mpr soon)).trans ?_
  change (match (((measureOver h b).wrN (Reg.HD_RTT h) (b.now + sub - t)).port h).hdr with
    | some c => _
    | none => _) = _
  rw [kept]
  rfl

end

theorem measureTimeout_eq {h t : Nat} {b : Block} (running : (b.port h).measure = some t) (past : t + 10 * tuUs ≤ b.now) :
    measureTimeout h b = rttLost h b := by
  rw [measureTimeout, running]
  exact if_pos past

/-- What is settled of a block whose measurement has ended. -/
theorem measure_of_settles {h : Nat} {b c t : Block} (k : Settles c t) (ended : c.port h = (measureOver h b).port h) :
    (t.port h).measure = none := by
  rw [k.port, ended, measureOver, Block.port_setPort_same]

theorem rttLost_settles {h : Hd} {b t : Block} (k : Settles (rttLost h b) t) : t.rd (Reg.HD_RTT h) = 0xFFFF ∧
    (t.port h).measure = none ∧ t.core = { b with ports := t.ports }.core ∧ SameRegs b t [Reg.HD_RTT h] := by
  refine ⟨?_, measure_of_settles k rfl, k.corePorts rfl, k.sameRegs fun off other => ?_⟩
  · rw [k.rd _ (by grind), rttLost, Block.rd_wrN, if_pos rfl]
    rfl
  · rw [rttLost, Block.rd_wrN_other (by simpa using other)]
    rfl

section
variable {s : State} {h : Hd} {sub : Sub} {t : Nat} (on : s.blk.unitsOn = true)
  (running : (s.blk.port h).measure = some t)
include on running

theorem ends_echoTimeout (past : t + 10 * tuUs ≤ s.blk.now) : Ends (.echoTimeout h) s fun b =>
    b.rd (Reg.HD_RTT h) = 0xFFFF ∧ (b.port h).measure = none ∧ b.core = { s.blk with ports := b.ports }.core ∧
      SameRegs s.blk b [Reg.HD_RTT h] := by
  have acts : whenUnits (measureTimeout h) s.blk = rttLost h s.blk := (whenUnits_on on _).trans (measureTimeout_eq running past)
  refine ends_of_carryOut_now (f := whenUnits (measureTimeout h)) rfl (by rw [acts]; rfl) fun b k => ?_
  rw [acts] at k
  exact rttLost_settles k

variable (up : s.blk.linkUp h = true)
include up

theorem ends_echoAnswer_late (late : 0xFFFF ≤ s.blk.now + sub - t) : Ends (.echoAnswer h sub) s fun b =>
    b.rd (Reg.HD_RTT h) = 0xFFFF ∧ (b.port h).measure = none ∧ b.core = { s.blk with ports := b.ports }.core ∧
      SameRegs s.blk b [Reg.HD_RTT h] := by
  have acts : whenUnits (measureEnd h sub) s.blk = rttLost h s.blk := (whenUnits_on on _).trans (measureEnd_late up running late)
  refine ends_of_carryOut_now (f := whenUnits (measureEnd h sub)) rfl (by rw [acts]; rfl) fun b k => ?_
  rw [acts] at k
  exact rttLost_settles k

theorem ends_echoAnswer_known {c : CharHdr} (soon : s.blk.now + sub - t < 0xFFFF) (hdr : (s.blk.port h).hdr = some c) :
    Ends (.echoAnswer h sub) s fun b => b.num (Reg.HD_RTT h) = s.blk.now + sub - t ∧
      b.num (Reg.HD_LDELAY h) = satU 16 (roundDiv (((s.blk.now + sub - t : Nat) : Int) - c.turn - 96) 2) ∧
      (b.port h).measure = none ∧ b.core = { s.blk with ports := b.ports }.core ∧
      SameRegs s.blk b [Reg.HD_RTT h, Reg.HD_LDELAY h] := by
  have acts := (whenUnits_on on (measureEnd h sub)).trans (measureEnd_known up running soon hdr)
  refine ends_of_carryOut_now (f := whenUnits (measureEnd h sub)) rfl (by rw [acts]; rfl) fun b k => ?_
  rw [acts] at k
  refine ⟨?_, ?_, measure_of_settles k rfl, k.corePorts rfl, k.sameRegs fun off other => ?_⟩
  · rw [Block.num, k.rd _ (by grind), Block.rd_wrN_other (by grind)]
    exact Block.num_wrN _ (by omega)
  · rw [Block.num, k.rd _ (by grind)]
    refine Block.num_wrN _ ?_
    exact (satU_lt 16 _).trans (by decide)
  · simp only [List.mem_cons, List.not_mem_nil, or_false, not_or] at other
    rw [Block.rd_wrN_other other.2, Block.rd_wrN_other other.1]
    rfl

theorem ends_echoAnswer_unknown (soon : s.blk.now + sub - t < 0xFFFF) (hdr : (s.blk.port h).hdr = none) :
    Ends (.echoAnswer h sub) s fun b => b.num (Reg.HD_RTT h) = s.blk.now + sub - t ∧ (b.port h).measure = none ∧
      SameRegs s.blk b [Reg.HD_RTT h, Reg.HD_LDELAY h] := by
  obtain ⟨v, n, e⟩ := measureEnd_unknown up running soon hdr
  have acts := (whenUnits_on on (measureEnd h sub)).trans e
  refine ends_of_carryOut_now (f := whenUnits (measureEnd h sub)) rfl (by rw [acts]; rfl) fun b k => ?_
  rw [acts] at k
  refine ⟨?_, measure_of_settles k rfl, k.sameRegs fun off other => ?_⟩
  · rw [Block.num, k.rd _ (by grind), Block.rd_wrN_other (by grind)]
    exact Block.num_wrN _ (by omega)
  · simp only [List.mem_cons, List.not_mem_nil, or_false, not_or] at other
    rw [Block.rd_wrN_other other.2]
    exact Block.rd_wrN_other other.1 _

end

/-- Settles O26: a pulse of MEASURE sends or waits, and each end of a measurement writes HD_RTT, with HD_LDELAY where the
answer came in time. -/
theorem laneDelay : Obligations.LaneDelay := by
  unfold Obligations.LaneDelay
  intro s h sub
  exact ⟨ends_measure, fun t c on up running hdr soon => ends_echoAnswer_known on running up soon hdr,
    fun t on up running => ⟨ends_echoAnswer_unknown on running up, ends_echoAnswer_late on running up⟩,
    fun t on running past => ends_echoTimeout on running past⟩

end Sys2Proof.Machine

namespace Sys2Proof.Machine

/-! ### Two open frames at one head (R82, R83) -/

/-- Head 0 is bound and READY on a link that is up, and declares two rows of no columns. -/
def boundHead : Block where
  regs := [(Reg.HD_LINK_CTL 0, 1), (Reg.HD_LINK_STAT 0, 0x18), (Reg.HD_GEOM 0, 0x20000), (Reg.HD_FMT 0, 0),
    (Reg.HD_BIND 0, 0x80000000)]
  stage_ := 5

/-- The open frame of head 0. -/
def firstOpen : Frame := boundHead.freshFrame 0 1

/-- A second open frame of head 0, with the number that the head's next frame takes; a PRESET has cut it short. -/
def secondOpen : Frame := { boundHead.freshFrame 0 2 with id := 1, rx := 1, cut := true }

def twoOpenBlock : Block := { boundHead with heads := [(0, { frames := [firstOpen, secondOpen], nextId := 1 })] }

def twoOpenState : State := ⟨twoOpenBlock, [], twoOpenBlock⟩

/-- A start block and a data block on each lane: line 0 of FRAME 3, without pixels, and its CRC. -/
def lineOfThird : Upstream where
  lane0 := [⟨2, 0x78⟩, ⟨1, 0x300000001⟩]
  lane1 := [⟨2, 0x78⟩, ⟨1, 0⟩]
  lane2 := [⟨2, 0x78⟩, ⟨1, 0xE3EEEB44⟩]
  lane3 := [⟨2, 0x78⟩, ⟨1, 0⟩]
  sub := 0

/-- The packet that `lineOfThird` carries. -/
def thirdLine : LinePacket where
  head := 0
  depth := 0
  pack := false
  band := false
  frame := 3
  line := 0
  cols := 0
  stamp := 0
  pixels := []
  crcOk := true
  sub := 0
  periods := 1

/-- FRAME 3 is open once its line has come. -/
def thirdOpens (s : State) : Bool :=
  match exec (.linePacket 0 lineOfThird) s with
  | .next t => (t.blk.hd 0).frames.any fun g => g.st == .open_ && g.num == thirdLine.frame
  | _ => true

/-- The line is placed in the second open frame, which then takes the place of the new one, whose number in the order of frames
is the same. -/
theorem thirdOpens_twoOpen : thirdOpens twoOpenState = false := by decide +kernel

/-- The line packet is tested as one of another FRAME than the open one. -/
theorem thirdLine_arrives : twoOpenState.blk.unitsOn = true ∧ twoOpenState.blk.receives 0 = true ∧
    (arrival 0 lineOfThird twoOpenState.blk).linkUp 0 = true ∧ lineOfThird.starts = true ∧
    lineOfThird.line ((arrival 0 lineOfThird twoOpenState.blk).lineFmt 0) = some thirdLine ∧
    (arrival 0 lineOfThird twoOpenState.blk).bound 0 = true ∧ (arrival 0 lineOfThird twoOpenState.blk).ready 0 = true ∧
    ((arrival 0 lineOfThird twoOpenState.blk).hd 0).openFrame = some firstOpen ∧
    thirdLine.fits ((arrival 0 lineOfThird twoOpenState.blk).lineFmt 0) = true ∧
    thirdLine.line.toNat < (arrival 0 lineOfThird twoOpenState.blk).rowsOf 0 ∧
    (arrival 0 lineOfThird twoOpenState.blk).bit (Reg.HD_BIND 0) 30 = false ∧
    firstOpen.id < ((arrival 0 lineOfThird twoOpenState.blk).hd 0).nextId := by
  and_intros <;> decide +kernel

/-- Refutes O27: its last clause has a frame of the line's FRAME open after a line of another FRAME, in every block. Where two
frames of the head stand open, the line goes to the second of them, and that takes the place of the frame just opened. The
model opens a frame only where none is open; the clause lacks the hypothesis that one frame of the head is. -/
theorem not_linePacketTests : ¬ Obligations.LinePacketTests := by
  intro h
  obtain ⟨on, receives, up, starts, packet, bound, ready, opened, fits, inside, stays, old⟩ := thirdLine_arrives
  obtain ⟨_, _, tests⟩ := h twoOpenState 0 lineOfThird thirdLine on
  obtain ⟨_, _, placed⟩ := tests receives up starts packet
  obtain ⟨_, good⟩ := placed firstOpen rfl bound ready opened
  obtain ⟨_, _, _, another⟩ := good rfl fits
  obtain ⟨t, ran, _, _, _, _, g, member, isOpen, number⟩ := another (by decide) inside stays old
  have opens : thirdOpens twoOpenState = true := by
    change exec (.linePacket 0 lineOfThird) twoOpenState = .next t at ran
    rw [thirdOpens, ran]
    exact List.any_eq_true.mpr ⟨g, member, by rw [isOpen, number]; rfl⟩
  exact absurd (thirdOpens_twoOpen.symm.trans opens) Bool.false_ne_true

end Sys2Proof.Machine

namespace Sys2Proof.Machine

/-! ### What the link's bookkeeping leaves alone (R73, R207) -/

/-- The frames of a head by their order, and which of them are open. -/
def Block.openFrames (b : Block) (h : Nat) : List (Nat × Bool) := (b.hd h).frames.map fun f => (f.id, f.st == .open_)

/-- The clock, the time unit, the position channels, the strike groups, and which frames are open. -/
def Block.steady (b : Block) : Nat × Tim × SMap PosCh × SMap StkGrp × (Nat → List (Nat × Bool)) :=
  (b.now, b.tim, b.pos, b.stk, b.openFrames)

/-- The steady part, the head ports, and the registers of the head ports. -/
def Block.linkView (b : Block) :
    (Nat × Tim × SMap PosCh × SMap StkGrp × (Nat → List (Nat × Bool))) × SMap HdPort × (Fin 0x18000 → Word) :=
  (b.steady, b.ports, fun k => b.rd (0x100000 + k))

/-- An offset outside the head ports' registers (R85). -/
abbrev notHead (off : Nat) : Prop := off < 0x100000 ∨ 0x118000 ≤ off

section
variable {a b : Block}

theorem Block.steady_of {a b : Block} (hn : b.now = a.now) (ht : b.tim = a.tim) (hp : b.pos = a.pos) (hs : b.stk = a.stk)
    (hf : b.heads = a.heads) : b.steady = a.steady := by
  unfold Block.steady Block.openFrames Block.hd
  rw [hn, ht, hp, hs, hf]

theorem Block.steady_of_core (h : b.core = a.core) : b.steady = a.steady := (congrArg Block.steady h : b.core.steady = a.core.steady)

theorem Block.ports_of_core (h : b.core = a.core) : b.ports = a.ports := (congrArg Block.ports h : b.core.ports = a.core.ports)

theorem Block.port_of_core (h : b.core = a.core) (k : Nat) : b.port k = a.port k := by
  rw [Block.port, Block.ports_of_core h, Block.port]

theorem now_of_steady (h : b.steady = a.steady) : b.now = a.now := congrArg Prod.fst h

theorem steady_of_linkView (h : b.linkView = a.linkView) : b.steady = a.steady := congrArg Prod.fst h

theorem now_of_linkView (h : b.linkView = a.linkView) : b.now = a.now := now_of_steady (steady_of_linkView h)

theorem ports_of_linkView (h : b.linkView = a.linkView) : b.ports = a.ports := congrArg (fun v => v.2.1) h

theorem port_of_linkView (h : b.linkView = a.linkView) (k : Nat) : b.port k = a.port k := by
  rw [Block.port, ports_of_linkView h, Block.port]

theorem rd_of_linkView (h : b.linkView = a.linkView) {off : Nat} (lo : 0x100000 ≤ off) (hi : off < 0x118000) :
    b.rd off = a.rd off := by
  have e := congrFun (congrArg (fun v => Prod.snd (Prod.snd v)) h) ⟨off - 0x100000, by omega⟩
  simpa [Block.linkView, Nat.add_sub_cancel' lo] using e

theorem linkView_of (hs : b.steady = a.steady) (hp : b.ports = a.ports) (hr : ∀ off, ¬ notHead off → b.rd off = a.rd off) :
    b.linkView = a.linkView :=
  Prod.ext hs (Prod.ext hp (funext fun k => hr _ (by have := k.isLt; omega)))

/-- An update of registers elsewhere. -/
theorem linkView_of_core (hc : b.core = a.core) (hr : ∀ off, ¬ notHead off → b.rd off = a.rd off) : b.linkView = a.linkView :=
  linkView_of (Block.steady_of_core hc) (Block.ports_of_core hc) hr

theorem linkView_ite {c : Prop} [Decidable c] {x y : Block} (hx : x.linkView = a.linkView) (hy : y.linkView = a.linkView) :
    (if c then x else y).linkView = a.linkView := by
  split
  · exact hx
  · exact hy

theorem Reported.linkView {offs : List Nat} (h : Reported offs a b) (ho : ∀ off ∈ offs, notHead off) :
    b.linkView = a.linkView := by
  obtain ⟨frame, rd⟩ := h
  refine linkView_of ?_ ((congrArg Block.ports frame).trans rfl) fun off inside => rd off fun m => inside (ho off m)
  exact (congrArg Block.steady frame).trans rfl

end

section
variable (b : Block)

@[simp] theorem linkView_inc {off : Nat} (h : notHead off) (hi lo n : Nat) : (b.inc off hi lo n).linkView = b.linkView :=
  linkView_of_core (Block.core_inc _ _ _ _ _) fun o ho => Block.rd_inc_other (by rintro rfl; exact ho h) _ _ _

@[simp] theorem linkView_setBit {off : Nat} (h : notHead off) (i : Nat) : (b.setBit off i).linkView = b.linkView :=
  linkView_of_core (Block.core_setBit _ _ _) fun o ho => Block.rd_setBit_other (by rintro rfl; exact ho h) _

@[simp] theorem linkView_setAct (i : Nat) (e : ActEntry) : (b.setAct i e).linkView = b.linkView := rfl

@[simp] theorem linkView_hbmPut (a : Nat) (bytes : List Byte) : (hbmPut a bytes b).linkView = b.linkView := rfl

@[simp] theorem linkView_syncDescriptor (h : Nat) : (syncDescriptor h b).linkView = b.linkView := rfl

@[simp] theorem linkView_raiseBit (i : Nat) : (raiseBit i b).linkView = b.linkView :=
  (reported_raiseFlt _ b).linkView (by decide)

/-- A change of a head that leaves its frames alone. -/
theorem linkView_setHd {h : Nat} {x : HeadSt} (hx : x.frames = (b.hd h).frames) : (b.setHd h x).linkView = b.linkView := by
  have same : (b.setHd h x).openFrames = b.openFrames := by
    funext k
    unfold Block.openFrames
    rw [hd_setHd]
    split
    · next e => rw [hx, e]
    · rfl
  refine linkView_of ?_ rfl fun _ _ => rfl
  rw [Block.steady, same]
  rfl

/-! An action that has entered a port's queue. -/

@[simp] theorem linkView_pushRecord {r : Nat} (hr : r < 8) (bytes : List Byte) : (pushRecord r bytes b).linkView = b.linkView := by
  have dropped : ((b.inc (Reg.HOST_RING_CNT r) 31 0 1).setBit (Reg.HOST_RING_STAT r) 2).linkView = b.linkView := by
    simp (disch := grind)
  exact linkView_ite rfl dropped

@[simp] theorem linkView_issueAct (i : Nat) (e : ActEntry) (outcome : Nat) (late : Int) (when_ : Nat) :
    (issueAct i e outcome late when_ b).linkView = b.linkView := linkView_pushRecord b (by split <;> decide) _

@[simp] theorem linkView_noteFate (e : ActEntry) (t : Nat) : (noteFate e t b).linkView = b.linkView := by
  unfold noteFate
  split <;> rfl

@[simp] theorem linkView_freeAct (i jst : Nat) (late : Bool) : (freeAct i jst late b).linkView = b.linkView := rfl

@[simp] theorem linkView_finishAct (i : Nat) (late : Option Int) (when_ : Nat) : (finishAct i late when_ b).linkView = b.linkView := by
  unfold finishAct
  dsimp only
  split
  · simp (disch := decide)
  · exact linkView_ite (by simp) (by simp)

@[simp] theorem linkView_noteShutter (e : ActEntry) : (noteShutter e b).linkView = b.linkView :=
  linkView_ite (linkView_setHd b rfl) rfl

@[simp] theorem linkView_actEntered (i : Nat) : (actEntered i b).linkView = b.linkView :=
  linkView_ite (by simp) rfl

@[simp] theorem linkView_noteEntry (h : Nat) : (noteEntry h b).linkView = b.linkView := by
  refine forEach_induct (fun c : Block => c.linkView = b.linkView) _ rfl fun o _ c hc => ?_
  split
  · exact linkView_ite ((linkView_actEntered c _).trans hc) hc
  · exact hc

end

end Sys2Proof.Machine

namespace Sys2Proof.Machine

/-! ### How a characterisation load fails (R78) -/

/-- The block with the commands of a load of port `h` dropped, but for what then enters the queue. -/
def loadDropped (h : Nat) (b : Block) : Block :=
  let mine (c : HdCmd) : Bool := match c.org with
    | .header => true
    | .section_ _ _ => true
    | .relink => true
    | _ => false
  b.setPort h { (b.port h).drop b.now (fun o => mine o.cmd) with queue := (b.port h).queue.filter fun c => !mine c }

theorem linkView_dropLoad (h : Nat) (b : Block) : (dropLoad h b).linkView = (loadDropped h b).linkView :=
  linkView_noteEntry (loadDropped h b) h

theorem now_dropLoad (h : Nat) (b : Block) : (dropLoad h b).now = b.now :=
  (now_of_linkView (linkView_dropLoad h b)).trans rfl

theorem load_dropLoad (h : Nat) (b : Block) : ((dropLoad h b).port h).load = (b.port h).load := by
  rw [port_of_linkView (linkView_dropLoad h b), loadDropped, Block.port_setPort_same]
  rfl

theorem rd_dropLoad {h off : Nat} (lo : 0x100000 ≤ off) (hi : off < 0x118000) (b : Block) : (dropLoad h b).rd off = b.rd off :=
  rd_of_linkView (linkView_dropLoad h b) lo hi

/-- Port `h` shows a load that has failed with a cause, and no load is in progress. -/
structure LoadFailed (h cause : Nat) (b : Block) : Prop where
  load : (b.port h).load = none
  ready : b.bit (Reg.HD_LINK_STAT h) 4 = false
  failed : b.bit (Reg.HD_LINK_STAT h) 6 = true
  cause : b.fld (Reg.HD_LINK_STAT h) 19 16 = cause
  digA : b.bit (Reg.HD_BANK h) 5 = false
  digB : b.bit (Reg.HD_BANK h) 6 = false

theorem LoadFailed.of_linkView {h cause : Nat} (hh : h < 24) {b t : Block} (f : LoadFailed h cause b)
    (e : t.linkView = b.linkView) : LoadFailed h cause t := by
  obtain ⟨load, ready, failed, cause, digA, digB⟩ := f
  have stat : t.rd (Reg.HD_LINK_STAT h) = b.rd (Reg.HD_LINK_STAT h) := rd_of_linkView e (by grind) (by grind)
  have bank : t.rd (Reg.HD_BANK h) = b.rd (Reg.HD_BANK h) := rd_of_linkView e (by grind) (by grind)
  constructor
  · rwa [port_of_linkView e]
  · rwa [Block.bit, stat]
  · rwa [Block.bit, stat]
  · rwa [Block.fld, stat]
  · rwa [Block.bit, bank]
  · rwa [Block.bit, bank]

theorem Settles.linkView {b t : Block} (k : Settles b t) : t.linkView = b.linkView :=
  linkView_of_core k.core fun off _ => k.rd off (by grind)

/-- The block of a load that fails with no digest valid, before the load is dropped. -/
def undigested (h : Nat) (b : Block) : Block :=
  syncDescriptor h (((b.setPort h { b.port h with loaded := false }).clrBit (Reg.HD_BANK h) 5).clrBit (Reg.HD_BANK h) 6)

/-- The block of a failed load without its commands, before READY and CAUSE are set. -/
def withoutLoad (h : Nat) (b : Block) : Block :=
  dropLoad h ((undigested h b).setPort h { (undigested h b).port h with load := none, relink := false })

/-- The link status of port `h` once a load has failed with a cause. -/
def loadCause (h cause : Nat) (b : Block) : Block :=
  ((b.clrBit (Reg.HD_LINK_STAT h) 4).setFld (Reg.HD_LINK_STAT h) 19 16 cause).setBit (Reg.HD_LINK_STAT h) 6

theorem core_loadCause (h cause : Nat) (b : Block) : (loadCause h cause b).core = b.core := by
  rw [loadCause, Block.core_setBit, Block.core_setFld, Block.clrBit, Block.core_setFld]

theorem rd_loadCause (h cause : Nat) (b : Block) (off : Nat) : (loadCause h cause b).rd off =
    if off = Reg.HD_LINK_STAT h then setFieldOf (setFieldOf (setFieldOf (b.rd off) 4 4 0) 19 16 cause) 6 6 1 else b.rd off := by
  simp only [loadCause, Block.rd_setBit, Block.rd_setFld, Block.rd_clrBit, if_true]
  split
  · next e => rw [e]
  · rfl

theorem failLoad_eq {h : Nat} {b : Block} (running : (b.port h).load.isSome = true) (cause : Nat) : failLoad h cause b =
    raiseBit 5 (loadCause h cause (withoutLoad h b)) := by
  unfold failLoad
  simp only [running, if_true]
  rfl

theorem now_withoutLoad (h : Nat) (b : Block) : (withoutLoad h b).now = b.now := now_dropLoad h _

theorem load_withoutLoad (h : Nat) (b : Block) : ((withoutLoad h b).port h).load = none := by
  rw [withoutLoad, load_dropLoad, Block.port_setPort_same]

theorem bank_withoutLoad {h : Nat} (hh : h < 24) (b : Block) : (withoutLoad h b).rd (Reg.HD_BANK h) =
    setFieldOf (setFieldOf (b.rd (Reg.HD_BANK h)) 5 5 0) 6 6 0 := by
  rw [withoutLoad, rd_dropLoad (by grind) (by grind), Block.setPort_rd, undigested, rd_syncDescriptor, Block.rd_clrBit,
    if_pos rfl, Block.rd_clrBit, if_pos rfl, Block.setPort_rd]

theorem now_failLoad {h : Nat} {b : Block} (running : (b.port h).load.isSome = true) (cause : Nat) :
    (failLoad h cause b).now = b.now := by
  rw [failLoad_eq running, now_of_linkView (linkView_raiseBit _ _), Block.now_of_core (core_loadCause h cause _),
    now_withoutLoad]

theorem loadFailed_failLoad {h cause : Nat} (hh : h < 24) (hc : cause < 16) {b : Block}
    (running : (b.port h).load.isSome = true) : LoadFailed h cause (failLoad h cause b) := by
  rw [failLoad_eq running]
  refine LoadFailed.of_linkView hh ?_ (linkView_raiseBit _ _)
  have bank : (loadCause h cause (withoutLoad h b)).rd (Reg.HD_BANK h) =
      setFieldOf (setFieldOf (b.rd (Reg.HD_BANK h)) 5 5 0) 6 6 0 := by
    rw [rd_loadCause, if_neg (by grind), bank_withoutLoad hh]
  have stat : (loadCause h cause (withoutLoad h b)).rd (Reg.HD_LINK_STAT h) =
      setFieldOf (setFieldOf (setFieldOf ((withoutLoad h b).rd (Reg.HD_LINK_STAT h)) 4 4 0) 19 16 cause) 6 6 1 := by
    rw [rd_loadCause, if_pos rfl]
  constructor
  · rw [Block.port_of_core (core_loadCause h cause _), load_withoutLoad]
  · simp [Block.bit, stat, bitOf_setFieldOf]
  · simp [Block.bit, stat, bitOf_setFieldOf]
  · rw [Block.fld, stat, fieldOf_setFieldOf_other _ _ _ _ _ _ (by decide) (by decide) (by decide),
      fieldOf_setFieldOf_same _ _ _ _ (by decide) (by decide)]
    omega
  · simp [Block.bit, bank, bitOf_setFieldOf]
  · simp [Block.bit, bank, bitOf_setFieldOf]

/-! ### How it completes (R78 steps 4 to 8, R103) -/

/-- The block with the sections of a load stored in both banks and the tables. -/
def imageStored (h : Nat) (carat table : List Byte) (b : Block) : Block :=
  hbmPut (tablesAddr h) table (noteBankWrite h true (noteBankWrite h false
    (hbmPut (bankAddr h true) carat (hbmPut (bankAddr h false) carat b))))

/-- Block `t` has the ports, the clock and the defect table of `b`. -/
def LoadKept (b t : Block) : Prop := t.ports = b.ports ∧ t.now = b.now ∧ t.defTab = b.defTab

namespace LoadKept

variable {a b c : Block}

theorem trans (h : LoadKept a b) (k : LoadKept b c) : LoadKept a c :=
  ⟨k.1.trans h.1, k.2.1.trans h.2.1, k.2.2.trans h.2.2⟩

theorem hbmPut (n : Nat) (bytes : List Byte) (b : Block) : LoadKept b (hbmPut n bytes b) := ⟨rfl, rfl, rfl⟩

theorem of_banksNoted (k : BanksNoted a b) : LoadKept a b :=
  ⟨(congrArg Block.ports k.frame).trans rfl, k.now, (congrArg Block.defTab k.frame).trans rfl⟩

theorem noteBankWrite {h : Nat} (hh : h < 24) (bank : Bool) (b : Block) : LoadKept b (noteBankWrite h bank b) :=
  of_banksNoted ((BanksNoted.refl b).noteBankWrite hh bank)

end LoadKept

theorem loadKept_imageStored {h : Nat} (hh : h < 24) (carat table : List Byte) (b : Block) :
    LoadKept b (imageStored h carat table b) :=
  ((((LoadKept.hbmPut _ _ b).trans (.hbmPut _ _ _)).trans (.noteBankWrite hh false _)).trans (.noteBankWrite hh true _)).trans
    (.hbmPut _ _ _)

/-- The block as a load leaves it that has succeeded with header `c`. -/
def loadSucceeds (h : Nat) (c : CharHdr) (b : Block) : Block :=
  let b := b.setPort h { b.port h with load := none, hdr := some c, loaded := true }
  let b := loadCurves h (b.hbmBytes (tablesAddr h) 0x50C0) b
  let x := b.hd h
  let b := b.setHd h { x with readings := [], beta := none, betaCold := true, actFrame := 0xFFFFFFFF, switches := 0,
                              cal := { x.cal with accepted := false, ageFrom := none } }
  let b := (b.clrBit (Reg.HD_BANK h) 0).clrBit (Reg.HD_BANK h) 1
  let d := b.bankDigest h false
  setDigest h true d (setDigest h false d (b.setBit (Reg.HD_LINK_STAT h) 4))

/-- A load whose image is right ends by whether its defect list fits. -/
def loadMerged (h : Nat) (c : CharHdr) (list : List Word) (b : Block) : Block :=
  let (ok, b) := defMerge h c.cols c.rows list b
  if !ok then failLoad h 7 b else loadSucceeds h c b

section
variable (bs : List Byte) (odd : Bool)

theorem caratLen_parseHdr : (parseHdr bs odd).caratLen = (parseHdr bs false).caratLen := rfl
theorem tblLen_parseHdr : (parseHdr bs odd).tblLen = (parseHdr bs false).tblLen := rfl
theorem crc_parseHdr : (parseHdr bs odd).crc = (parseHdr bs false).crc := rfl
theorem cols_parseHdr : (parseHdr bs odd).cols = (parseHdr bs false).cols := rfl
theorem rows_parseHdr : (parseHdr bs odd).rows = (parseHdr bs false).rows := rfl

end

/-- What a load of header `bs` has read: the carat section and the table section. -/
def Load.caratOf (l : Load) (bs : List Byte) : List Byte := l.carat.getList (fun _ => 0) 0 (parseHdr bs false).caratLen
def Load.tableOf (l : Load) (bs : List Byte) : List Byte := l.table.getList (fun _ => 0) 0 (parseHdr bs false).tblLen

/-- A load with its image stored ends by IMAGE_CRC. -/
def loadChecked (h : Nat) (bs : List Byte) (c : CharHdr) (carat table : List Byte) (b : Block) : Block :=
  if imageCrc bs carat table != c.crc then failLoad h 4 b else loadMerged h c (defList table) b

/-- A load completes once everything has been read (R78). -/
theorem loadComplete_eq (h : Nat) (b : Block) : loadComplete h b = match (b.port h).load with
    | none => b
    | some l => match l.hdr with
      | none => b
      | some bs =>
        let c := parseHdr bs ((Config.freeValue b.free).getLsbD 0)
        let b := { b with free := b.free + 1 }
        if l.got != c.caratLen + c.tblLen then b
        else
          let carat := l.carat.getList (fun _ => 0) 0 c.caratLen
          let table := l.table.getList (fun _ => 0) 0 c.tblLen
          loadChecked h bs c carat table (imageStored h carat table b) := by
  unfold loadComplete loadChecked loadMerged loadSucceeds imageStored Block.draw
  rfl

/-- With everything read, a load is checked; a MOSAIC byte above 1 takes a free meaning. -/
theorem loadComplete_of_all {h : Nat} {b : Block} {l : Load} {bs : List Byte} (running : (b.port h).load = some l)
    (hdr : l.hdr = some bs) (all : l.got = (parseHdr bs false).caratLen + (parseHdr bs false).tblLen) :
    ∃ odd n, loadComplete h b = loadChecked h bs (parseHdr bs odd) (l.caratOf bs) (l.tableOf bs)
      (imageStored h (l.caratOf bs) (l.tableOf bs) { b with free := n }) := by
  refine ⟨(Config.freeValue b.free).getLsbD 0, b.free + 1, ?_⟩
  rw [loadComplete_eq, running]
  dsimp only
  rw [hdr]
  refine if_neg ?_
  rw [caratLen_parseHdr, tblLen_parseHdr, all]
  simp

/-- The merge looks at nothing but the defect table. -/
theorem fst_defMerge_congr {b c : Block} (e : c.defTab = b.defTab) (h cols rows : Nat) (list : List Word) :
    (defMerge h cols rows list c).1 = (defMerge h cols rows list b).1 := by
  unfold defMerge
  dsimp only
  rw [e]
  split <;> rfl

theorem snd_defMerge_kept (h cols rows : Nat) (list : List Word) (b : Block) :
    (defMerge h cols rows list b).2.ports = b.ports ∧ (defMerge h cols rows list b).2.now = b.now := by
  unfold defMerge
  dsimp only
  split <;> exact ⟨rfl, rfl⟩

/-- Port `h` shows a load that has succeeded. -/
structure LoadSucceeded (h : Nat) (b : Block) : Prop where
  load : (b.port h).load = none
  ready : b.bit (Reg.HD_LINK_STAT h) 4 = true
  digA : b.bit (Reg.HD_BANK h) 5 = true
  digB : b.bit (Reg.HD_BANK h) 6 = true
  active : b.activeBank h = false

theorem LoadSucceeded.of_linkView {h : Nat} (hh : h < 24) {b t : Block} (f : LoadSucceeded h b)
    (e : t.linkView = b.linkView) : LoadSucceeded h t := by
  obtain ⟨load, ready, digA, digB, active⟩ := f
  have bank : t.rd (Reg.HD_BANK h) = b.rd (Reg.HD_BANK h) := rd_of_linkView e (by grind) (by grind)
  constructor
  · rwa [port_of_linkView e]
  · rwa [Block.bit, rd_of_linkView e (by grind) (by grind)]
  · rwa [Block.bit, bank]
  · rwa [Block.bit, bank]
  · rwa [Block.activeBank, Block.bit, bank]

theorem rd_setDigest (h : Nat) (bank : Bool) (d : Word) (b : Block) (off : Nat) : (setDigest h bank d b).rd off =
    if off = Reg.HD_BANK h then setFieldOf (b.rd off) (if bank then 6 else 5) (if bank then 6 else 5) 1 else b.rd off := by
  rw [setDigest, rd_syncDescriptor, Block.rd_setBit]
  split
  · next e => rw [e, Block.setHd_rd]
  · rfl

theorem kept_setDigest (h : Nat) (bank : Bool) (d : Word) (b : Block) :
    (setDigest h bank d b).ports = b.ports ∧ (setDigest h bank d b).now = b.now := by
  have view := linkView_syncDescriptor ((b.setHd h (if bank then { b.hd h with digB := d } else { b.hd h with digA := d })).setBit
    (Reg.HD_BANK h) (if bank then 6 else 5)) h
  rw [setDigest, ports_of_linkView view, now_of_linkView view, Block.ports_of_core (Block.core_setBit _ _ _),
    Block.now_of_core (Block.core_setBit _ _ _)]
  exact ⟨rfl, rfl⟩

/-- The header and the curves of a load that has succeeded, and the head's state that it begins anew. -/
def loadTaken (h : Nat) (c : CharHdr) (b : Block) : Block :=
  let b := b.setPort h { b.port h with load := none, hdr := some c, loaded := true }
  let b := loadCurves h (b.hbmBytes (tablesAddr h) 0x50C0) b
  let x := b.hd h
  b.setHd h { x with readings := [], beta := none, betaCold := true, actFrame := 0xFFFFFFFF, switches := 0,
                     cal := { x.cal with accepted := false, ageFrom := none } }

theorem load_loadTaken (h : Nat) (c : CharHdr) (b : Block) : ((loadTaken h c b).port h).load = none :=
  congrArg HdPort.load (Block.port_setPort_same _ _ _)

theorem now_loadTaken (h : Nat) (c : CharHdr) (b : Block) : (loadTaken h c b).now = b.now := rfl

/-- Bank A active, no switch pending, READY. -/
def readyShown (h : Nat) (b : Block) : Block :=
  ((b.clrBit (Reg.HD_BANK h) 0).clrBit (Reg.HD_BANK h) 1).setBit (Reg.HD_LINK_STAT h) 4

theorem loadSucceeds_eq (h : Nat) (c : CharHdr) (b : Block) :
    ∃ d, loadSucceeds h c b = setDigest h true d (setDigest h false d (readyShown h (loadTaken h c b))) := ⟨_, rfl⟩

theorem core_readyShown (h : Nat) (b : Block) : (readyShown h b).core = b.core := by
  rw [readyShown, Block.core_setBit, Block.clrBit, Block.core_setFld, Block.clrBit, Block.core_setFld]

theorem bank_readyShown {h : Nat} (b : Block) : (readyShown h b).rd (Reg.HD_BANK h) =
    setFieldOf (setFieldOf (b.rd (Reg.HD_BANK h)) 0 0 0) 1 1 0 := by
  rw [readyShown, Block.rd_setBit_other (by grind), Block.rd_clrBit, if_pos rfl, Block.rd_clrBit, if_pos rfl]

theorem loadSucceeded_loadSucceeds {h : Nat} (c : CharHdr) (b : Block) :
    LoadSucceeded h (loadSucceeds h c b) ∧ (loadSucceeds h c b).now = b.now := by
  obtain ⟨d, e⟩ := loadSucceeds_eq h c b
  rw [e]
  generalize taken : loadTaken h c b = t
  have now : t.now = b.now := by rw [← taken, now_loadTaken]
  have load : (t.port h).load = none := by rw [← taken, load_loadTaken]
  have bank : (setDigest h true d (setDigest h false d (readyShown h t))).rd (Reg.HD_BANK h) =
      setFieldOf (setFieldOf (setFieldOf (setFieldOf (t.rd (Reg.HD_BANK h)) 0 0 0) 1 1 0) 5 5 1) 6 6 1 := by
    rw [rd_setDigest, if_pos rfl, rd_setDigest, if_pos rfl, bank_readyShown]
    rfl
  have stat : (setDigest h true d (setDigest h false d (readyShown h t))).rd (Reg.HD_LINK_STAT h) =
      (readyShown h t).rd (Reg.HD_LINK_STAT h) := by
    rw [rd_setDigest, if_neg (by grind), rd_setDigest, if_neg (by grind)]
  refine ⟨⟨?_, ?_, ?_, ?_, ?_⟩, ?_⟩
  · rw [Block.port, (kept_setDigest h true d _).1, (kept_setDigest h false d _).1, Block.ports_of_core (core_readyShown h t)]
    exact load
  · rw [Block.bit, stat]
    exact Block.bit_setBit_same _ _ (by decide)
  · simp [Block.bit, bank, bitOf_setFieldOf]
  · simp [Block.bit, bank, bitOf_setFieldOf]
  · simp [Block.activeBank, Block.bit, bank, bitOf_setFieldOf]
  · rw [(kept_setDigest h true d _).2, (kept_setDigest h false d _).2, Block.now_of_core (core_readyShown h t), now]

theorem Ends.mono {c : Instr} {s : State} {P Q : Block → Prop} (h : Ends c s P) (hPQ : ∀ t, P t → Q t) : Ends c s Q := by
  obtain ⟨t, ran, queue, now, holds⟩ := h
  exact ⟨t, ran, queue, now, hPQ _ holds⟩

/-! ### How a load ends -/

section
variable {s : State} {h : Hd} {l : Load} {bs : List Byte} (on : s.blk.unitsOn = true) (running : (s.blk.port h).load = some l)
include on running

theorem ends_loadFails {c : Instr} {f : Block → Block} {t : Block} {cause : Nat} (ran : exec c s = carryOut (whenUnits f) s)
    (acts : f s.blk = failLoad h cause t) (hc : cause < 16) (ports : t.ports = s.blk.ports)
    (now : t.now = s.blk.now) : Ends c s (LoadFailed h cause) := by
  have still : (t.port h).load.isSome = true := by rw [Block.port, ports, ← Block.port, running]; rfl
  have acts := (whenUnits_on on f).trans acts
  refine ends_of_carryOut_now ran (by rw [acts, now_failLoad still, now]) fun u k => ?_
  rw [acts] at k
  exact (loadFailed_failLoad h.isLt hc still).of_linkView h.isLt k.linkView

theorem ends_charTimeout (past : l.deadline ≤ s.blk.now) : Ends (.charTimeout h) s (LoadFailed h 1) := by
  refine ends_loadFails on running (f := loadTimeout h) (t := s.blk) rfl ?_ (by decide) rfl rfl
  rw [loadTimeout, running]
  exact if_pos past

variable (hdr : l.hdr = some bs) (all : l.got = (parseHdr bs false).caratLen + (parseHdr bs false).tblLen)
include hdr all

theorem ends_wrongImage (wrong : imageCrc bs (l.caratOf bs) (l.tableOf bs) ≠ (parseHdr bs false).crc) :
    Ends (.charLoadComplete h) s (LoadFailed h 4) := by
  obtain ⟨odd, n, checked⟩ := loadComplete_of_all running hdr all
  obtain ⟨ports, now, -⟩ := loadKept_imageStored h.isLt (l.caratOf bs) (l.tableOf bs) { s.blk with free := n }
  refine ends_loadFails on running (f := loadComplete h) rfl (checked.trans (if_pos ?_)) (by decide) ports now
  rw [crc_parseHdr]
  exact bne_iff_ne.mpr wrong

theorem ends_rightImage (right : imageCrc bs (l.caratOf bs) (l.tableOf bs) = (parseHdr bs false).crc) :
    Ends (.charLoadComplete h) s fun b =>
      if (defMerge h (parseHdr bs false).cols (parseHdr bs false).rows (defList (l.tableOf bs)) s.blk).1 = true
      then LoadSucceeded h b else LoadFailed h 7 b := by
  obtain ⟨odd, n, checked⟩ := loadComplete_of_all running hdr all
  have merged := checked.trans (if_neg (by rw [crc_parseHdr, right]; simp))
  have kept : LoadKept s.blk _ := loadKept_imageStored h.isLt (l.caratOf bs) (l.tableOf bs) { s.blk with free := n }
  generalize imageStored h (l.caratOf bs) (l.tableOf bs) { s.blk with free := n } = t at merged kept
  obtain ⟨ports, now, tab⟩ := kept
  have fits := fst_defMerge_congr tab h (parseHdr bs odd).cols (parseHdr bs odd).rows (defList (l.tableOf bs))
  have after := snd_defMerge_kept h (parseHdr bs odd).cols (parseHdr bs odd).rows (defList (l.tableOf bs)) t
  rw [cols_parseHdr bs odd, rows_parseHdr bs odd] at fits
  rw [← fits]
  rw [loadMerged, cols_parseHdr bs odd, rows_parseHdr bs odd] at merged
  rw [cols_parseHdr bs odd, rows_parseHdr bs odd] at after
  generalize defMerge h (parseHdr bs false).cols (parseHdr bs false).rows (defList (l.tableOf bs)) t = m at merged after
  obtain ⟨ok, u⟩ := m
  obtain ⟨sndPorts, sndNow⟩ := after
  cases ok with
  | false =>
    exact ends_loadFails on running (f := loadComplete h) rfl merged (by decide) (sndPorts.trans ports) (sndNow.trans now)
  | true =>
    have acts := (whenUnits_on on (loadComplete h)).trans merged
    obtain ⟨succeeded, still⟩ := loadSucceeded_loadSucceeds (parseHdr bs odd) u
    refine ends_of_carryOut_now (f := whenUnits (loadComplete h)) rfl ?_ fun v k => ?_
    · rw [acts]
      exact still.trans (sndNow.trans now)
    · rw [acts] at k
      exact succeeded.of_linkView h.isLt k.linkView

end

/-- Settles O25: a load that is complete ends by its check sum and its defect list, one that is not by its time limit. -/
theorem characterisationEnds : Obligations.CharacterisationEnds := by
  unfold Obligations.CharacterisationEnds
  intro s h l bs on running
  refine ⟨fun hdr all => ⟨fun right => (ends_rightImage on running hdr all right).mono fun t ends => ?_,
    fun wrong => (ends_wrongImage on running hdr all wrong).mono fun t failed => ?_⟩,
    fun past => (ends_charTimeout on running past).mono fun t failed => ?_⟩
  · change _ ∧ if (defMerge h (parseHdr bs false).cols (parseHdr bs false).rows (defList (l.tableOf bs)) s.blk).1 = true
      then _ else _
    split at ends
    · next fits =>
      rw [if_pos fits]
      exact ⟨ends.load, ends.ready, ends.digA, ends.digB, ends.active⟩
    · next full =>
      rw [if_neg full]
      exact ⟨ends.load, ends.ready, ends.cause, ends.digA, ends.digB⟩
  · exact ⟨failed.load, failed.ready, failed.cause, failed.digA, failed.digB⟩
  · exact ⟨failed.load, failed.ready, failed.failed, failed.cause, failed.digA, failed.digB⟩

end Sys2Proof.Machine

namespace Sys2Proof.Machine

/-! ### What closing a frame and passing its boundary leave alone (R22, R83) -/

/-- A field of a head port that a closing frame or its boundary writes: HD_BIND, HD_BANK and HD_CNT_C. -/
abbrev boundaryField (off : Nat) : Prop := off % 0x1000 = 0x1C ∨ off % 0x1000 = 0x24 ∨ off % 0x1000 = 0x38

/-- The sync headers that the upstream lanes of the ports have brought (R75). -/
def Block.syncs (b : Block) (h : Nat) : SMap (List Bool) := (b.port h).sync

/-- The steady part, the sync headers, and the registers of the head ports but for those that a frame's close and boundary
write. -/
def Block.closeView (b : Block) : (Nat × Tim × SMap PosCh × SMap StkGrp × (Nat → List (Nat × Bool))) ×
    (Nat → SMap (List Bool)) × (Fin 0x18000 → Word) :=
  (b.steady, b.syncs, fun k => if boundaryField (0x100000 + k) then 0 else b.rd (0x100000 + k))

/-- An offset that the view does not show. -/
abbrev notClose (off : Nat) : Prop := notHead off ∨ boundaryField off

section
variable {a b : Block}

theorem steady_of_closeView (h : b.closeView = a.closeView) : b.steady = a.steady := congrArg Prod.fst h

theorem syncs_of_closeView (h : b.closeView = a.closeView) : b.syncs = a.syncs := congrArg (fun v => v.2.1) h

theorem syncs_of_ports (h : b.ports = a.ports) : b.syncs = a.syncs := by
  unfold Block.syncs Block.port
  rw [h]

theorem rd_of_closeView (h : b.closeView = a.closeView) {off : Nat} (ho : ¬ notClose off) : b.rd off = a.rd off := by
  obtain ⟨lo, hi⟩ : 0x100000 ≤ off ∧ off < 0x118000 := by grind
  have e := congrFun (congrArg (fun v => v.2.2) h) ⟨off - 0x100000, by omega⟩
  have shown : ¬ boundaryField off := fun f => ho (.inr f)
  simpa only [Block.closeView, Nat.add_sub_cancel' lo, if_neg shown] using e

theorem closeView_of (hs : b.steady = a.steady) (hy : b.syncs = a.syncs) (hr : ∀ off, ¬ notClose off → b.rd off = a.rd off) :
    b.closeView = a.closeView := by
  refine Prod.ext hs (Prod.ext hy (funext fun k => ?_))
  have bound := k.isLt
  dsimp only [Block.closeView]
  split
  · rfl
  · next shown => exact hr _ (by grind)

theorem closeView_of_linkView (h : b.linkView = a.linkView) : b.closeView = a.closeView :=
  closeView_of (steady_of_linkView h) (syncs_of_ports (ports_of_linkView h)) fun off ho => rd_of_linkView h (by grind) (by grind)

/-- An update of registers that the view does not show. -/
theorem closeView_of_core (hc : b.core = a.core) (hr : ∀ off, ¬ notClose off → b.rd off = a.rd off) :
    b.closeView = a.closeView := closeView_of (Block.steady_of_core hc) (syncs_of_ports (Block.ports_of_core hc)) hr

theorem closeView_ite {c : Prop} [Decidable c] {x y : Block} (hx : x.closeView = a.closeView) (hy : y.closeView = a.closeView) :
    (if c then x else y).closeView = a.closeView := by
  split
  · exact hx
  · exact hy

/-- A change that may be made and is not seen. -/
theorem closeView_mayDo {c : Prop} [Decidable c] {y x : Block} (hy : y.closeView = x.closeView) (hx : x.closeView = a.closeView) :
    (if c then y else x).closeView = a.closeView := closeView_ite (hy.trans hx) hx

theorem closeView_forEach {α : Type} {f : α → Block → Block} (xs : List α) (b : Block)
    (hf : ∀ x ∈ xs, ∀ c, (f x c).closeView = c.closeView) : (forEach xs f b).closeView = b.closeView :=
  forEach_induct (fun t => t.closeView = b.closeView) xs rfl fun x hx c hc => (hf x hx c).trans hc

theorem Reported.closeView {offs : List Nat} (h : Reported offs a b) (ho : ∀ off ∈ offs, notHead off) :
    b.closeView = a.closeView := closeView_of_linkView (h.linkView ho)

end

section
variable (b : Block)

/-! Updates of registers. -/

@[simp] theorem closeView_setFld {off : Nat} (h : notClose off) (hi lo v : Nat) :
    (b.setFld off hi lo v).closeView = b.closeView :=
  closeView_of_core (Block.core_setFld _ _ _ _ _) fun o ho => Block.rd_setFld_other (by rintro rfl; exact ho h) _ _ _

@[simp] theorem closeView_clrBit {off : Nat} (h : notClose off) (i : Nat) : (b.clrBit off i).closeView = b.closeView :=
  closeView_setFld b h _ _ _

@[simp] theorem closeView_putBit {off : Nat} (h : notClose off) (i : Nat) (v : Bool) :
    (b.putBit off i v).closeView = b.closeView := closeView_setFld b h _ _ _

@[simp] theorem closeView_setBit {off : Nat} (h : notClose off) (i : Nat) : (b.setBit off i).closeView = b.closeView :=
  closeView_of_core (Block.core_setBit _ _ _) fun o ho => Block.rd_setBit_other (by rintro rfl; exact ho h) _

@[simp] theorem closeView_inc {off : Nat} (h : notClose off) (hi lo n : Nat) : (b.inc off hi lo n).closeView = b.closeView :=
  closeView_of_core (Block.core_inc _ _ _ _ _) fun o ho => Block.rd_inc_other (by rintro rfl; exact ho h) _ _ _

@[simp] theorem closeView_wr {off : Nat} (h : notClose off) (v : Word) : (b.wr off v).closeView = b.closeView :=
  closeView_of (by cases b; rfl) (by cases b; rfl) fun o ho => Block.rd_wr_other _ _ _ _ (by rintro rfl; exact ho h)

@[simp] theorem closeView_wrN {off : Nat} (h : notClose off) (v : Nat) : (b.wrN off v).closeView = b.closeView :=
  closeView_wr b h _

@[simp] theorem closeView_setUpd (off : Nat) (w : Word) : (b.setUpd off w).closeView = b.closeView := rfl

/-! Updates of other units. -/

@[simp] theorem closeView_setPort {h : Nat} {p : HdPort} (hp : p.sync = (b.port h).sync) :
    (b.setPort h p).closeView = b.closeView := by
  refine closeView_of rfl (funext fun k => ?_) fun _ _ => rfl
  unfold Block.syncs Block.port Block.setPort
  rw [SMap.get_set]
  split
  · next e =>
    rw [hp, e]
    rfl
  · rfl

@[simp] theorem closeView_queueCmd (h : Nat) (c : HdCmd) : (queueCmd h c b).closeView = b.closeView :=
  closeView_setPort b rfl

@[simp] theorem closeView_setPl (p : Nat) (x : Pipe) : (b.setPl p x).closeView = b.closeView := rfl
@[simp] theorem closeView_putStr (s : Nat) (x : StreamSt) : (putStr s x b).closeView = b.closeView := rfl
@[simp] theorem closeView_setStr (s : Nat) (x : StreamSt) : (b.setStr s x).closeView = b.closeView := rfl
@[simp] theorem closeView_syncDescriptor (h : Nat) : (syncDescriptor h b).closeView = b.closeView := rfl

@[simp] theorem closeView_raiseBit (i : Nat) : (raiseBit i b).closeView = b.closeView :=
  closeView_of_linkView (linkView_raiseBit b i)

@[simp] theorem closeView_queueWrite (q : LdgReq) : (queueWrite q b).closeView = b.closeView :=
  ((Reported.refl ledgerRegs b).queueWrite (fun _ h => h) q).closeView (by decide)

@[simp] theorem closeView_logT24 (code : BitVec 16) (urgent : Bool) (data : List Byte) :
    (logT24 code urgent data b).closeView = b.closeView :=
  closeView_ite (closeView_inc b (by decide) _ _ _)
    (((Reported.refl ledgerRegs b).queueLog (fun _ h => h) _ _ _ _).closeView (by decide))

@[simp] theorem closeView_mirror (w : PairWrite) : (mirror w b).closeView = b.closeView := by
  obtain ⟨o, l, e⟩ := mirror_eq w b
  rw [e]
  rfl

/-- A change of a head that leaves its frames where they are, open or not. -/
theorem closeView_setHd {h : Nat} {x : HeadSt}
    (hx : x.frames.map (fun f => (f.id, f.st == .open_)) = (b.hd h).frames.map fun f => (f.id, f.st == .open_)) :
    (b.setHd h x).closeView = b.closeView := by
  have same : (b.setHd h x).openFrames = b.openFrames := by
    funext k
    unfold Block.openFrames
    rw [hd_setHd]
    split
    · next e => rw [hx, e]
    · rfl
  refine closeView_of ?_ rfl fun _ _ => rfl
  rw [Block.steady, same]
  rfl

@[simp] theorem closeView_setHd_frames {h : Nat} {x : HeadSt} (hx : x.frames = (b.hd h).frames) :
    (b.setHd h x).closeView = b.closeView := closeView_setHd b (by rw [hx])

@[simp] theorem closeView_setCal (h : Nat) (c : CalSt) : (setCal h c b).closeView = b.closeView :=
  closeView_setHd_frames b rfl

@[simp] theorem closeView_setMg (h : Nat) (m : Option MergeRun) : (setMg h m b).closeView = b.closeView :=
  closeView_setHd_frames b rfl

end

end Sys2Proof.Machine

namespace Sys2Proof.Machine

/-! ### Pipelines and forecasts (R99, R107 to R109, R113) -/

section
variable (b : Block)

@[simp] theorem closeView_refreshForecast (h p : Nat) : (refreshForecast h p b).closeView = b.closeView :=
  closeView_ite rfl (by simp (disch := grind))

@[simp] theorem closeView_refreshSpare (p : Nat) : (refreshSpare p b).closeView = b.closeView :=
  closeView_putBit b (by grind) _ _

@[simp] theorem closeView_dropSpare (p : Nat) : (dropSpare p b).closeView = b.closeView := by
  simp (disch := grind) [dropSpare]

@[simp] theorem closeView_reserveSpare (p : Nat) : (reserveSpare p b).closeView = b.closeView := by
  unfold reserveSpare
  split
  · exact closeView_wrN b (by grind) _
  · simp (disch := grind)

@[simp] theorem closeView_requestBist (p : Nat) : (requestBist p b).closeView = b.closeView := by
  have ask (n : Nat) : (b.wrN (Reg.PL_ROT p) n).closeView = b.closeView := closeView_wrN b (by grind) _
  refine closeView_ite (ask _) (closeView_ite ?_ (closeView_ite (ask _) ?_))
  · simp [ask]
  · dsimp only
    rw [closeView_forEach _ _ fun q _ c => closeView_reserveSpare c q, closeView_forEach _ _ fun q _ c => closeView_dropSpare c q,
      closeView_setUpd]

@[simp] theorem closeView_residueCheck (p mism : Nat) : (residueCheck p mism b).closeView = b.closeView := by
  have last : (b.wrN (Reg.PL_RES_LAST p) (min mism 0xFFFF)).closeView = b.closeView := closeView_wrN b (by grind) _
  have counted (c : Block) : (raiseBit 2 ((c.setBit (Reg.PL_STAT p) 13).inc (Reg.PL_RES_CNT p) 31 16 1)).closeView = c.closeView := by
    simp (disch := grind)
  exact closeView_ite (closeView_mayDo (closeView_requestBist _ p) ((counted _).trans last)) last

@[simp] theorem closeView_plAssign (p h : Nat) : (plAssign p h b).closeView = b.closeView := by
  simp (disch := grind) [plAssign]

@[simp] theorem closeView_setRot (p code : Nat) : (setRot p code b).closeView = b.closeView := closeView_setFld b (by grind) _ _ _

@[simp] theorem closeView_refreshDrain (p : Nat) : (refreshDrain p b).closeView = b.closeView := by
  unfold refreshDrain
  split
  · exact closeView_ite (closeView_setBit b (by grind) _) (by simp (disch := grind))
  · rfl

@[simp] theorem closeView_vacate (p h : Nat) (bist : Bool) : (vacate p h bist b).closeView = b.closeView := by
  simp [vacate]

theorem closeView_putRegs {base : Nat} (hb : 0x1A0000 ≤ base) (ws : List Word) : (putRegs base ws b).closeView = b.closeView := by
  induction ws generalizing base b with
  | nil => rfl
  | cons w ws ih => rw [putRegs, ih _ (by omega), closeView_wr _ (by grind)]

@[simp] theorem closeView_resetForecastRegs (p : Nat) : (resetForecastRegs p b).closeView = b.closeView :=
  closeView_forEach _ b fun i _ c => closeView_wr c (by grind) _

/-- The registers and the state of a pipeline, as a move puts them into another. -/
theorem closeView_applyMove (h p : Nat) : (applyMove h p b).closeView = b.closeView := by
  unfold applyMove
  extract_lets s c put pipe moved assigned reset left
  have base : 0x1A0000 ≤ 0x1A0000 + s * 0x1000 + 0x80 := by omega
  calc (vacate p h true (setRot p 2 left)).closeView
    _ = left.closeView := by rw [closeView_vacate, closeView_setRot]
    _ = reset.closeView := (closeView_setFld _ (by grind) _ _ _).trans (closeView_clrBit _ (by grind) _)
    _ = moved.closeView := (closeView_resetForecastRegs _ p).trans (closeView_plAssign _ s h)
    _ = b.closeView := (closeView_setPl _ s _).trans (closeView_putRegs b base c.regs)

/-- An unbind leaves the head's frames where they are. -/
@[simp] theorem closeView_applyUnbind (h : Nat) : (applyUnbind h b).closeView = b.closeView := by
  have head (x : HeadSt) (copy : StageCopy)
      (hx : x.frames = (b.hd h).frames.map fun f => if f.decided then f else { f with regsCopy := some copy }) :
      ((((b.setHd h x).clrBit (Reg.HD_BIND h) 31).clrBit (Reg.HD_BIND h) 30).setFld (Reg.HD_BIND h) 28 24 31).closeView
        = b.closeView := by
    rw [closeView_setFld _ (by grind), closeView_clrBit _ (by grind), closeView_clrBit _ (by grind)]
    refine closeView_setHd b ?_
    rw [hx, List.map_map]
    refine List.map_congr_left fun f _ => ?_
    dsimp only [Function.comp]
    split <;> rfl
  unfold applyUnbind
  dsimp only
  rw [closeView_vacate]
  exact closeView_ite ((closeView_setRot _ _ _).trans (head _ _ rfl)) (head _ _ rfl)

end

/-! ### Calibration runs and bank switches (R102, R224 to R229) -/

section
variable (b : Block) {h : Nat} (hh : h < 24)

@[simp] theorem closeView_calShutter (h : Nat) (close : Bool) : (calShutter h close b).closeView = b.closeView :=
  closeView_ite rfl (closeView_queueCmd b _ _)

@[simp] theorem closeView_mirrorShut (h : Nat) : (mirrorShut h b).closeView = b.closeView := by
  unfold mirrorShut
  dsimp only
  split
  · exact closeView_ite (closeView_mirror b _) rfl
  · rfl

@[simp] theorem closeView_mirrorOutcome (h cause : Nat) : (mirrorOutcome h cause b).closeView = b.closeView :=
  closeView_ite (closeView_mirror b _) rfl

@[simp] theorem closeView_startDigest (h : Nat) (bank restore : Bool) : (startDigest h bank restore b).closeView = b.closeView :=
  (closeView_setBit _ (by grind) _).trans (closeView_setHd_frames b rfl)

@[simp] theorem closeView_refreshRetain (h : Nat) : (refreshRetain h b).closeView = b.closeView :=
  closeView_putBit b (by grind) _ _

@[simp] theorem closeView_switchBank (h : Nat) : (switchBank h b).closeView = b.closeView := by
  have switched (x : HeadSt) (hx : x.frames = (b.hd h).frames) : (refreshRetain h (Block.setHd ((b.putBit (Reg.HD_BANK h) 0
      (!b.activeBank h)).clrBit (Reg.HD_BANK h) 1) h x)).closeView = b.closeView := by
    refine (closeView_refreshRetain _ h).trans ((closeView_setHd_frames _ (by exact hx)).trans ?_)
    rw [closeView_clrBit _ (by grind), closeView_putBit _ (by grind)]
  unfold switchBank
  dsimp only
  rw [closeView_syncDescriptor]
  refine closeView_ite (switched _ rfl) ?_
  split
  · rw [closeView_startDigest]
    exact switched _ rfl
  · exact closeView_ite (switched _ rfl) ((closeView_setHd_frames _ (by rfl)).trans (switched _ rfl))

@[simp] theorem closeView_noteBankWrite (h : Nat) (bank : Bool) : (noteBankWrite h bank b).closeView = b.closeView := by
  have cleared : (b.clrBit (Reg.HD_BANK h) (if bank then 6 else 5)).closeView = b.closeView := closeView_clrBit b (by grind) _
  unfold noteBankWrite
  dsimp only
  rw [closeView_syncDescriptor]
  split
  · exact closeView_ite ((closeView_setHd_frames _ (by rfl)).trans cleared) cleared
  · exact cleared

@[simp] theorem closeView_boundarySwitches (h p : Nat) : (boundarySwitches h p b).closeView = b.closeView := by
  have flipped : (if p < 26 && b.bit (Reg.PL_LIN_CTL p) 5 then (b.putBit (Reg.PL_LIN_CTL p) 4 (!b.bit (Reg.PL_LIN_CTL p) 4)).clrBit
      (Reg.PL_LIN_CTL p) 5 else b).closeView = b.closeView := closeView_ite (by simp (disch := grind)) rfl
  unfold boundarySwitches
  dsimp only
  generalize (if p < 26 && b.bit (Reg.PL_LIN_CTL p) 5 then (b.putBit (Reg.PL_LIN_CTL p) 4 (!b.bit (Reg.PL_LIN_CTL p) 4)).clrBit
      (Reg.PL_LIN_CTL p) 5 else b) = c at flipped ⊢
  split
  · exact (closeView_setHd_frames c (by split <;> rfl)).trans flipped
  · exact closeView_ite ((closeView_setHd_frames c (by split <;> rfl)).trans flipped) flipped

include hh

@[simp] theorem closeView_setCalState (n : Nat) : (setCalState h n b).closeView = b.closeView := by
  simp (disch := grind) [setCalState]

@[simp] theorem closeView_setCalCause (n : Nat) : (setCalCause h n b).closeView = b.closeView := by
  simp (disch := grind) [setCalCause]

@[simp] theorem closeView_calPend (trigger : Nat) (forced : Bool) : (calPend h trigger forced b).closeView = b.closeView := by
  simp (disch := grind) [calPend]

@[simp] theorem closeView_calAuto (trigger : Nat) : (calAuto h trigger b).closeView = b.closeView :=
  closeView_ite (closeView_calPend b hh _ _) rfl

theorem closeView_calDrift (tfpa : Nat) : (calDrift h tfpa b).closeView = b.closeView :=
  closeView_ite (closeView_calAuto b hh 1) rfl

@[simp] theorem closeView_calEnd : (calEnd h b).closeView = b.closeView := by
  unfold calEnd
  dsimp only
  rw [closeView_setCalState _ hh, closeView_mirrorShut]
  refine closeView_setHd b ?_
  rw [List.map_map]
  rfl

@[simp] theorem closeView_calOpen : (calOpen h b).closeView = b.closeView :=
  closeView_ite (closeView_calEnd b hh) (closeView_ite (closeView_ite (closeView_calEnd b hh) (closeView_setCalState b hh 8))
    (closeView_ite (closeView_setCalState b hh 8) (by simp [hh])))

omit hh in
@[simp] theorem closeView_calDisown (h : Nat) : (calDisown h b).closeView = b.closeView := by
  refine closeView_ite ?_ rfl
  dsimp only
  rw [closeView_noteBankWrite, closeView_clrBit _ (by grind)]
  exact closeView_ite (closeView_clrBit b (by grind) 1) rfl

@[simp] theorem closeView_calAbandon : (calAbandon h b).closeView = b.closeView := by
  have told : (mirrorOutcome h 10 (calDisown h (setCalCause h 10 b))).closeView = b.closeView := by simp [hh]
  refine closeView_ite ?_ rfl
  rw [closeView_calEnd _ hh, closeView_setCal]
  exact closeView_ite (closeView_ite ((closeView_setCal _ _ _).trans told)
    (closeView_ite told ((closeView_calShutter _ _ _).trans told))) told

theorem closeView_calCountReject (cause : Nat) : (calCountReject h cause b).closeView = b.closeView := by
  unfold calCountReject
  dsimp only
  refine closeView_ite ?_ ?_
  all_goals simp (disch := grind)

theorem closeView_calFailed (close : Bool) : (calFailed h close b).closeView = b.closeView :=
  closeView_ite (closeView_ite ((closeView_calOpen _ hh).trans (closeView_calCountReject b hh 8)) rfl)
    (closeView_ite (closeView_calEnd b hh) (closeView_setCal b h _))

theorem closeView_calSwitched : (calSwitched h b).closeView = b.closeView := by
  have curve : (if b.wroteNow (Reg.CAL_H_TREF h) then b else b.wrN (Reg.CAL_H_TREF h) (b.hd h).cal.tref).closeView = b.closeView :=
    closeView_ite rfl (closeView_wrN b (by grind) _)
  unfold calSwitched
  dsimp only
  refine closeView_ite (closeView_setHd_frames b rfl) (closeView_ite ?_ rfl)
  rw [closeView_calOpen _ hh, closeView_setCal]
  refine closeView_ite ?_ ((closeView_queueWrite _ _).trans ?_)
  all_goals simp (disch := grind) [curve]

@[simp] theorem closeView_doSwitch : (doSwitch h b).closeView = b.closeView :=
  (closeView_calSwitched _ hh).trans (closeView_switchBank b h)

end

end Sys2Proof.Machine

namespace Sys2Proof.Machine

/-! ### The boundary and the end of a frame (R22, R83) -/

section
variable (b : Block)

@[simp] theorem closeView_disownLadder (h : Nat) : (disownLadder h b).closeView = b.closeView :=
  closeView_setPort b rfl

@[simp] theorem closeView_mgCause (p n : Nat) : (mgCause p n b).closeView = b.closeView :=
  closeView_ite (closeView_setFld b (by grind) _ _ _) rfl

@[simp] theorem closeView_ladderSent (h t : Nat) : (ladderSent h t b).closeView = b.closeView := by
  unfold ladderSent
  split
  · split
    · exact closeView_setHd_frames b rfl
    · rfl
  · rfl

@[simp] theorem closeView_sendTnorm (h p : Nat) : (sendTnorm h p b).closeView = b.closeView :=
  closeView_ite (closeView_ite (closeView_ladderSent b _ _) rfl) (closeView_queueCmd b _ _)

@[simp] theorem closeView_mgEnd (h cause : Nat) (tnorm : Bool) : (mgEnd h cause tnorm b).closeView = b.closeView := by
  unfold mgEnd
  split
  · rfl
  · have ended : (disownLadder h (setMg h none (mgCause (b.curPipe h) cause b))).closeView = b.closeView := by simp
    exact closeView_mayDo (closeView_sendTnorm _ _ _) ended

@[simp] theorem closeView_seamCheck : (seamCheck b).closeView = b.closeView :=
  closeView_mayDo (closeView_setBit _ (by decide) 7) (closeView_ite (closeView_setBit b (by decide) 1) rfl)

@[simp] theorem closeView_refreshDef : (refreshDef b).closeView = b.closeView := by
  simp (disch := decide) [refreshDef]

@[simp] theorem closeView_releaseEdits (h : Nat) : (releaseEdits h b).closeView = b.closeView := by
  unfold releaseEdits startEdit
  split
  · exact closeView_refreshDef _
  · exact closeView_refreshDef _

@[simp] theorem closeView_placeItems (s : Nat) : (placeItems s b).closeView = b.closeView := rfl

theorem closeView_pushItem {s : Nat} (hs : s < 0x1000) (x : Item) : (pushItem s x b).closeView = b.closeView := by
  have dropped (y : StreamSt) : ((b.inc (Reg.STR_CNT s) 31 16 1).setStr s y).closeView = b.closeView := by
    rw [closeView_setStr, closeView_inc _ (by grind)]
  unfold pushItem
  dsimp only
  split
  · rw [closeView_placeItems, closeView_setStr]
  · exact dropped _

variable {h : Nat} (hh : h < 24)
include hh

@[simp] theorem closeView_putTrims (rg ro : Word) : (putTrims h rg ro b).closeView = b.closeView := by
  simp (disch := grind) [putTrims]

@[simp] theorem closeView_trimsFlush : (trimsFlush h b).closeView = b.closeView :=
  (closeView_forEach _ _ fun _ _ c => closeView_putTrims c hh _ _).trans (closeView_setHd_frames b rfl)

/-- A frame boundary leaves the view alone (R22). -/
theorem closeView_boundary : (boundary h b).closeView = b.closeView := by
  unfold boundary
  extract_lets p switched flipped moved left
  have h1 : switched.closeView = b.closeView := closeView_ite (closeView_doSwitch b hh) rfl
  have h2 : flipped.closeView = b.closeView := (closeView_boundarySwitches _ h p).trans h1
  have h3 : moved.closeView = b.closeView := closeView_mayDo (closeView_applyMove _ h p) h2
  have unbound : (seamCheck (applyUnbind h (mgEnd h 6 true (calAbandon h (trimsFlush h moved))))).closeView = moved.closeView := by
    simp [hh]
  have h4 : left.closeView = b.closeView := closeView_mayDo unbound h3
  exact (closeView_releaseEdits _ h).trans h4

theorem closeView_issueFrameItems (f : Frame) {taps : List Nat} (ht : ∀ t ∈ taps, t < 8) :
    (issueFrameItems h f taps b).closeView = b.closeView :=
  closeView_forEach taps b fun t m c => closeView_ite (closeView_pushItem c (by have := ht t m; omega) _) rfl

omit hh in
theorem closeView_addReading (r : Reading) : (addReading h r b).closeView = b.closeView := by
  unfold addReading
  rw [closeView_refreshForecast]
  exact closeView_setHd_frames b rfl

omit hh in
/-- Frames that wait for a reading are closed already. -/
theorem closeView_completeWaiting (sub : Nat) (r : Reading) : (completeWaiting h sub r b).closeView = b.closeView := by
  refine closeView_setHd b ?_
  rw [List.map_map]
  refine List.map_congr_left fun f _ => ?_
  dsimp only [Function.comp]
  split
  · next waits => simp [eq_of_beq waits]
  · rfl

end

end Sys2Proof.Machine

namespace Sys2Proof.Machine

/-! ### A frame that ends (R83) -/

/-- The frames of a head by their order, once frame `g` stands for those of its number in the order. -/
def withFrame (g : Frame) (fs : List (Nat × Bool)) : List (Nat × Bool) :=
  fs.map fun e => if e.1 = g.id then (g.id, g.st == .open_) else e

theorem openFrames_setFrame (h : Nat) (g : Frame) (b : Block) (k : Nat) :
    (setFrame h g b).openFrames k = if k = h then withFrame g (b.openFrames h) else b.openFrames k := by
  unfold setFrame Block.openFrames withFrame
  rw [hd_setHd]
  split
  · next e =>
    dsimp only
    rw [List.map_map, List.map_map]
    refine List.map_congr_left fun f _ => ?_
    dsimp only [Function.comp]
    split <;> rfl
  · rfl

theorem steady_setFrame (h : Nat) (g : Frame) (b : Block) : (setFrame h g b).steady = (b.now, b.tim, b.pos, b.stk,
    fun k => if k = h then withFrame g (b.openFrames h) else b.openFrames k) := by
  have frames : (setFrame h g b).openFrames = _ := funext (openFrames_setFrame h g b)
  rw [Block.steady, frames]
  rfl

/-- What the view shows of a block with a frame replaced rests on what it shows of the block. -/
theorem closeView_setFrame_congr {b c : Block} (e : c.closeView = b.closeView) (h : Nat) (g : Frame) :
    (setFrame h g c).closeView = (setFrame h g b).closeView := by
  refine closeView_of ?_ ((syncs_of_closeView e : c.syncs = b.syncs)) fun off ho => rd_of_closeView e ho
  obtain ⟨now, tim, pos, stk, frames⟩ : c.now = b.now ∧ c.tim = b.tim ∧ c.pos = b.pos ∧ c.stk = b.stk ∧
      c.openFrames = b.openFrames := by
    simpa only [Block.steady, Prod.mk.injEq] using steady_of_closeView e
  rw [steady_setFrame, steady_setFrame, now, tim, pos, stk, frames]

/-- A counter that the view shows advances alike. -/
theorem closeView_inc_congr {b c : Block} (e : c.closeView = b.closeView) {off : Nat} (shown : ¬ notClose off) (hi lo n : Nat) :
    (c.inc off hi lo n).closeView = (b.inc off hi lo n).closeView := by
  refine closeView_of ?_ ((syncs_of_closeView e : c.syncs = b.syncs)) fun k hk => ?_
  · rw [Block.steady_of_core (Block.core_inc _ off hi lo n), Block.steady_of_core (Block.core_inc _ off hi lo n)]
    exact steady_of_closeView e
  · rw [Block.rd_inc, Block.rd_inc, Block.fld, Block.fld, rd_of_closeView e shown, rd_of_closeView e hk]

theorem sameFrame_advanceSnap (f : Frame) (sn : Snap) (lvl : Nat) :
    (f.advanceSnap sn lvl).id = f.id ∧ (f.advanceSnap sn lvl).st = f.st := by
  unfold Frame.advanceSnap
  split
  · exact ⟨rfl, rfl⟩
  · split <;> exact ⟨rfl, rfl⟩

theorem sameFrame_advanceOpen (h : Nat) (f : Frame) (b : Block) :
    (advanceOpen h f b).id = f.id ∧ (advanceOpen h f b).st = f.st := by
  unfold advanceOpen
  split
  · dsimp only
    generalize (if min (_ + 3) (f.rows - 1) ≤ _ || f.st != .open_ then 3 else if min (_ + 2) (f.rows - 1) ≤ _ then 2 else 1) = lvl
    by_cases moves : (decide (f.snapLvl < lvl) && f.snapLvl != 0) = true
    · rw [if_pos moves]
      exact sameFrame_advanceSnap f _ lvl
    · rw [if_neg moves]
      exact ⟨rfl, rfl⟩
  · exact ⟨rfl, rfl⟩

/-- The block with a frame that ends without a trailer counted (R83). -/
def trailerMissed (h : Nat) (tr : Option TrailerPacket) (b : Block) : Block :=
  if tr.isNone then b.inc (Reg.HD_CNT_E h) 15 0 1 else b

/-- What a frame's own reading, or the want of one, makes of the head's readings and forecast (R113, R119). -/
def readingTaken (h sub : Nat) (own : Option Reading) (b : Block) : Block :=
  match own with
  | some r => calDrift h r.t.toNat (addReading h r (completeWaiting h sub r b))
  | none => refreshForecast h (b.curPipe h) b

theorem closeView_readingTaken {h : Nat} (hh : h < 24) (sub : Nat) (own : Option Reading) (b : Block) :
    (readingTaken h sub own b).closeView = b.closeView := by
  unfold readingTaken
  split
  · rw [closeView_calDrift _ hh, closeView_addReading, closeView_completeWaiting]
  · exact closeView_refreshForecast _ _ _

/-- The open frame of a head ends: it is open no more, and is counted where it has no trailer. -/
theorem closeView_endFrame {h : Nat} (hh : h < 24) {b : Block} {f : Frame} (opened : (b.hd h).openFrame = some f)
    (tr : Option TrailerPacket) : ∃ g : Frame, g.id = f.id ∧ g.st ≠ .open_ ∧
      (endFrame h tr b).closeView = (setFrame h g (trailerMissed h tr b)).closeView := by
  unfold endFrame
  rw [opened]
  dsimp -zeta only
  extract_lets sub at_ own short closed short' long' missed adv issued done items shown ended
  obtain ⟨id, st⟩ := sameFrame_advanceOpen h closed missed
  have notOpen : closed.st ≠ .open_ := by
    change (if own.isSome = true then FState.closed else FState.waiting) ≠ _
    split <;> decide
  have h1 : long'.closeView = b.closeView := closeView_mayDo (closeView_inc _ (by grind) _ _ _)
    (closeView_ite (closeView_inc b (by grind) _ _ _) rfl)
  have h2 : missed.closeView = (trailerMissed h tr b).closeView := by
    change (if tr.isNone = true then long'.inc (Reg.HD_CNT_E h) 15 0 1 else long').closeView = _
    unfold trailerMissed
    split
    · exact closeView_inc_congr h1 (by grind) _ _ _
    · exact h1
  have h3 : issued.closeView = missed.closeView := closeView_issueFrameItems _ hh _ (by decide)
  have h4 : items.closeView = missed.closeView := closeView_mayDo (closeView_issueFrameItems _ hh _ (by decide)) h3
  have h5 : shown.closeView = (setFrame h { adv with items := done } (trailerMissed h tr b)).closeView :=
    closeView_setFrame_congr (h4.trans h2) h _
  have h6 : ended.closeView = shown.closeView := closeView_readingTaken hh sub own shown
  refine ⟨{ adv with items := done }, id, fun e => notOpen (st.symm.trans e), ?_⟩
  exact closeView_mayDo (closeView_residueCheck _ _ _) (h6.trans h5)

/-- The open frame of a head closes (R22, R83). -/
theorem closeView_closeFrame {h : Nat} (hh : h < 24) {b : Block} {f : Frame} (opened : (b.hd h).openFrame = some f)
    (tr : Option TrailerPacket) : ∃ g : Frame, g.id = f.id ∧ g.st ≠ .open_ ∧
      (closeFrame h tr b).closeView = (setFrame h g (trailerMissed h tr b)).closeView := by
  obtain ⟨g, id, st, ended⟩ := closeView_endFrame hh opened tr
  refine ⟨g, id, st, ?_⟩
  rw [closeFrame, Block.frameOpen, opened]
  exact (closeView_boundary _ hh).trans ended

/-- What of a closed frame's head the view shows: the frame is open no more, the counter of frames without a trailer has
advanced where it had none, and all else is as it was. -/
structure FrameClosed (h : Nat) (f : Frame) (tr : Option TrailerPacket) (a b : Block) : Prop where
  closed : ∀ g ∈ (b.hd h).frames, g.id = f.id → g.st ≠ .open_
  now : b.now = a.now
  tim : b.tim = a.tim
  pos : b.pos = a.pos
  stk : b.stk = a.stk
  syncs : b.syncs = a.syncs
  rd : ∀ off, ¬ notClose off → b.rd off = (trailerMissed h tr a).rd off

theorem frameClosed_closeFrame {h : Nat} (hh : h < 24) {b : Block} {f : Frame} (opened : (b.hd h).openFrame = some f)
    (tr : Option TrailerPacket) : FrameClosed h f tr b (closeFrame h tr b) := by
  obtain ⟨g, id, st, view⟩ := closeView_closeFrame hh opened tr
  have core : (trailerMissed h tr b).core = b.core := by
    unfold trailerMissed
    split
    · exact Block.core_inc _ _ _ _ _
    · rfl
  have steady := steady_of_closeView view
  rw [steady_setFrame] at steady
  obtain ⟨now, tim, pos, stk, frames⟩ : _ ∧ _ ∧ _ ∧ _ ∧ _ := by simpa only [Block.steady, Prod.mk.injEq] using steady
  obtain ⟨now', tim', pos', stk', -⟩ : (trailerMissed h tr b).now = b.now ∧ (trailerMissed h tr b).tim = b.tim ∧
      (trailerMissed h tr b).pos = b.pos ∧ (trailerMissed h tr b).stk = b.stk ∧ _ := by
    simpa only [Block.steady, Prod.mk.injEq] using Block.steady_of_core core
  refine ⟨fun e m same isOpen => ?_, now.trans now', tim.trans tim', pos.trans pos', stk.trans stk',
    (syncs_of_closeView view).trans (show (trailerMissed h tr b).syncs = b.syncs from syncs_of_ports (Block.ports_of_core core)), fun off ho => rd_of_closeView view ho⟩
  have shown : (e.id, e.st == .open_) ∈ (closeFrame h tr b).openFrames h := List.mem_map.mpr ⟨e, m, rfl⟩
  rw [frames] at shown
  obtain ⟨x, -, hx⟩ := List.mem_map.mp ((congrArg ((e.id, e.st == .open_) ∈ ·) (if_pos rfl)).mp shown)
  split at hx
  · simp_all
  · next other =>
    subst hx
    exact other (same.trans id.symm)

end Sys2Proof.Machine

namespace Sys2Proof.Machine

/-! ### A load starts, the link comes up and goes down (R75, R78, R79) -/

section
variable (b : Block)

@[simp] theorem closeView_dropLoad (h : Nat) : (dropLoad h b).closeView = b.closeView :=
  (closeView_of_linkView (linkView_dropLoad h b)).trans (closeView_setPort b rfl)

/-- The port of a load that starts (R78). -/
def loadStarted (h : Nat) (b : Block) : HdPort :=
  { b.port h with
    load := some { hdr := none, carat := [], table := [], asked := 0, got := 0,
                   deadline := b.now + max 1 (b.fld (Reg.HD_LINK_CTL h) 15 8) * 100 * tuMs }
    heldReload := false, relink := false }

theorem startLoad_eq (h : Nat) : startLoad h b =
    let c := dropLoad h (b.clrBit (Reg.HD_LINK_STAT h) 4)
    readFlash h 0 256 .header (setPortCmd h .bringup (c.setPort h (loadStarted h c))) := rfl

theorem closeView_startLoad (h : Nat) : (startLoad h b).closeView = (b.clrBit (Reg.HD_LINK_STAT h) 4).closeView := by
  rw [startLoad_eq]
  dsimp only [readFlash, setPortCmd]
  rw [closeView_queueCmd, closeView_queueCmd, closeView_setPort _ (by rfl), closeView_dropLoad]

/-- The SHUTTER open that an abandoned run owes is sent (R229). -/
def owedOpened (h : Nat) (b : Block) : Block :=
  if (b.hd h).cal.openOwed then calShutter h false (b.setHd h { b.hd h with cal := { (b.hd h).cal with openOwed := false } }) else b

theorem closeView_owedOpened (h : Nat) : (owedOpened h b).closeView = b.closeView :=
  closeView_ite ((closeView_calShutter _ _ _).trans (closeView_setHd_frames b (by rfl))) rfl

/-- A link that comes up shows so; where a load starts, the head reads as not READY. -/
theorem closeView_linkComesUp (h : Nat) : (linkComesUp h b).closeView = (b.setBit (Reg.HD_LINK_STAT h) 3).closeView ∨
    (linkComesUp h b).closeView = ((b.setBit (Reg.HD_LINK_STAT h) 3).clrBit (Reg.HD_LINK_STAT h) 4).closeView := by
  generalize hc : b.setBit (Reg.HD_LINK_STAT h) 3 = c
  have loads : (owedOpened h (startLoad h c)).closeView = (c.clrBit (Reg.HD_LINK_STAT h) 4).closeView :=
    (closeView_owedOpened _ h).trans (closeView_startLoad c h)
  have body : linkComesUp h b = if (c.port h).heldReload && !c.bound h then owedOpened h (startLoad h c)
      else if c.ready h || c.bound h then
        let d := owedOpened h (setPortCmd h .bringup (dropLoad h c))
        readFlash h 0 256 .relink (d.setPort h { d.port h with relink := true, load := none })
      else if c.bit (Reg.HD_LINK_CTL h) 1 then owedOpened h (startLoad h c)
      else owedOpened h (setPortCmd h .bringup c) := by
    subst hc
    rfl
  rw [body]
  split
  · exact .inr loads
  · split
    · left
      dsimp only [readFlash, setPortCmd]
      rw [closeView_queueCmd, closeView_setPort _ (by rfl), closeView_owedOpened, closeView_queueCmd, closeView_dropLoad]
    · split
      · exact .inr loads
      · left
        dsimp only [setPortCmd]
        rw [closeView_owedOpened, closeView_queueCmd]

end

/-- The registers of a port whose link goes down, before its frame closes (R75). -/
def downShown (h : Nat) (b : Block) : Block := (b.clrBit (Reg.HD_LINK_STAT h) 3).inc (Reg.HD_CNT_G h) 31 16 1

/-- From block `a` to `b`, the clock, the sync headers and the registers that the view shows are kept, but for the counter of
port `h`'s frames without a trailer. -/
structure PortKept (h : Nat) (a b : Block) : Prop where
  now : b.now = a.now
  syncs : b.syncs = a.syncs
  rd : ∀ off, ¬ notClose off → off ≠ Reg.HD_CNT_E h → b.rd off = a.rd off

namespace PortKept

variable {h : Nat} {a b c : Block}

theorem of_closeView (e : b.closeView = a.closeView) : PortKept h a b :=
  ⟨now_of_steady (steady_of_closeView e), syncs_of_closeView e, fun _ ho _ => rd_of_closeView e ho⟩

theorem trans (k : PortKept h a b) (l : PortKept h b c) : PortKept h a c :=
  ⟨l.now.trans k.now, l.syncs.trans k.syncs, fun off ho other => (l.rd off ho other).trans (k.rd off ho other)⟩

theorem closeFrame (hh : h < 24) (b : Block) : PortKept h b (closeFrame h none b) := by
  cases opened : (b.hd h).openFrame with
  | none =>
    have shut : Machine.closeFrame h none b = b := by
      rw [Machine.closeFrame, Block.frameOpen, opened]
      rfl
    rw [shut]
    exact ⟨rfl, rfl, fun _ _ _ => rfl⟩
  | some f =>
    have closed := frameClosed_closeFrame hh opened none
    exact ⟨closed.now, closed.syncs, fun off ho other => (closed.rd off ho).trans (Block.rd_inc_other other _ _ _)⟩

theorem linkGoesDown (hh : h < 24) (b : Block) : PortKept h (downShown h b) (linkGoesDown h b) := by
  have closed : PortKept h (downShown h b) (Machine.closeFrame h none (calAbandon h (downShown h b))) :=
    (of_closeView (closeView_calAbandon _ hh)).trans (.closeFrame hh _)
  unfold Machine.linkGoesDown
  dsimp only
  split
  · exact closed.trans (of_closeView (closeView_raiseBit _ 6))
  · exact closed

end PortKept

theorem now_downShown (h : Nat) (b : Block) : (downShown h b).now = b.now := rfl

theorem syncs_downShown (h : Nat) (b : Block) : (downShown h b).syncs = b.syncs := rfl

theorem stat_downShown (h : Nat) (b : Block) :
    (downShown h b).rd (Reg.HD_LINK_STAT h) = setFieldOf (b.rd (Reg.HD_LINK_STAT h)) 3 3 0 := by
  rw [downShown, Block.rd_inc_other (by grind), Block.rd_clrBit, if_pos rfl]

theorem headersLost_downShown (h : Nat) (b : Block) :
    (downShown h b).fld (Reg.HD_CNT_G h) 15 0 = b.fld (Reg.HD_CNT_G h) 15 0 := by
  rw [downShown, Block.fld, Block.rd_inc, if_pos rfl, fieldOf_setFieldOf_other _ _ _ _ _ _ (by decide) (by decide) (by decide),
    Block.rd_clrBit_other (by grind)]
  rfl

/-- What of a port the link's refresh leaves: all but whether it is up, and READY, with the frames and loads of that. -/
structure Refreshed (h : Nat) (a b : Block) : Prop where
  now : b.now = a.now
  syncs : b.syncs = a.syncs
  ctl : b.rd (Reg.HD_LINK_CTL h) = a.rd (Reg.HD_LINK_CTL h)
  stat : ∀ i, i ≠ 3 → i ≠ 4 → b.bit (Reg.HD_LINK_STAT h) i = a.bit (Reg.HD_LINK_STAT h) i
  headersLost : b.fld (Reg.HD_CNT_G h) 15 0 = a.fld (Reg.HD_CNT_G h) 15 0

theorem Refreshed.refl (h : Nat) (b : Block) : Refreshed h b b := ⟨rfl, rfl, rfl, fun _ _ _ => rfl, rfl⟩

section
variable {h : Nat} (hh : h < 24) (b : Block)
include hh

theorem refreshed_linkGoesDown : Refreshed h b (linkGoesDown h b) ∧ (linkGoesDown h b).linkUp h = false := by
  obtain ⟨now, syncs, rd⟩ := PortKept.linkGoesDown hh b
  have stat : (linkGoesDown h b).rd (Reg.HD_LINK_STAT h) = _ := (rd _ (by grind) (by grind)).trans (stat_downShown h b)
  refine ⟨⟨now, syncs, ?_, fun i hi _ => ?_, ?_⟩, ?_⟩
  · rw [rd _ (by grind) (by grind), downShown, Block.rd_inc_other (by grind), Block.rd_clrBit_other (by grind)]
  · rw [Block.bit, stat, bitOf_setFieldOf (by decide) (by decide), if_neg (by omega)]
    rfl
  · exact (congrArg (fieldOf · 15 0) (rd _ (by grind) (by grind))).trans (headersLost_downShown h b)
  · rw [Block.linkUp, Block.bit, stat, bitOf_setFieldOf (by decide) (by decide), if_pos (by decide)]
    rfl

theorem refreshed_linkComesUp : Refreshed h b (linkComesUp h b) ∧ (linkComesUp h b).linkUp h = true := by
  have kept {c : Block} (core : c.core = b.core) (e : (linkComesUp h b).closeView = c.closeView)
      (other : ∀ off, off ≠ Reg.HD_LINK_STAT h → c.rd off = b.rd off)
      (stat : ∀ i, i ≠ 3 → i ≠ 4 → c.bit (Reg.HD_LINK_STAT h) i = b.bit (Reg.HD_LINK_STAT h) i)
      (up : c.linkUp h = true) : Refreshed h b (linkComesUp h b) ∧ (linkComesUp h b).linkUp h = true := by
    have shown : (linkComesUp h b).rd (Reg.HD_LINK_STAT h) = c.rd (Reg.HD_LINK_STAT h) := rd_of_closeView e (by grind)
    refine ⟨⟨?_, ?_, ?_, fun i hi hi' => ?_, ?_⟩, ?_⟩
    · rw [now_of_steady (steady_of_closeView e), Block.now_of_core core]
    · rw [syncs_of_closeView e, syncs_of_ports (Block.ports_of_core core)]
    · rw [rd_of_closeView e (by grind), other _ (by grind)]
    · rw [Block.bit, shown]
      exact stat i hi hi'
    · rw [Block.fld, rd_of_closeView e (by grind), other _ (by grind)]
      rfl
    · rw [Block.linkUp, Block.bit, shown]
      exact up
  have up : (b.setBit (Reg.HD_LINK_STAT h) 3).rd (Reg.HD_LINK_STAT h) = setFieldOf (b.rd (Reg.HD_LINK_STAT h)) 3 3 1 := by
    rw [Block.rd_setBit, if_pos rfl]
  rcases closeView_linkComesUp b h with e | e
  · refine kept (Block.core_setBit _ _ _) e (fun off ho => Block.rd_setBit_other ho _) (fun i hi _ => ?_) ?_
    · rw [Block.bit, up, bitOf_setFieldOf (by decide) (by decide), if_neg (by omega)]
      rfl
    · exact Block.bit_setBit_same _ _ (by decide)
  · refine kept ?_ e (fun off ho => ?_) (fun i hi hi' => ?_) ?_
    · rw [Block.clrBit, Block.core_setFld, Block.core_setBit]
    · rw [Block.rd_clrBit_other ho, Block.rd_setBit_other ho]
    · rw [Block.bit, Block.rd_clrBit, if_pos rfl, up, bitOf_setFieldOf (by decide) (by decide), if_neg (by omega),
        bitOf_setFieldOf (by decide) (by decide), if_neg (by omega)]
      rfl
    · rw [Block.linkUp, Block.bit, Block.rd_clrBit, if_pos rfl, up, bitOf_setFieldOf (by decide) (by decide), if_neg (by omega),
        bitOf_setFieldOf (by decide) (by decide), if_pos (by decide)]
      rfl

/-- The link is up while EN is 1 and the lanes are aligned (R75). -/
theorem refreshed_refreshLink : Refreshed h b (refreshLink h b) ∧
    (refreshLink h b).linkUp h = (b.bit (Reg.HD_LINK_CTL h) 0 && b.bit (Reg.HD_LINK_STAT h) 2) := by
  unfold refreshLink
  dsimp only
  generalize (b.bit (Reg.HD_LINK_CTL h) 0 && b.bit (Reg.HD_LINK_STAT h) 2) = want
  cases up : b.linkUp h <;> cases want
  · exact ⟨.refl h b, up⟩
  · exact refreshed_linkComesUp hh b
  · exact refreshed_linkGoesDown hh b
  · exact ⟨.refl h b, up⟩

end

end Sys2Proof.Machine

namespace Sys2Proof.Machine

/-! ### Sync headers (R75) -/

/-- The last sync headers of an upstream lane are kept. -/
def keepSync (h lane : Nat) (xs : List Bool) (b : Block) : Block :=
  b.setPort h { b.port h with sync := (b.port h).sync.set (fun _ => []) lane xs }

/-- An invalid sync header counts. -/
def headerCounted (h : Nat) (s : BitVec 2) (b : Block) : Block :=
  if validSync s then b else b.inc (Reg.HD_CNT_G h) 15 0 1

/-- The last sync headers of a lane, with one more. -/
def syncsWith (h lane : Nat) (s : BitVec 2) (b : Block) : List Bool := (validSync s :: (b.port h).lastSync lane).take 64

theorem syncHeader_eq (h lane : Nat) (s : BitVec 2) (b : Block) : syncHeader h lane s b =
    let last := syncsWith h lane s b
    let c := headerCounted h s b
    let locked := c.bit (Reg.HD_LINK_STAT h) (8 + lane)
    if !locked && last.length == 64 && last.all id then keepSync h lane last (c.setBit (Reg.HD_LINK_STAT h) (8 + lane))
    else if locked && decide (16 ≤ (last.filter (!·)).length) then laneLoses h lane (keepSync h lane [] c)
    else keepSync h lane last c := rfl

theorem core_headerCounted (h : Nat) (s : BitVec 2) (b : Block) : (headerCounted h s b).core = b.core := by
  unfold headerCounted
  split
  · rfl
  · exact Block.core_inc _ _ _ _ _

theorem rd_headerCounted_other {h off : Nat} (ho : off ≠ Reg.HD_CNT_G h) (s : BitVec 2) (b : Block) :
    (headerCounted h s b).rd off = b.rd off := rd_ite rfl (Block.rd_inc_other ho _ _ _)

theorem now_keepSync (h lane : Nat) (xs : List Bool) (b : Block) : (keepSync h lane xs b).now = b.now := rfl

theorem rd_keepSync (h lane : Nat) (xs : List Bool) (b : Block) (off : Nat) : (keepSync h lane xs b).rd off = b.rd off := rfl

/-- The block with lane `lane` of port `h` out of lock, before the link follows. -/
def lockLost (h lane : Nat) (b : Block) : Block := (b.clrBit (Reg.HD_LINK_STAT h) (8 + lane)).clrBit (Reg.HD_LINK_STAT h) 2

theorem core_lockLost (h lane : Nat) (b : Block) : (lockLost h lane b).core = b.core := by
  rw [lockLost, Block.clrBit, Block.core_setFld, Block.clrBit, Block.core_setFld]

section
variable {h : Nat} (hh : h < 24)
include hh

theorem now_laneLoses (lane : Nat) (b : Block) : (laneLoses h lane b).now = b.now :=
  (refreshed_refreshLink hh (lockLost h lane b)).1.now.trans (Block.now_of_core (core_lockLost h lane b))

theorem now_syncHeader (lane : Nat) (s : BitVec 2) (b : Block) : (syncHeader h lane s b).now = b.now := by
  rw [syncHeader_eq]
  dsimp only
  have counted := Block.now_of_core (core_headerCounted h s b)
  split
  · rw [now_keepSync, Block.now_setBit, counted]
  · split
    · rw [now_laneLoses hh, now_keepSync, counted]
    · rw [now_keepSync, counted]

/-- The clock stands still while a packet's sync headers are taken. -/
theorem now_headersIn (u : Upstream) (b : Block) : (headersIn h u b).now = b.now :=
  forEach_induct (fun c : Block => c.now = b.now) _ rfl fun lane _ _ hc =>
    forEach_induct (fun d : Block => d.now = b.now) _ hc fun s _ d hd => (now_syncHeader hh lane s d).trans hd

theorem now_arrival (u : Upstream) (b : Block) : (arrival h u b).now = b.now := now_headersIn hh u b

end

/-! ### What takes a packet (R74, R75) -/

/-- A packet that is received, on a link that is up and with start blocks on all lanes, is taken by `f`. -/
theorem packetIn_of_starts {h : Nat} {u : Upstream} {f : Block → Block} {b : Block} (receives : b.receives h = true)
    (up : (arrival h u b).linkUp h = true) (starts : u.starts = true) : packetIn h u f b = f (arrival h u b) := by
  have upIn : (headersIn h u b).linkUp h = true := up
  rw [packetIn, receives, upIn, starts]
  rfl

end Sys2Proof.Machine

namespace Sys2Proof.Machine

/-! ### Trailers (R83) -/

/-- The HD_TR registers hold a trailer (R83). -/
def trailerStored (h : Nat) (p : TrailerPacket) (b : Block) : Block :=
  let b := (b.wr (Reg.HD_TR_FRAME h) p.frame).wr (Reg.HD_TR_TFPA h) p.tfpa
  let b := (b.wr (Reg.HD_TR_TSHUT h) p.tshut).wrN (Reg.HD_TR_INFO h) (p.bias.toNat * 65536 + p.shutter.toNat % 4)
  b.wr (Reg.HD_TR_HSTAT h) p.hstat

theorem rd_trailerStored (h : Nat) (p : TrailerPacket) (b : Block) :
    (trailerStored h p b).rd (Reg.HD_TR_FRAME h) = p.frame ∧ (trailerStored h p b).rd (Reg.HD_TR_TFPA h) = p.tfpa ∧
    (trailerStored h p b).rd (Reg.HD_TR_TSHUT h) = p.tshut ∧
    (trailerStored h p b).rd (Reg.HD_TR_INFO h) = BitVec.ofNat 32 (p.bias.toNat * 65536 + p.shutter.toNat % 4) ∧
    (trailerStored h p b).rd (Reg.HD_TR_HSTAT h) = p.hstat := by
  simp (disch := grind) [trailerStored, Block.rd_wr_other, Block.rd_wrN_other, Block.rd_wr_same, Block.rd_wrN]

theorem fieldOf_bias (p : TrailerPacket) :
    fieldOf (BitVec.ofNat 32 (p.bias.toNat * 65536 + p.shutter.toNat % 4)) 31 16 = p.bias.toNat := by
  have bias := p.bias.isLt
  rw [fieldOf, BitVec.toNat_ofNat]
  omega

section
variable {h : Nat} {p : TrailerPacket} {b : Block} (head : p.head.toNat = h) (bound : b.bound h = true) (ready : b.ready h = true)
include head bound ready

theorem trailerIn_eq : trailerIn h p b = if p.crcOk then
    (match (b.hd h).openFrame with
    | none => b.inc (Reg.HD_CNT_D h) 15 0 1
    | some f => if f.num != p.frame then closeFrame h none (b.inc (Reg.HD_CNT_D h) 15 0 1)
      else closeFrame h (some p) (trailerStored h p b))
    else b.inc (Reg.HD_CNT_F h) 31 16 1 := by
  have passes : ingressTests h p.head b = (true, b) := by
    rw [ingressTests, head, bound, ready]
    simp
  unfold trailerIn
  rw [passes]
  cases p.crcOk <;> rfl

theorem trailerIn_bad (bad : p.crcOk = false) : trailerIn h p b = b.inc (Reg.HD_CNT_F h) 31 16 1 := by
  rw [trailerIn_eq head bound ready, bad]
  rfl

theorem trailerIn_none (good : p.crcOk = true) (shut : b.frameOpen h = false) :
    trailerIn h p b = b.inc (Reg.HD_CNT_D h) 15 0 1 := by
  have none_ : (b.hd h).openFrame = none := by simpa [Block.frameOpen] using shut
  rw [trailerIn_eq head bound ready, good, none_]
  rfl

theorem trailerIn_own {f : Frame} (good : p.crcOk = true) (opened : (b.hd h).openFrame = some f) (own : f.num = p.frame) :
    trailerIn h p b = closeFrame h (some p) (trailerStored h p b) := by
  rw [trailerIn_eq head bound ready, good, opened]
  exact (if_pos rfl).trans (if_neg (by simp [own]))

theorem trailerIn_other {f : Frame} (good : p.crcOk = true) (opened : (b.hd h).openFrame = some f) (other : f.num ≠ p.frame) :
    trailerIn h p b = closeFrame h none (b.inc (Reg.HD_CNT_D h) 15 0 1) := by
  rw [trailerIn_eq head bound ready, good, opened]
  exact (if_pos rfl).trans (if_pos (bne_iff_ne.mpr other))

end

theorem FrameClosed.settles {h : Nat} {f : Frame} {tr : Option TrailerPacket} {a b t : Block} (c : FrameClosed h f tr a b)
    (k : Settles b t) : FrameClosed h f tr a t := by
  obtain ⟨closed, now, tim, pos, stk, syncs, rd⟩ := c
  refine ⟨?_, k.now.trans now, k.tim.trans tim, k.pos.trans pos, k.stk.trans stk,
    (syncs_of_ports k.ports).trans syncs, fun off ho => (k.rd off (by grind)).trans (rd off ho)⟩
  rwa [Block.hd, k.heads]

/-- A frame that closes without a trailer counts one more. -/
theorem FrameClosed.missed {h : Nat} (hh : h < 24) {f : Frame} {a b : Block} (c : FrameClosed h f none a b) :
    b.fld (Reg.HD_CNT_E h) 15 0 = min (a.fld (Reg.HD_CNT_E h) 15 0 + 1) 0xFFFF := by
  rw [Block.fld, c.rd _ (by grind)]
  exact Block.fld_inc_same _ _ _ _ (by decide) (by decide) _

/-- A register but the counter of frames without a trailer. -/
theorem FrameClosed.other {h off : Nat} {f : Frame} {tr : Option TrailerPacket} {a b : Block} (c : FrameClosed h f tr a b)
    (shown : ¬ notClose off) (ne : off ≠ Reg.HD_CNT_E h) : b.rd off = a.rd off :=
  (c.rd off shown).trans (rd_ite (Block.rd_inc_other ne _ _ _) rfl)

/-- A packet's effect ends a command, in the terms of the block that its arrival leaves. -/
theorem ends_trailerPacket {s : State} {h : Hd} {u : Upstream} {p : TrailerPacket} {P : Block → Prop} {c : Block}
    (on : s.blk.unitsOn = true) (receives : s.blk.receives h = true) (up : (arrival h u s.blk).linkUp h = true)
    (starts : u.starts = true) (packet : u.trailer = some p) (acts : trailerIn h p (arrival h u s.blk) = c)
    (now : c.now = (arrival h u s.blk).now) (hP : ∀ t, Settles c t → P t) : Ends (.trailerPacket h u) s P := by
  have taken : whenUnits (trailerPacketIn h u) s.blk = c := by
    rw [whenUnits_on on, trailerPacketIn, packetIn_of_starts receives up starts, packet]
    exact acts
  refine ends_of_carryOut_now (f := whenUnits (trailerPacketIn h u)) rfl ?_ fun t k => hP t (taken ▸ k)
  rw [taken, now, now_arrival h.isLt]

theorem ends_trailerTimeout {s : State} {h : Hd} {f : Frame} (on : s.blk.unitsOn = true)
    (opened : (s.blk.hd h).openFrame = some f)
    (past : (s.blk.port h).lastPkt + max 1 (s.blk.fld (Reg.HD_LINK_CTL h) 31 24) * tuMs ≤ s.blk.now) :
    Ends (.trailerTimeout h) s (FrameClosed h f none s.blk) := by
  have acts : whenUnits (trailerTimeout h) s.blk = closeFrame h none s.blk := by
    rw [whenUnits_on on, trailerTimeout, Block.frameOpen, opened]
    exact if_pos (by simpa using past)
  have closed := frameClosed_closeFrame h.isLt opened none
  refine ends_of_carryOut_now (f := whenUnits (trailerTimeout h)) rfl (by rw [acts, closed.now]) fun t k => ?_
  rw [acts] at k
  exact closed.settles k

/-- Settles O28: a trailer closes the open frame of its FRAME as its own, the open frame of another as one without; the rest
count. -/
theorem framesClose : Obligations.FramesClose := by
  unfold Obligations.FramesClose
  intro s h u p a on
  refine ⟨fun receives up starts packet head bound ready => ⟨fun f good opened own => ?_, fun f good opened other => ?_,
    fun good shut => ?_, fun bad => ?_⟩, fun f opened past => ?_⟩
  · have closed := frameClosed_closeFrame (b := trailerStored h p a) h.isLt opened (some p)
    refine ends_trailerPacket on receives up starts packet (trailerIn_own head bound ready good opened own)
      closed.now fun t k => ?_
    obtain ⟨ends, -, tim, pos, stk, -, rd⟩ := closed.settles k
    obtain ⟨frame, tfpa, tshut, info, hstat⟩ := rd_trailerStored h p a
    refine ⟨ends, (rd _ (by grind)).trans frame, (rd _ (by grind)).trans tfpa, (rd _ (by grind)).trans tshut, ?_,
      (rd _ (by grind)).trans hstat, tim, pos, stk⟩
    rw [Block.fld, rd _ (by grind)]
    exact (congrArg (fieldOf · 31 16) info).trans (fieldOf_bias p)
  · have closed := frameClosed_closeFrame (b := a.inc (Reg.HD_CNT_D h) 15 0 1) h.isLt opened none
    refine ends_trailerPacket on receives up starts packet (trailerIn_other head bound ready good opened other)
      closed.now fun t k => ?_
    have ends := closed.settles k
    refine ⟨ends.closed, ?_, ?_, ?_, ?_, ends.tim, ends.pos, ends.stk⟩
    · rw [Block.fld, ends.other (by grind) (by grind)]
      exact Block.fld_inc_same _ _ _ _ (by decide) (by decide) _
    · rw [ends.missed h.isLt, Block.fld, Block.rd_inc_other (by grind)]
      rfl
    · rw [ends.other (by grind) (by grind), Block.rd_inc_other (by grind)]
    · rw [ends.other (by grind) (by grind), Block.rd_inc_other (by grind)]
  · refine ends_trailerPacket on receives up starts packet (trailerIn_none head bound ready good shut) rfl fun t k => ?_
    refine ⟨?_, k.core.trans (Block.core_inc _ _ _ _ _), k.sameRegs fun off ho => Block.rd_inc_other (by simpa using ho) _ _ _⟩
    rw [Block.fld, k.rd _ (by grind)]
    exact Block.fld_inc_same _ _ _ _ (by decide) (by decide) _
  · refine ends_trailerPacket on receives up starts packet (trailerIn_bad head bound ready bad) rfl fun t k => ?_
    refine ⟨?_, k.core.trans (Block.core_inc _ _ _ _ _), k.sameRegs fun off ho => Block.rd_inc_other (by simpa using ho) _ _ _⟩
    rw [Block.fld, k.rd _ (by grind)]
    exact Block.fld_inc_same _ _ _ _ (by decide) (by decide) _
  · exact (ends_trailerTimeout on opened past).mono fun t closed =>
      ⟨closed.closed, closed.missed h.isLt, closed.tim, closed.pos, closed.stk⟩

end Sys2Proof.Machine

namespace Sys2Proof.Machine

/-! ### A lane locks (R75) -/

theorem lastSync_keepSync (h lane : Nat) (xs : List Bool) (b : Block) :
    ((keepSync h lane xs b).port h).lastSync lane = xs := by
  rw [keepSync, Block.port_setPort_same, HdPort.lastSync, SMap.get_set_same]

theorem core_keepSync (h lane : Nat) (xs : List Bool) (b : Block) :
    (keepSync h lane xs b).core = { b.core with ports := (keepSync h lane xs b).ports } := rfl

section
variable {h lane : Nat} {s : BitVec 2} {b : Block}

theorem lock_headerCounted : (headerCounted h s b).bit (Reg.HD_LINK_STAT h) (8 + lane) = b.bit (Reg.HD_LINK_STAT h) (8 + lane) :=
  congrArg (bitOf · (8 + lane)) (rd_headerCounted_other (by grind) s b)

/-- 64 valid headers in a row lock a lane. -/
theorem syncHeader_locks (unlocked : b.bit (Reg.HD_LINK_STAT h) (8 + lane) = false)
    (length : (syncsWith h lane s b).length = 64) (all : (syncsWith h lane s b).all id = true) :
    syncHeader h lane s b = keepSync h lane (syncsWith h lane s b) ((headerCounted h s b).setBit (Reg.HD_LINK_STAT h) (8 + lane)) := by
  rw [syncHeader_eq]
  exact if_pos (by simp [lock_headerCounted, unlocked, length, all])

/-- 16 invalid headers of the last 64 lose a lane's lock. -/
theorem syncHeader_loses (locked : b.bit (Reg.HD_LINK_STAT h) (8 + lane) = true)
    (many : 16 ≤ ((syncsWith h lane s b).filter (!·)).length) :
    syncHeader h lane s b = laneLoses h lane (keepSync h lane [] (headerCounted h s b)) := by
  rw [syncHeader_eq]
  exact (if_neg (by simp [lock_headerCounted, locked])).trans (if_pos (by simp [lock_headerCounted, locked, many]))

/-- Any other header is kept among the last. -/
theorem syncHeader_keeps
    (stays : if b.bit (Reg.HD_LINK_STAT h) (8 + lane) then ((syncsWith h lane s b).filter (!·)).length < 16
      else ¬ ((syncsWith h lane s b).length = 64 ∧ (syncsWith h lane s b).all id = true)) :
    syncHeader h lane s b = keepSync h lane (syncsWith h lane s b) (headerCounted h s b) := by
  rw [syncHeader_eq]
  dsimp only
  rw [lock_headerCounted]
  cases locked : b.bit (Reg.HD_LINK_STAT h) (8 + lane) with
  | true =>
    rw [locked, if_pos rfl] at stays
    exact (if_neg (by simp)).trans (if_neg (by simpa using stays))
  | false =>
    rw [locked, if_neg (by decide)] at stays
    exact (if_neg (by simpa [and_comm] using stays)).trans (if_neg (by simp))

end

/-- The first `n` of the listed headers, newest first, are valid. -/
def ValidFirst (n : Nat) (xs : List Bool) : Prop := ∃ ys, xs = List.replicate n true ++ ys

/-- One more valid header, of which at most 64 are kept. -/
theorem ValidFirst.cons {n : Nat} {xs : List Bool} (h : ValidFirst n xs) (hn : n < 64) :
    ValidFirst (n + 1) ((true :: xs).take 64) := by
  obtain ⟨ys, rfl⟩ := h
  refine ⟨ys.take (63 - n), ?_⟩
  rw [← List.cons_append, ← List.replicate_succ, List.take_append, List.take_of_length_le (by simp; omega)]
  simp

/-- 64 valid headers fill the list. -/
theorem ValidFirst.full {xs : List Bool} (h : ValidFirst 64 (xs.take 64)) : (xs.take 64).length = 64 ∧ (xs.take 64).all id := by
  obtain ⟨ys, e⟩ := h
  have length := congrArg List.length e
  simp only [List.length_append, List.length_replicate, List.length_take] at length
  obtain rfl : ys = [] := List.eq_nil_of_length_eq_zero (by omega)
  rw [e]
  simp

/-- Lane `lane` of port `h` after `n` valid headers on an unlocked lane of `b`: it is locked, or they are the last it had. -/
structure Locking (h lane n : Nat) (b c : Block) : Prop where
  core : c.core = { b.core with ports := c.ports }
  rd : ∀ off, off ≠ Reg.HD_LINK_STAT h → c.rd off = b.rd off
  lane : c.bit (Reg.HD_LINK_STAT h) (8 + lane) = true ∧ (((c.port h).lastSync lane).all id) = true ∨
    c.bit (Reg.HD_LINK_STAT h) (8 + lane) = false ∧ n < 64 ∧ ValidFirst n ((c.port h).lastSync lane)

theorem Locking.syncHeader {h lane n : Nat} (hl : lane < 4) {b c : Block} (k : Locking h lane n b c) {s : BitVec 2}
    (valid : validSync s = true) : Locking h lane (n + 1) b (syncHeader h lane s c) := by
  obtain ⟨core, rd, held⟩ := k
  have counted : headerCounted h s c = c := if_pos valid
  have last : syncsWith h lane s c = (true :: (c.port h).lastSync lane).take 64 := by rw [syncsWith, valid]
  have kept (xs : List Bool) : (keepSync h lane xs c).core = { b.core with ports := (keepSync h lane xs c).ports } := by
    rw [core_keepSync, core]
  rcases held with ⟨locked, all⟩ | ⟨unlocked, short, first⟩
  · have fresh : ∀ x ∈ syncsWith h lane s c, x = true := fun x m => by
      rw [last] at m
      rcases List.mem_cons.mp (List.mem_of_mem_take m) with rfl | m
      · rfl
      · exact List.all_eq_true.mp all x m
    have good : (syncsWith h lane s c).filter (!·) = [] := List.filter_eq_nil_iff.mpr fun x m => by simp [fresh x m]
    rw [syncHeader_keeps (by simp [locked, good]), counted]
    exact ⟨kept _, rd, .inl ⟨locked, by rw [lastSync_keepSync]; exact List.all_eq_true.mpr fresh⟩⟩
  · have next : ValidFirst (n + 1) (syncsWith h lane s c) := last ▸ first.cons short
    by_cases full : (syncsWith h lane s c).length = 64 ∧ (syncsWith h lane s c).all id = true
    · rw [syncHeader_locks unlocked full.1 full.2, counted]
      refine ⟨?_, fun off ho => ?_, .inl ⟨Block.bit_setBit_same _ _ (by omega), ?_⟩⟩
      · rw [core_keepSync, Block.core_setBit, core]
      · rw [rd_keepSync, Block.rd_setBit_other ho, rd off ho]
      · rw [lastSync_keepSync]
        exact full.2
    · have more : n + 1 < 64 := by
        refine Nat.lt_of_le_of_ne short fun e => full ?_
        rw [e, last] at next
        exact last ▸ next.full
      rw [syncHeader_keeps (by simpa [unlocked] using full), counted]
      exact ⟨kept _, rd, .inr ⟨unlocked, more, by rw [lastSync_keepSync]; exact next⟩⟩

theorem Locking.forEach {h lane n : Nat} (hl : lane < 4) {b c : Block} (k : Locking h lane n b c) {xs : List (BitVec 2)}
    (valid : ∀ s ∈ xs, validSync s = true) :
    Locking h lane (n + xs.length) b (Machine.forEach xs (Machine.syncHeader h lane) c) := by
  induction xs generalizing n c with
  | nil => exact k
  | cons s xs ih =>
    rw [forEach_cons, List.length_cons, Nat.add_comm xs.length, ← Nat.add_assoc]
    exact ih (k.syncHeader hl (valid s List.mem_cons_self)) fun x m => valid x (List.mem_cons_of_mem _ m)

end Sys2Proof.Machine

namespace Sys2Proof.Machine

/-! ### A lane loses its lock (R75) -/

/-- The link of port `h` and lane `lane` are down: the lane is out of lock, and the lanes out of alignment. -/
structure LaneDown (h lane : Nat) (b : Block) : Prop where
  lock : b.bit (Reg.HD_LINK_STAT h) (8 + lane) = false
  aligned : b.bit (Reg.HD_LINK_STAT h) 2 = false
  up : b.linkUp h = false

theorem LaneDown.of_rd {h lane : Nat} {b c : Block} (d : LaneDown h lane b)
    (e : c.rd (Reg.HD_LINK_STAT h) = b.rd (Reg.HD_LINK_STAT h)) : LaneDown h lane c := by
  obtain ⟨lock, aligned, up⟩ := d
  refine ⟨?_, ?_, ?_⟩
  · rwa [Block.bit, e]
  · rwa [Block.bit, e]
  · rwa [Block.linkUp, Block.bit, e]

theorem rd_lockLost (h lane : Nat) (b : Block) (off : Nat) : (lockLost h lane b).rd off =
    if off = Reg.HD_LINK_STAT h then setFieldOf (setFieldOf (b.rd off) (8 + lane) (8 + lane) 0) 2 2 0 else b.rd off := by
  simp only [lockLost, Block.rd_clrBit, if_true]
  split
  · next e => rw [e]
  · rfl

section
variable {h lane : Nat} (hh : h < 24) (hl : lane < 4)
include hh hl

theorem laneDown_laneLoses (b : Block) : LaneDown h lane (laneLoses h lane b) ∧ (laneLoses h lane b).syncs = b.syncs ∧
    (laneLoses h lane b).fld (Reg.HD_CNT_G h) 15 0 = b.fld (Reg.HD_CNT_G h) 15 0 := by
  obtain ⟨⟨-, syncs, -, stat, lost⟩, up⟩ := refreshed_refreshLink hh (lockLost h lane b)
  have shown := (rd_lockLost h lane b (Reg.HD_LINK_STAT h)).trans (if_pos rfl)
  have aligned : (lockLost h lane b).bit (Reg.HD_LINK_STAT h) 2 = false := by
    simp [Block.bit, shown, bitOf_setFieldOf]
  refine ⟨⟨?_, ?_, ?_⟩, ?_, ?_⟩
  · refine (stat (8 + lane) (by omega) (by omega)).trans ?_
    rw [Block.bit, shown, bitOf_setFieldOf (by decide) (by decide), if_neg (by omega), bitOf_setFieldOf (by omega) (by omega),
      if_pos (by omega)]
    simp
  · exact (stat 2 (by decide) (by decide)).trans aligned
  · exact up.trans (by rw [aligned, Bool.and_false])
  · exact syncs.trans (syncs_of_ports (Block.ports_of_core (core_lockLost h lane b)))
  · refine lost.trans ?_
    rw [Block.fld, rd_lockLost, if_neg (by grind)]
    rfl

/-- Lane `lane` of port `h` after `n` headers, `m` of them invalid, on a locked lane of `b`: it has kept its lock, or lost it
for good. -/
structure Losing (h lane n m : Nat) (b c : Block) : Prop where
  count : c.fld (Reg.HD_CNT_G h) 15 0 = min (b.fld (Reg.HD_CNT_G h) 15 0 + m) 0xFFFF
  lane : LaneDown h lane c ∧ ((c.port h).lastSync lane).length < n ∨
    c.bit (Reg.HD_LINK_STAT h) (8 + lane) = true ∧ m < 16 ∧
      ∃ xs ys, (c.port h).lastSync lane = xs ++ ys ∧ xs.length = n ∧ (xs.filter (!·)).length = m

omit hh hl in
theorem lastSync_of_syncs {a b : Block} (e : b.syncs = a.syncs) (h lane : Nat) :
    (b.port h).lastSync lane = (a.port h).lastSync lane :=
  congrArg (fun m : SMap (List Bool) => m.get (fun _ => []) lane) (congrFun e h)

omit hh hl in
theorem count_headerCounted (s : BitVec 2) (b : Block) : (headerCounted h s b).fld (Reg.HD_CNT_G h) 15 0 =
    min (min (b.fld (Reg.HD_CNT_G h) 15 0) 0xFFFF + b2n (!validSync s)) 0xFFFF := by
  have field : b.fld (Reg.HD_CNT_G h) 15 0 < 2 ^ 16 := fieldOf_lt_of_width _ _ _
  unfold headerCounted
  cases validSync s with
  | true =>
    change b.fld (Reg.HD_CNT_G h) 15 0 = min (_ + 0) _
    omega
  | false =>
    refine (Block.fld_inc_same _ _ _ _ (by decide) (by decide) _).trans ?_
    change min (_ + 1) 65535 = min (_ + 1) _
    omega

theorem Losing.syncHeader {n m : Nat} {b c : Block} (k : Losing h lane n m b c) (hn : n < 64) (s : BitVec 2) :
    Losing h lane (n + 1) (m + b2n (!validSync s)) b (syncHeader h lane s c) := by
  obtain ⟨count, held⟩ := k
  have counted : (headerCounted h s c).fld (Reg.HD_CNT_G h) 15 0 =
      min (b.fld (Reg.HD_CNT_G h) 15 0 + (m + b2n (!validSync s))) 0xFFFF := by
    rw [count_headerCounted, count]
    clear held
    omega
  have stat : (headerCounted h s c).rd (Reg.HD_LINK_STAT h) = c.rd (Reg.HD_LINK_STAT h) := rd_headerCounted_other (by grind) s c
  rcases held with ⟨down, short⟩ | ⟨locked, few, xs, ys, last, length, invalid⟩
  · have few : (syncsWith h lane s c).length < n + 1 := by
      rw [syncsWith, List.length_take, List.length_cons]
      omega
    have stays := syncHeader_keeps (h := h) (lane := lane) (s := s) (b := c) (by rw [down.lock, if_neg (by decide)]; omega)
    rw [stays]
    exact ⟨counted, .inl ⟨down.of_rd stat, by rw [lastSync_keepSync]; exact few⟩⟩
  · have next : syncsWith h lane s c = (validSync s :: xs) ++ ys.take (63 - n) := by
      rw [syncsWith, last, ← List.cons_append, List.take_append, List.take_of_length_le (by simp; omega)]
      simp [length]
    have invalid' : ((validSync s :: xs).filter (!·)).length = m + b2n (!validSync s) := by
      rw [← invalid]
      cases validSync s <;> rfl
    by_cases many : 16 ≤ ((syncsWith h lane s c).filter (!·)).length
    · obtain ⟨down, syncs, lost⟩ := laneDown_laneLoses hh hl (keepSync h lane [] (headerCounted h s c))
      rw [syncHeader_loses locked many]
      refine ⟨lost.trans counted, .inl ⟨down, ?_⟩⟩
      rw [lastSync_of_syncs syncs, lastSync_keepSync]
      exact Nat.succ_pos n
    · have fewer : m + b2n (!validSync s) < 16 := by
        rw [next, List.filter_append, List.length_append, invalid'] at many
        omega
      have stays := syncHeader_keeps (h := h) (lane := lane) (s := s) (b := c)
        (by rw [locked, if_pos rfl]; exact Nat.lt_of_not_le many)
      rw [stays]
      have lock : (keepSync h lane (syncsWith h lane s c) (headerCounted h s c)).bit (Reg.HD_LINK_STAT h) (8 + lane) = true := by
        rw [Block.bit, rd_keepSync, stat]
        exact locked
      exact ⟨counted, .inr ⟨lock, fewer, validSync s :: xs, ys.take (63 - n),
        (lastSync_keepSync h lane _ _).trans next, by rw [List.length_cons, length], invalid'⟩⟩

theorem Losing.forEach {n m : Nat} {b c : Block} (k : Losing h lane n m b c) {xs : List (BitVec 2)} (hn : n + xs.length ≤ 64) :
    Losing h lane (n + xs.length) (m + (xs.filter fun s => !validSync s).length) b
      (Machine.forEach xs (Machine.syncHeader h lane) c) := by
  induction xs generalizing n m c with
  | nil => exact k
  | cons s xs ih =>
    rw [List.length_cons] at hn
    have rest := ih (k.syncHeader hh hl (by omega) s) (by omega)
    have length : n + (s :: xs).length = n + 1 + xs.length := by simp; omega
    have invalid : m + ((s :: xs).filter fun s => !validSync s).length =
        m + b2n (!validSync s) + (xs.filter fun s => !validSync s).length := by
      cases v : validSync s <;> simp [v, b2n]; omega
    rw [forEach_cons, length, invalid]
    exact rest

/-- 16 invalid headers among at most 64 lose a lane's lock, and each counts. -/
theorem laneDown_of_invalid {b : Block} (locked : b.bit (Reg.HD_LINK_STAT h) (8 + lane) = true) {xs : List (BitVec 2)}
    (length : xs.length ≤ 64) (many : 16 ≤ (xs.filter fun s => !validSync s).length) :
    LaneDown h lane (Machine.forEach xs (Machine.syncHeader h lane) b) ∧
      (Machine.forEach xs (Machine.syncHeader h lane) b).fld (Reg.HD_CNT_G h) 15 0 =
        min (b.fld (Reg.HD_CNT_G h) 15 0 + (xs.filter fun s => !validSync s).length) 0xFFFF := by
  have field : b.fld (Reg.HD_CNT_G h) 15 0 < 2 ^ 16 := fieldOf_lt_of_width _ _ _
  have none_ : Losing h lane 0 0 b b := ⟨by omega, .inr ⟨locked, by decide, [], _, rfl, rfl, rfl⟩⟩
  obtain ⟨count, held⟩ := none_.forEach hh hl (xs := xs) (by omega)
  rw [Nat.zero_add] at count held
  refine ⟨?_, count⟩
  rcases held with ⟨down, -⟩ | ⟨-, few, -⟩
  · exact down
  · omega

end

end Sys2Proof.Machine

namespace Sys2Proof.Machine

/-! ### The upstream lanes (R74, R75) -/

theorem Block.now_clrBit (b : Block) (off i : Nat) : (b.clrBit off i).now = b.now := Block.now_of_core (Block.core_setFld ..)

theorem Block.bit_clrBit_same (b : Block) (off : Nat) {i : Nat} (h : i < 32) : (b.clrBit off i).bit off i = false := by
  rw [Block.bit, Block.rd_clrBit, if_pos rfl, bitOf_setFieldOf h le_rfl, if_pos ⟨le_rfl, le_rfl⟩]
  simp

section
variable {s : State} {h : Hd} {c : Instr}

/-- What a command on the upstream lanes ends with, while the units run. -/
theorem ends_upstream {f : Block → Block} {u : Block} {P : Block → Prop} (hc : exec c s = carryOut (whenUnits f) s)
    (on : s.blk.unitsOn = true) (acts : f s.blk = u) (now : u.now = s.blk.now) (hP : ∀ t, Settles u t → P t) : Ends c s P := by
  have body : whenUnits f s.blk = u := (whenUnits_on on f).trans acts
  exact ends_of_carryOut_now hc (body ▸ now) fun t k => hP t (body ▸ k)

/-- What a command on the upstream lanes of a disabled port ends with. -/
theorem ends_unreceived {f : Block → Block} (hc : exec c s = carryOut (whenUnits f) s) (same : f s.blk = s.blk) :
    Ends c s fun b => b.core = s.blk.core ∧ SameRegs s.blk b [] := by
  have body : whenUnits f s.blk = s.blk := by
    unfold whenUnits
    split
    · exact same
    · rfl
  refine ends_of_carryOut_now hc (by rw [body]) fun t k => ?_
  rw [body] at k
  exact ⟨k.core, k.sameRegs fun _ _ => rfl⟩

theorem now_forEach_syncHeader (h : Hd) (lane : Nat) (xs : List (BitVec 2)) (b : Block) :
    (forEach xs (syncHeader h lane) b).now = b.now :=
  forEach_induct (fun d : Block => d.now = b.now) _ rfl fun x _ d hd => (now_syncHeader h.isLt lane x d).trans hd

theorem ends_laneHeaders {x : LaneHeaders} {P : Block → Prop} (hc : exec c s = carryOut (whenUnits (laneHeaders h x)) s)
    (on : s.blk.unitsOn = true) (receives : s.blk.receives h = true)
    (hP : ∀ t, Settles (forEach x.headers (syncHeader h x.lane) s.blk) t → P t) : Ends c s P :=
  ends_upstream hc on (if_pos receives) (now_forEach_syncHeader h x.lane x.headers s.blk) hP

theorem ends_blockLock {x : LaneHeaders} (on : s.blk.unitsOn = true) (receives : s.blk.receives h = true)
    (unlocked : s.blk.bit (Reg.HD_LINK_STAT h) (8 + x.lane) = false) (many : 64 ≤ x.headers.length)
    (valid : ∀ g ∈ x.headers, validSync g = true) :
    Ends (.blockLock h x) s fun b => b.bit (Reg.HD_LINK_STAT h) (8 + x.lane) = true ∧
      b.core = { s.blk with ports := b.ports }.core ∧ SameRegs s.blk b [Reg.HD_LINK_STAT h] := by
  refine ends_laneHeaders rfl on receives fun t k => ?_
  have start : Locking h x.lane 0 s.blk s.blk := ⟨rfl, fun _ _ => rfl, .inr ⟨unlocked, by decide, _, rfl⟩⟩
  obtain ⟨core, rd, lane⟩ := start.forEach x.lane.isLt valid
  refine ⟨?_, k.corePorts core, k.sameRegs fun off ho => rd off (by simpa using ho)⟩
  rw [Block.bit, k.rd _ (by grind)]
  rcases lane with ⟨locked, -⟩ | ⟨-, short, -⟩
  · exact locked
  · omega

theorem ends_lockLoss {x : LaneHeaders} (on : s.blk.unitsOn = true) (receives : s.blk.receives h = true)
    (locked : s.blk.bit (Reg.HD_LINK_STAT h) (8 + x.lane) = true) (few : x.headers.length ≤ 64)
    (many : 16 ≤ (x.headers.filter fun g => !validSync g).length) :
    Ends (.lockLoss h x) s fun b => b.bit (Reg.HD_LINK_STAT h) (8 + x.lane) = false ∧
      b.bit (Reg.HD_LINK_STAT h) 2 = false ∧ b.linkUp h = false ∧ b.fld (Reg.HD_CNT_G h) 15 0 =
        min (s.blk.fld (Reg.HD_CNT_G h) 15 0 + (x.headers.filter fun g => !validSync g).length) 0xFFFF := by
  refine ends_laneHeaders rfl on receives fun t k => ?_
  obtain ⟨down, count⟩ := laneDown_of_invalid h.isLt x.lane.isLt locked few many
  obtain ⟨lock, aligned, up⟩ := down.of_rd (k.rd _ (by grind))
  refine ⟨lock, aligned, up, ?_⟩
  rw [Block.fld, k.rd _ (by grind)]
  exact count

theorem ends_alignmentLoss {lane : Fin 4} (on : s.blk.unitsOn = true) (receives : s.blk.receives h = true) :
    Ends (.alignmentLoss h lane) s fun b => b.bit (Reg.HD_LINK_STAT h) 2 = false ∧ b.linkUp h = false := by
  obtain ⟨⟨now, -, -, stat, -⟩, up⟩ := refreshed_refreshLink h.isLt (s.blk.clrBit (Reg.HD_LINK_STAT h) 2)
  have aligned := Block.bit_clrBit_same s.blk (Reg.HD_LINK_STAT h) (i := 2) (by decide)
  refine ends_upstream (f := alignmentLost h) rfl on (if_pos receives) (now.trans (Block.now_clrBit ..)) fun t k => ?_
  have rd := k.rd (Reg.HD_LINK_STAT h) (by grind)
  refine ⟨?_, ?_⟩
  · rw [Block.bit, rd]
    exact (stat 2 (by decide) (by decide)).trans aligned
  · rw [Block.linkUp, Block.bit, rd]
    exact up.trans (by rw [aligned, Bool.and_false])

theorem ends_alignmentMarker {spread : Nat} (on : s.blk.unitsOn = true) (receives : s.blk.receives h = true)
    (locks : s.blk.fld (Reg.HD_LINK_STAT h) 11 8 = 15) (near : spread ≤ 4) :
    Ends (.alignmentMarker h spread) s fun b => b.bit (Reg.HD_LINK_STAT h) 2 = true ∧ b.linkUp h = true := by
  obtain ⟨⟨now, -, -, stat, -⟩, up⟩ := refreshed_refreshLink h.isLt (s.blk.setBit (Reg.HD_LINK_STAT h) 2)
  have aligned := Block.bit_setBit_same s.blk (Reg.HD_LINK_STAT h) (i := 2) (by decide)
  have enabled : (s.blk.setBit (Reg.HD_LINK_STAT h) 2).bit (Reg.HD_LINK_CTL h) 0 = true := by
    rw [Block.bit, Block.rd_setBit_other (by grind)]
    exact receives
  have acts : markersArrive h spread s.blk = refreshLink h (s.blk.setBit (Reg.HD_LINK_STAT h) 2) :=
    if_pos (by simp [receives, locks, near])
  refine ends_upstream (f := markersArrive h spread) rfl on acts (now.trans (Block.now_setBit ..)) fun t k => ?_
  have rd := k.rd (Reg.HD_LINK_STAT h) (by grind)
  refine ⟨?_, ?_⟩
  · rw [Block.bit, rd]
    exact (stat 2 (by decide) (by decide)).trans aligned
  · rw [Block.linkUp, Block.bit, rd]
    exact up.trans (by rw [aligned, enabled]; rfl)

end

/-! ### RETRAIN and RELOAD (R75, R78) -/

section
variable {s : State} {h : Hd} (hw : Writes .host s)
include hw

theorem ends_retrain : Ends (.retrain h) s fun b => (b.port h).retraining = true ∧
    (b.port h).queue = (s.blk.port h).queue ++ [{ opc := 0x08, payload := [], org := .retrain }] ∧
    b.core = { s.blk with ports := b.ports }.core ∧ SameRegs s.blk b [] := by
  have asked (b : Block) : (retrainLink h b).port h = { b.port h with
      retraining := true, queue := (b.port h).queue ++ [{ opc := 0x08, payload := [], org := .retrain }] } := by
    rw [retrainLink, queueCmd, Block.port_setPort_same, Block.port_setPort_same]
  refine ends_linkCmd hw rfl (fun o l => rfl) fun o l t k => ?_
  rw [linkCmd_retrain] at k
  refine ⟨?_, ?_, k.corePorts rfl, k.sameRegs fun off _ => rfl⟩
  · rw [k.port, asked]
  · rw [k.port, asked]
    rfl

theorem ends_reload_bound (bound : s.blk.bound h = true) :
    Ends (.reload h) s fun b => b.core = s.blk.core ∧ SameRegs s.blk b [] := by
  have same (o : List Out) (l : Trail) : linkCmd h 2 (s.blk.sending o l) = s.blk.sending o l := if_pos bound
  refine ends_linkCmd hw rfl (fun o l => by rw [same]; rfl) fun o l t k => ?_
  rw [same] at k
  exact ⟨k.core, k.sameRegs fun off _ => rfl⟩

variable (unbound : s.blk.bound h = false)
include unbound

theorem ends_reload_down (down : s.blk.linkUp h = false) : Ends (.reload h) s fun b =>
    b.port h = { s.blk.port h with heldReload := true } ∧ b.core = { s.blk with ports := b.ports }.core ∧
      SameRegs s.blk b [] := by
  have held (o : List Out) (l : Trail) : linkCmd h 2 (s.blk.sending o l) =
      (s.blk.sending o l).setPort h { s.blk.port h with heldReload := true } :=
    (if_neg (ne_true_of_eq_false unbound)).trans (if_neg (ne_true_of_eq_false down))
  refine ends_linkCmd hw rfl (fun o l => by rw [held]; rfl) fun o l t k => ?_
  rw [held] at k
  refine ⟨?_, k.corePorts rfl, k.sameRegs fun off _ => rfl⟩
  rw [k.port, Block.port_setPort_same]

end

/-- A load that starts has read nothing yet (R78). -/
theorem load_startLoad (h : Nat) (b : Block) : ∃ l, ((startLoad h b).port h).load = some l ∧ l.hdr = none ∧ l.got = 0 ∧
    l.deadline = (dropLoad h (b.clrBit (Reg.HD_LINK_STAT h) 4)).now +
      max 1 ((dropLoad h (b.clrBit (Reg.HD_LINK_STAT h) 4)).fld (Reg.HD_LINK_CTL h) 15 8) * 100 * tuMs := by
  generalize hc : dropLoad h (b.clrBit (Reg.HD_LINK_STAT h) 4) = c
  have started : ((startLoad h b).port h).load = (loadStarted h c).load := by
    rw [startLoad_eq, hc]
    dsimp only [readFlash, setPortCmd, queueCmd]
    rw [Block.port_setPort_same, Block.port_setPort_same, Block.port_setPort_same]
  exact ⟨_, started, rfl, rfl, rfl⟩

theorem ends_reload_up {s : State} {h : Hd} (hw : Writes .host s) (unbound : s.blk.bound h = false)
    (up : s.blk.linkUp h = true) : Ends (.reload h) s fun b =>
      b.bit (Reg.HD_LINK_STAT h) 4 = false ∧ ∃ l, (b.port h).load = some l ∧ l.hdr = none ∧ l.got = 0 ∧
        l.deadline = s.blk.now + max 1 (s.blk.fld (Reg.HD_LINK_CTL h) 15 8) * 100 * tuMs := by
  have starts (o : List Out) (l : Trail) : linkCmd h 2 (s.blk.sending o l) = startLoad h (s.blk.sending o l) :=
    (if_neg (ne_true_of_eq_false unbound)).trans (if_pos up)
  refine ends_linkCmd hw rfl (fun o l => ?_) fun o l t k => ?_
  · rw [starts, now_of_steady (steady_of_closeView (closeView_startLoad _ _)), Block.now_clrBit]
    rfl
  · rw [starts] at k
    obtain ⟨load, running, hdr, got, deadline⟩ := load_startLoad h (s.blk.sending o l)
    have now : (dropLoad h ((s.blk.sending o l).clrBit (Reg.HD_LINK_STAT h) 4)).now = s.blk.now := by
      rw [now_dropLoad, Block.now_clrBit]
      rfl
    have ctl : (dropLoad h ((s.blk.sending o l).clrBit (Reg.HD_LINK_STAT h) 4)).rd (Reg.HD_LINK_CTL h) =
        s.blk.rd (Reg.HD_LINK_CTL h) := by
      rw [rd_dropLoad (by grind) (by grind), Block.rd_clrBit_other (by grind)]
      rfl
    refine ⟨?_, load, by rw [k.port]; exact running, hdr, got, ?_⟩
    · rw [Block.bit, k.rd _ (by grind), rd_of_closeView (closeView_startLoad _ _) (by grind)]
      exact Block.bit_clrBit_same _ _ (by decide)
    · rw [deadline, now, Block.fld, ctl]
      rfl

/-- Settles O24: 64 valid headers lock a lane and 16 invalid ones lose it, alignment follows, and RETRAIN and RELOAD act by the
state of the port. -/
theorem linkTraining : Obligations.LinkTraining := by
  unfold Obligations.LinkTraining
  intro s h x lane spread
  refine ⟨fun on receives => ⟨ends_blockLock on receives, ends_lockLoss on receives, ends_alignmentLoss on receives,
    ends_alignmentMarker on receives⟩, fun disabled => ?_, fun hw => ⟨ends_retrain hw, ends_reload_bound hw,
    ends_reload_down hw, ends_reload_up hw⟩⟩
  have off : ¬ s.blk.receives h = true := ne_true_of_eq_false disabled
  refine ⟨ends_unreceived (f := laneHeaders h x) rfl (if_neg off), ends_unreceived (f := laneHeaders h x) rfl (if_neg off),
    ends_unreceived (f := alignmentLost h) rfl (if_neg off), ends_unreceived (f := markersArrive h spread) rfl (if_neg ?_)⟩
  simp [disabled]

end Sys2Proof.Machine

namespace Sys2Proof.Machine

/-! ### Commands that are sent (R70, R73) -/

/-- A command whose end is noted changes at most a head's run; the mirroring of that is an emission. -/
theorem core_noteSent (h : Nat) (c : HdCmd) (t : Nat) (b : Block) : ∃ x, (noteSent h c t b).core = { b.core with heads := x } := by
  have ladder : ∃ x, (ladderSent h t b).core = { b.core with heads := x } := by
    unfold ladderSent
    split
    · split
      · exact ⟨_, rfl⟩
      · exact ⟨_, rfl⟩
    · exact ⟨_, rfl⟩
  have shut (d : Block) : (mirrorShut h d).core = d.core := by
    unfold mirrorShut
    dsimp only
    split
    · split
      · exact (Settles.mirror _ d).core
      · rfl
    · rfl
  unfold noteSent
  split
  · exact ladder
  · dsimp only
    split
    · exact ⟨_, shut _⟩
    · exact ⟨_, rfl⟩
  · exact ⟨_, rfl⟩

theorem ports_noteSent (h : Nat) (c : HdCmd) (t : Nat) (b : Block) : (noteSent h c t b).ports = b.ports := by
  obtain ⟨x, e⟩ := core_noteSent h c t b
  exact (congrArg Block.ports e : (noteSent h c t b).core.ports = _)

theorem port_noteSent (h : Nat) (c : HdCmd) (t : Nat) (b : Block) (k : Nat) : (noteSent h c t b).port k = b.port k := by
  rw [Block.port, ports_noteSent, Block.port]

theorem hbm_noteSent (h : Nat) (c : HdCmd) (t : Nat) (b : Block) : (noteSent h c t b).hbm = b.hbm := by
  obtain ⟨x, e⟩ := core_noteSent h c t b
  exact (congrArg Block.hbm e : (noteSent h c t b).core.hbm = _)

/-- An outstanding command as it is sent again. -/
def sentAgain (h : Nat) (o : OutCmd) (b : Block) : OutCmd := (transmit h o b.now b).1

/-- The outstanding commands of a port with another in the place of those of its TAG. -/
def outsWith (o : OutCmd) (outs : List OutCmd) : List OutCmd := outs.map fun q => if q.tag == o.tag then o else q

theorem mem_outsWith {o p : OutCmd} {outs : List OutCmd} (m : p ∈ outs) (tag : p.tag = o.tag) : o ∈ outsWith o outs :=
  List.mem_map.mpr ⟨p, m, if_pos (beq_iff_eq.mpr tag)⟩

theorem resend_eq (h : Nat) (o : OutCmd) (b : Block) : resend h o b = noteSent h o.cmd (sentAgain h o b).ends
    ((transmit h o b.now b).2.setPort h { b.port h with outs := outsWith (sentAgain h o b) (b.port h).outs }) := rfl

/-- From block `a` to `b` an outstanding command of port `h` is sent again, and holds its place and TAG. -/
structure Resent (h : Hd) (o : OutCmd) (a b : Block) : Prop where
  sent : .command h o.cmd.opc o.tag o.cmd.payload (cmdChars o.cmd.opc o.tag o.cmd.payload) a.now ∈ b.out
  queue : (b.port h).queue = (a.port h).queue
  held : ∃ q ∈ (b.port h).outs, q.tag = o.tag ∧ q.cmd = o.cmd ∧ q.attempt = o.attempt ∧ q.waits = false
  now : b.now = a.now

theorem resent_resend (h : Hd) {o : OutCmd} {b : Block} (m : o ∈ (b.port h).outs) : Resent h o b (resend h o b) := by
  rw [resend_eq]
  have kept := LaneKept.noteSent h o.cmd (sentAgain h o b).ends
    ((transmit h o b.now b).2.setPort h { b.port h with outs := outsWith (sentAgain h o b) (b.port h).outs })
  refine ⟨?_, ?_, ⟨sentAgain h o b, ?_, rfl, rfl, rfl, rfl⟩, kept.now.trans rfl⟩
  · exact kept.out _ List.mem_cons_self
  · rw [port_noteSent, Block.port_setPort_same]
  · rw [port_noteSent, Block.port_setPort_same]
    exact mem_outsWith m rfl

theorem Resent.settles {h : Hd} {o : OutCmd} {a b t : Block} (r : Resent h o a b) (k : Settles b t) : Resent h o a t := by
  obtain ⟨sent, queue, held, now⟩ := r
  refine ⟨k.out _ sent, ?_, ?_, k.now.trans now⟩
  · rwa [k.port]
  · rwa [k.port]

/-- The next queued command as it is sent, with the port's next TAG. -/
def sentFirst (h : Nat) (c : HdCmd) (b : Block) : OutCmd × Block :=
  transmit h { cmd := c, tag := (b.port h).tag, attempt := 1, ends := 0, deadline := 0 } b.now b

/-- The port from which a command has gone out of the queue. -/
def unqueued (h : Nat) (c : HdCmd) (cs : List HdCmd) (b : Block) : HdPort :=
  { b.port h with queue := cs, outs := (b.port h).outs ++ [(sentFirst h c b).1], tag := (b.port h).tag + 1 }

section
variable {h : Hd} {b : Block} {c : HdCmd} {cs : List HdCmd} (queue : (b.port h).queue = c :: cs)
include queue

theorem sendNext_eq : sendNext h b = (sentFirst h c b).2.setPort h (unqueued h c cs b) := by
  rw [sendNext, queue]
  rfl

theorem commandSend_next (on : b.laneOn h = true) (free : b.laneFree h = true) (none_ : ∀ o ∈ (b.port h).outs, o.waits = false)
    (places : (b.port h).outs.length < 16) : commandSend h b =
      noteSent h c (sentFirst h c b).1.ends ((sentFirst h c b).2.setPort h (unqueued h c cs b)) := by
  have waiting : (b.port h).outs.find? (·.waits) = none := List.find?_eq_none.mpr fun o m => by simp [none_ o m]
  have room : ¬ (b.port h).places = 0 := by
    rw [HdPort.places]
    omega
  have last : (((sendNext h b).port h).outs).getLast? = some (sentFirst h c b).1 := by
    rw [sendNext_eq queue, Block.port_setPort_same, unqueued, List.getLast?_concat]
  rw [commandSend, on, free, waiting, queue]
  dsimp only
  rw [last]
  dsimp only
  rw [sendNext_eq queue]
  exact (if_neg (by simp)).trans (if_neg room)

end

section
variable {s : State} {h : Hd} (on : s.blk.unitsOn = true) (lane : s.blk.laneOn h = true) (free : s.blk.laneFree h = true)
include on lane free

theorem ends_commandSend_again {o : OutCmd} (waiting : (s.blk.port h).outs.find? (·.waits) = some o) :
    Ends (.commandSend h) s (Resent h o s.blk) := by
  have acts : commandSend h s.blk = resend h o s.blk := by
    rw [commandSend, lane, free, waiting]
    exact if_neg (by simp)
  have again := resent_resend h (List.mem_of_find?_eq_some waiting)
  exact ends_upstream (f := commandSend h) rfl on acts again.now fun t k => again.settles k

theorem ends_commandSend_next {c : HdCmd} {cs : List HdCmd} (none_ : ∀ o ∈ (s.blk.port h).outs, o.waits = false)
    (queue : (s.blk.port h).queue = c :: cs) (places : (s.blk.port h).outs.length < 16) :
    Ends (.commandSend h) s fun b => (b.port h).queue = cs ∧ (b.port h).tag = (s.blk.port h).tag + 1 ∧
      (∃ o, (b.port h).outs = (s.blk.port h).outs ++ [o] ∧ o.cmd = c ∧ o.tag = (s.blk.port h).tag ∧ o.attempt = 1) ∧
      .command h c.opc (s.blk.port h).tag c.payload (cmdChars c.opc (s.blk.port h).tag c.payload) s.blk.now ∈ b.out ∧
      b.pos = s.blk.pos ∧ b.tim = s.blk.tim ∧ b.stk = s.blk.stk ∧ b.hbm = s.blk.hbm := by
  have acts := commandSend_next queue lane free none_ places
  have kept := LaneKept.noteSent h c (sentFirst h c s.blk).1.ends
    ((sentFirst h c s.blk).2.setPort h (unqueued h c cs s.blk))
  refine ends_upstream (f := commandSend h) rfl on acts (kept.now.trans rfl) fun t k => ?_
  have settled := LaneKept.of_settles k h
  have port : t.port h = unqueued h c cs s.blk := by rw [k.port, port_noteSent, Block.port_setPort_same]
  refine ⟨by rw [port]; rfl, by rw [port]; rfl, ⟨(sentFirst h c s.blk).1, by rw [port]; rfl, rfl, rfl, rfl⟩,
    k.out _ (kept.out _ List.mem_cons_self), (kept.trans settled).pos.trans rfl, (kept.trans settled).tim.trans rfl,
    (kept.trans settled).stk.trans rfl, ?_⟩
  rw [k.hbm, hbm_noteSent]
  rfl

end

end Sys2Proof.Machine

namespace Sys2Proof.Machine

/-! ### Bytes in registers (R5, R85) -/

theorem ofLe_lt : ∀ xs : List Byte, ofLe xs < 256 ^ xs.length
  | [] => Nat.one_pos
  | x :: xs => by
    have rest := ofLe_lt xs
    have low := x.isLt
    rw [ofLe, List.length_cons, Nat.pow_succ]
    omega

/-- The bytes of a number that bytes spell are those. -/
theorem take_leBytes_ofLe (n : Nat) (xs : List Byte) (h : xs.length ≤ n) : (leBytes n (ofLe xs)).take xs.length = xs := by
  induction n generalizing xs with
  | zero =>
    obtain rfl := List.eq_nil_of_length_eq_zero (Nat.le_zero.mp h)
    rfl
  | succ n ih =>
    cases xs with
    | nil => rfl
    | cons x xs =>
      have low := x.isLt
      have rest : ofLe (x :: xs) / 256 = ofLe xs := by
        rw [ofLe]
        omega
      have first : BitVec.ofNat 8 (ofLe (x :: xs)) = x := BitVec.eq_of_toNat_eq (by
        rw [BitVec.toNat_ofNat, ofLe]
        omega)
      rw [leBytes, List.length_cons, List.take_succ_cons, first, rest, ih xs (Nat.le_of_succ_le_succ h)]

/-- The number in the `i`-th register that `bytes` fill. -/
def wordAt (bytes : List Byte) (i : Nat) : Nat := ofLe ((bytes.drop (4 * i)).take 4)

theorem wordAt_succ (bytes : List Byte) (i : Nat) : wordAt bytes (i + 1) = wordAt (bytes.drop 4) i := by
  rw [wordAt, wordAt, List.drop_drop, Nat.mul_succ, Nat.add_comm]

theorem wordAt_lt (bytes : List Byte) (i : Nat) : wordAt bytes i < 2 ^ 32 := by
  refine (ofLe_lt _).trans_le (Nat.pow_le_pow_right (by decide) ?_ : 256 ^ _ ≤ 256 ^ 4)
  rw [List.length_take]
  omega

theorem take_wordAt (n : Nat) (bytes : List Byte) (h : bytes.length ≤ 4 * n) :
    ((List.range n).map fun i => leBytes 4 (wordAt bytes i)).flatten.take bytes.length = bytes := by
  induction n generalizing bytes with
  | zero =>
    obtain rfl := List.eq_nil_of_length_eq_zero (Nat.le_zero.mp h)
    rfl
  | succ n ih =>
    have first : (leBytes 4 (wordAt bytes 0)).take bytes.length = bytes.take 4 := by
      have e := take_leBytes_ofLe 4 (bytes.take 4) (List.length_take_le 4 bytes)
      rw [List.length_take, ← List.take_take, List.take_of_length_le (by simp)] at e
      exact e
    have rest := ih (bytes.drop 4) (by rw [List.length_drop]; omega)
    rw [List.length_drop] at rest
    have shift : (List.range n).map ((fun i => leBytes 4 (wordAt bytes i)) ∘ Nat.succ) =
        (List.range n).map fun i => leBytes 4 (wordAt (bytes.drop 4) i) :=
      List.map_congr_left fun i _ => congrArg (leBytes 4) (wordAt_succ bytes i)
    rw [List.range_succ_eq_map, List.map_cons, List.map_map, shift, List.flatten_cons, List.take_append, first, length_leBytes,
      rest, List.take_append_drop]

theorem core_putWords (off : Nat) (bytes : List Byte) (n : Nat) (b : Block) : (putWords off bytes n b).core = b.core := by
  induction n generalizing off bytes b with
  | zero => rfl
  | succ n ih => rw [putWords, ih, Block.core_wrN]

theorem rd_putWords_other {off o : Nat} {bytes : List Byte} {n : Nat} (h : ∀ i < n, o ≠ off + 4 * i) (b : Block) :
    (putWords off bytes n b).rd o = b.rd o := by
  induction n generalizing off bytes b with
  | zero => rfl
  | succ n ih =>
    rw [putWords, ih fun i hi => by have := h (i + 1) (by omega); omega]
    exact Block.rd_wrN_other (h 0 n.succ_pos) _

theorem num_putWords {off i : Nat} {bytes : List Byte} {n : Nat} (hi : i < n) (b : Block) :
    (putWords off bytes n b).num (off + 4 * i) = wordAt bytes i := by
  induction n generalizing off bytes b i with
  | zero => omega
  | succ n ih =>
    rw [putWords]
    cases i with
    | zero =>
      rw [Block.num, rd_putWords_other fun i _ => by omega]
      exact Block.num_wrN b (wordAt_lt bytes 0)
    | succ i => rw [wordAt_succ, ← ih (Nat.lt_of_succ_lt_succ hi), Nat.mul_succ, Nat.add_comm (4 * i), ← Nat.add_assoc]

/-- Bytes that have been put into registers stand there. -/
theorem getBytes_putWords (off : Nat) (bytes : List Byte) (b : Block) :
    (putWords off bytes ((bytes.length + 3) / 4) b).getBytes off bytes.length = bytes := by
  have stored : (List.range ((bytes.length + 3) / 4)).map
      (fun i => leBytes 4 ((putWords off bytes ((bytes.length + 3) / 4) b).num (off + 4 * i))) =
      (List.range ((bytes.length + 3) / 4)).map fun i => leBytes 4 (wordAt bytes i) :=
    List.map_congr_left fun i m => congrArg (leBytes 4) (num_putWords (List.mem_range.mp m) b)
  rw [Block.getBytes, stored]
  exact take_wordAt _ _ (by omega)

theorem getBytes_congr {a b : Block} {off n : Nat} (e : ∀ i < (n + 3) / 4, b.rd (off + 4 * i) = a.rd (off + 4 * i)) :
    b.getBytes off n = a.getBytes off n := by
  have words : (List.range ((n + 3) / 4)).map (fun i => leBytes 4 (b.num (off + 4 * i))) =
      (List.range ((n + 3) / 4)).map fun i => leBytes 4 (a.num (off + 4 * i)) :=
    List.map_congr_left fun i m => by rw [Block.num, e i (List.mem_range.mp m), Block.num]
  rw [Block.getBytes, words, Block.getBytes]

/-! ### The mailbox (R73, R85) -/

/-- The length of a mailbox command, which is free where LEN is above 64, and the block once it is known. -/
def mailboxLen (h : Nat) (b : Block) : Nat × Block :=
  if b.fld (Reg.HD_CMD h) 14 8 ≤ 64 then (b.fld (Reg.HD_CMD h) 14 8, b) else (b.draw.1.toNat % 65, b.draw.2)

theorem mailboxLen_le (h : Nat) (b : Block) : (mailboxLen h b).1 ≤ 64 := by
  unfold mailboxLen
  split
  · assumption
  · exact Nat.le_of_lt_succ (Nat.mod_lt _ (by decide))

theorem mailboxLen_eq (h : Nat) (b : Block) : (mailboxLen h b).2 = { b with free := (mailboxLen h b).2.free } := by
  unfold mailboxLen
  split <;> rfl

/-- The mailbox sends a reserved command, or one that the T24 does not send itself. -/
def MailboxSends (h : Nat) (b : Block) : Prop :=
  b.fld (Reg.HD_CMD h) 7 0 = 7 ∨ 0x40 ≤ b.fld (Reg.HD_CMD h) 7 0 ∧ b.fld (Reg.HD_CMD h) 7 0 ≤ 0x7F

/-- A mailbox command as it is queued. -/
def mailboxCmd (h : Nat) (b : Block) : HdCmd :=
  ⟨BitVec.ofNat 8 (b.fld (Reg.HD_CMD h) 7 0), b.getBytes (Reg.HD_CMD_DATA h 0) (mailboxLen h b).1, .mailbox⟩

section
variable {h : Nat} {b : Block} (idle : b.bit (Reg.HD_CMD h) 31 = false)
include idle

theorem mailboxGo_sends (sends : MailboxSends h b) :
    mailboxGo h b = queueCmd h (mailboxCmd h b) ((mailboxLen h b).2.setBit (Reg.HD_CMD h) 31) := by
  have same : (mailboxLen h b).2.getBytes (Reg.HD_CMD_DATA h 0) (mailboxLen h b).1 =
      b.getBytes (Reg.HD_CMD_DATA h 0) (mailboxLen h b).1 := getBytes_congr fun i _ => by rw [mailboxLen_eq]; rfl
  have taken : mailboxGo h b = queueCmd h ⟨BitVec.ofNat 8 (b.fld (Reg.HD_CMD h) 7 0),
      (mailboxLen h b).2.getBytes (Reg.HD_CMD_DATA h 0) (mailboxLen h b).1, .mailbox⟩
      ((mailboxLen h b).2.setBit (Reg.HD_CMD h) 31) :=
    (if_neg (ne_true_of_eq_false idle)).trans (if_pos (by simpa [MailboxSends] using sends))
  rw [taken, same]
  rfl

theorem mailboxGo_refuses (refused : ¬ MailboxSends h b) : mailboxGo h b = b.setFld (Reg.HD_RSP h) 7 0 0xFE :=
  (if_neg (ne_true_of_eq_false idle)).trans (if_neg (by simpa [MailboxSends] using refused))

end

theorem Block.free_of_core {a b : Block} (e : b.core = a.core) : b.free = a.free :=
  (congrArg Block.free e : b.core.free = a.core.free)

/-- A command queued on a block that differs from `a` in its registers and its free values. -/
theorem core_queueCmd_free {a d : Block} {n : Nat} (e : d.core = { a with free := n }.core) (h : Nat) (c : HdCmd) :
    (queueCmd h c d).core = { a with ports := (queueCmd h c d).ports, free := n }.core :=
  congrArg (fun x : Block => { x with ports := (queueCmd h c d).ports }) e

/-- What a mailbox command that is sent leaves (R73). -/
structure MailboxSent (h : Hd) (a b : Block) : Prop where
  busy : b.bit (Reg.HD_CMD h) 31 = true
  regs : SameRegs a b [Reg.HD_CMD h]
  queue : (b.port h).queue = (a.port h).queue ++ [mailboxCmd h a]
  free : b.free = (mailboxLen h a).2.free
  core : b.core = { a with ports := b.ports, free := b.free }.core

theorem mailboxSent_queued (h : Hd) {a t : Block}
    (k : Settles (queueCmd h (mailboxCmd h a) ((mailboxLen h a).2.setBit (Reg.HD_CMD h) 31)) t) : MailboxSent h a t := by
  have core : ((mailboxLen h a).2.setBit (Reg.HD_CMD h) 31).core = { a with free := (mailboxLen h a).2.free }.core := by
    rw [Block.core_setBit]
    exact congrArg Block.core (mailboxLen_eq h a)
  have busy := Block.bit_setBit_same (mailboxLen h a).2 (Reg.HD_CMD h) (i := 31) (by decide)
  have rd (off : Nat) (ho : off ≠ Reg.HD_CMD h) : ((mailboxLen h a).2.setBit (Reg.HD_CMD h) 31).rd off = a.rd off := by
    rw [Block.rd_setBit_other ho, mailboxLen_eq]
    rfl
  generalize (mailboxLen h a).2.setBit (Reg.HD_CMD h) 31 = d at *
  have queued := core_queueCmd_free core h (mailboxCmd h a)
  have free : t.free = (mailboxLen h a).2.free := (Block.free_of_core (k.core.trans queued)).trans rfl
  refine ⟨?_, k.sameRegs fun off ho => rd off (by simpa using ho), ?_, free, ?_⟩
  · rw [Block.bit, k.rd _ (by grind)]
    exact busy
  · rw [k.port, queueCmd, Block.port_setPort_same, Block.port_of_core core]
    rfl
  · rw [k.core, queued, k.ports, free]

theorem mailboxLen_short {h : Nat} {b : Block} (short : b.fld (Reg.HD_CMD h) 14 8 ≤ 64) :
    mailboxLen h b = (b.fld (Reg.HD_CMD h) 14 8, b) := if_pos short

section
variable {s : State} {h : Hd} (hw : Writes .host s) (idle : s.blk.bit (Reg.HD_CMD h) 31 = false)
include hw idle

theorem ends_cmdGo_sends (sends : MailboxSends h s.blk) : Ends (.cmdGo h) s fun b =>
    b.bit (Reg.HD_CMD h) 31 = true ∧ SameRegs s.blk b [Reg.HD_CMD h] ∧
      (∃ n ≤ 64, (s.blk.fld (Reg.HD_CMD h) 14 8 ≤ 64 → n = s.blk.fld (Reg.HD_CMD h) 14 8 ∧ b.free = s.blk.free) ∧
        (b.port h).queue = (s.blk.port h).queue ++ [⟨BitVec.ofNat 8 (s.blk.fld (Reg.HD_CMD h) 7 0),
          s.blk.getBytes (Reg.HD_CMD_DATA h 0) n, .mailbox⟩]) ∧
      b.core = { s.blk with ports := b.ports, free := b.free }.core := by
  have queued (o : List Out) (l : Trail) := mailboxGo_sends (h := h) (b := s.blk.sending o l) idle sends
  refine ends_linkCmd hw rfl (fun o l => ?_) fun o l t k => ?_
  · rw [linkCmd_go, queued]
    exact (Block.now_setBit _ _ _).trans (by rw [mailboxLen_eq]; rfl)
  · rw [linkCmd_go, queued] at k
    obtain ⟨busy, regs, queue, free, core⟩ := mailboxSent_queued h k
    refine ⟨busy, regs, ⟨(mailboxLen h (s.blk.sending o l)).1, mailboxLen_le _ _, fun short => ?_, queue⟩, core⟩
    rw [mailboxLen_short (b := s.blk.sending o l) short] at free ⊢
    exact ⟨rfl, free⟩

theorem ends_cmdGo_refuses (refused : ¬ MailboxSends h s.blk) : Ends (.cmdGo h) s fun b =>
    b.fld (Reg.HD_RSP h) 7 0 = 0xFE ∧ (b.port h).queue = (s.blk.port h).queue ∧ SameRegs s.blk b [Reg.HD_RSP h] ∧
      b.core = { s.blk with ports := b.ports, free := b.free }.core := by
  have shown (o : List Out) (l : Trail) := mailboxGo_refuses (h := h) (b := s.blk.sending o l) idle refused
  have core (o : List Out) (l : Trail) : ((s.blk.sending o l).setFld (Reg.HD_RSP h) 7 0 0xFE).core = s.blk.core :=
    Block.core_setFld ..
  refine ends_linkCmd hw rfl (fun o l => ?_) fun o l t k => ?_
  · rw [linkCmd_go, shown, Block.now_of_core (core o l)]
  · rw [linkCmd_go, shown] at k
    have same := k.core.trans (core o l)
    refine ⟨?_, ?_, k.sameRegs fun off ho => ?_, ?_⟩
    · rw [Block.fld, k.rd _ (by grind), Block.rd_setFld, if_pos rfl, fieldOf_setFieldOf_same _ _ _ _ (by decide) (by decide)]
      rfl
    · rw [Block.port_of_core same]
    · exact Block.rd_setFld_other (by simpa using ho) _ _ _
    · rw [same, Block.ports_of_core same, Block.free_of_core same]

end

end Sys2Proof.Machine

namespace Sys2Proof.Machine

/-! ### Responses (R73) -/

theorem core_mailboxAnswer (h : Nat) (tag rstat : Byte) (payload : List Byte) (b : Block) :
    (mailboxAnswer h tag rstat payload b).core = b.core := by
  rw [mailboxAnswer, Block.clrBit, Block.core_setFld, core_putWords, Block.core_wrN]

/-- HD_RSP of a mailbox response: TAG, LEN and RSTAT. -/
def rspWord (tag rstat : Byte) (payload : List Byte) : Nat := tag.toNat * 65536 + min payload.length 127 * 256 + rstat.toNat

theorem fieldOf_rspWord (tag rstat : Byte) (payload : List Byte) :
    fieldOf (BitVec.ofNat 32 (rspWord tag rstat payload)) 7 0 = rstat.toNat ∧
    fieldOf (BitVec.ofNat 32 (rspWord tag rstat payload)) 14 8 = min payload.length 127 ∧
    fieldOf (BitVec.ofNat 32 (rspWord tag rstat payload)) 23 16 = tag.toNat := by
  have ht := tag.isLt
  have hr := rstat.isLt
  have hl : min payload.length 127 ≤ 127 := Nat.min_le_right _ _
  simp only [fieldOf, rspWord, BitVec.toNat_ofNat, Nat.shiftRight_eq_div_pow]
  refine ⟨?_, ?_, ?_⟩ <;> omega

/-- The mailbox of port `h` shows a response. -/
structure MailboxShows (h : Nat) (tag rstat : Byte) (payload : List Byte) (b : Block) : Prop where
  rstat : b.fld (Reg.HD_RSP h) 7 0 = rstat.toNat
  len : b.fld (Reg.HD_RSP h) 14 8 = min payload.length 127
  tag : b.fld (Reg.HD_RSP h) 23 16 = tag.toNat
  data : b.getBytes (Reg.HD_RSP_DATA h 0) (min payload.length 64) = payload.take 64
  free : b.bit (Reg.HD_CMD h) 31 = false

theorem mailboxShows_mailboxAnswer (h : Nat) (tag rstat : Byte) (payload : List Byte) (b : Block) :
    MailboxShows h tag rstat payload (mailboxAnswer h tag rstat payload b) := by
  have words : (min payload.length 64 + 3) / 4 ≤ 16 := by omega
  have length : (payload.take 64).length = min payload.length 64 := by rw [List.length_take, Nat.min_comm]
  have rsp : (mailboxAnswer h tag rstat payload b).rd (Reg.HD_RSP h) = BitVec.ofNat 32 (rspWord tag rstat payload) := by
    rw [mailboxAnswer, Block.rd_clrBit_other (by grind), rd_putWords_other fun i hi => by grind, Block.rd_wrN, if_pos rfl]
    rfl
  obtain ⟨low, mid, high⟩ := fieldOf_rspWord tag rstat payload
  refine ⟨?_, ?_, ?_, ?_, Block.bit_clrBit_same _ _ (by decide)⟩
  · rw [Block.fld, rsp, low]
  · rw [Block.fld, rsp, mid]
  · rw [Block.fld, rsp, high]
  · rw [mailboxAnswer, getBytes_congr fun i hi => Block.rd_clrBit_other (by grind) _, ← length]
    exact getBytes_putWords _ _ _

theorem MailboxShows.of_rd {h : Nat} {tag rstat : Byte} {payload : List Byte} {b t : Block}
    (m : MailboxShows h tag rstat payload b) (e : ∀ off, 0x100000 ≤ off → off < 0x118000 → t.rd off = b.rd off) (hh : h < 24) :
    MailboxShows h tag rstat payload t := by
  obtain ⟨low, mid, high, data, free⟩ := m
  have rsp := e (Reg.HD_RSP h) (by grind) (by grind)
  refine ⟨?_, ?_, ?_, ?_, ?_⟩
  · rwa [Block.fld, rsp]
  · rwa [Block.fld, rsp]
  · rwa [Block.fld, rsp]
  · rwa [getBytes_congr fun i hi => e _ (by grind) (by grind)]
  · rwa [Block.bit, e (Reg.HD_CMD h) (by grind) (by grind)]

theorem port_dropOut (h : Nat) (tag : Byte) (b : Block) :
    (dropOut h tag b).port h = (b.port h).drop b.now fun o => o.tag == tag := by
  rw [dropOut, port_of_linkView (linkView_noteEntry _ h), Block.port_setPort_same]

theorem now_dropOut (h : Nat) (tag : Byte) (b : Block) : (dropOut h tag b).now = b.now :=
  (now_of_linkView (linkView_noteEntry _ h)).trans rfl

/-- A command that is answered or given up is outstanding no more. -/
theorem tag_of_mem_dropOut {h : Nat} {tag : Byte} {b : Block} {q : OutCmd} (m : q ∈ ((dropOut h tag b).port h).outs) :
    q.tag ≠ tag := by
  rw [port_dropOut, HdPort.drop] at m
  simpa using (List.mem_filter.mp m).2

section
variable {h : Nat} {p : RspPacket} {b : Block}

theorem responseIn_bad (bad : p.crcOk = false) : responseIn h p b = b := by
  rw [responseIn, bad]
  rfl

variable (good : p.crcOk = true)
include good

theorem responseIn_unknown (none_ : ∀ o ∈ (b.port h).outs, o.tag ≠ p.tag) : responseIn h p b = b.inc (Reg.HD_CNT_H h) 15 0 1 := by
  have unknown : (b.port h).outs.find? (fun o => o.tag == p.tag) = none :=
    List.find?_eq_none.mpr fun o m => by simpa using none_ o m
  rw [responseIn, good, unknown]
  rfl

variable {o : OutCmd} (known : (b.port h).outs.find? (fun o => o.tag == p.tag) = some o)
include known

theorem responseIn_waits (waits : o.waits = true) (own : o.cmd.org ≠ .mailbox) (refused : p.rstat ≠ 0) : responseIn h p b = b := by
  rw [responseIn, good, known]
  dsimp only
  exact (if_neg (by decide)).trans ((if_pos (by simpa [own] using refused)).trans (if_pos waits))

theorem responseIn_mailbox (mailbox : o.cmd.org = .mailbox) :
    responseIn h p b = mailboxAnswer h p.tag p.rstat p.payload (dropOut h p.tag b) := by
  have tag : o.tag = p.tag := by simpa using List.find?_some known
  rw [responseIn, good, known]
  dsimp only
  refine (if_neg (by decide)).trans ((if_neg (by simp [mailbox])).trans ?_)
  rw [answered, mailbox, tag]

end

section
variable {s : State} {h : Hd} {u : Upstream} {p : RspPacket} (on : s.blk.unitsOn = true) (receives : s.blk.receives h = true)
  (up : (arrival h u s.blk).linkUp h = true) (starts : u.starts = true) (packet : u.response = some p)
include on receives up starts packet

/-- A response's effect ends a command, in the terms of the block that its arrival leaves. -/
theorem ends_responsePacket {c : Block} {P : Block → Prop} (acts : responseIn h p (arrival h u s.blk) = c)
    (now : c.now = (arrival h u s.blk).now) (hP : ∀ t, Settles c t → P t) : Ends (.responsePacket h u) s P := by
  have taken : responsePacketIn h u s.blk = c := by
    rw [responsePacketIn, packetIn_of_starts receives up starts, packet]
    exact acts
  exact ends_upstream (f := responsePacketIn h u) rfl on taken (now.trans (now_arrival h.isLt u s.blk)) hP

theorem ends_response_ignored (acts : responseIn h p (arrival h u s.blk) = arrival h u s.blk) :
    Ends (.responsePacket h u) s fun b => b.core = (arrival h u s.blk).core ∧ SameRegs (arrival h u s.blk) b [] :=
  ends_responsePacket on receives up starts packet acts rfl fun _ k => ⟨k.core, k.sameRegs fun _ _ => rfl⟩

theorem ends_response_unknown (good : p.crcOk = true) (none_ : ∀ o ∈ ((arrival h u s.blk).port h).outs, o.tag ≠ p.tag) :
    Ends (.responsePacket h u) s fun b =>
      b.fld (Reg.HD_CNT_H h) 15 0 = min ((arrival h u s.blk).fld (Reg.HD_CNT_H h) 15 0 + 1) 0xFFFF ∧
        b.core = (arrival h u s.blk).core ∧ SameRegs (arrival h u s.blk) b [Reg.HD_CNT_H h] := by
  have core := Block.core_inc (arrival h u s.blk) (Reg.HD_CNT_H h) 15 0 1
  refine ends_responsePacket on receives up starts packet (responseIn_unknown good none_) (Block.now_of_core core) fun t k => ?_
  refine ⟨?_, k.core.trans core, k.sameRegs fun off ho => Block.rd_inc_other (by simpa using ho) _ _ _⟩
  rw [Block.fld, k.rd _ (by grind)]
  exact Block.fld_inc_same _ _ _ _ (by decide) (by decide) _

theorem ends_response_mailbox {o : OutCmd} (good : p.crcOk = true)
    (known : ((arrival h u s.blk).port h).outs.find? (fun o => o.tag == p.tag) = some o) (mailbox : o.cmd.org = .mailbox) :
    Ends (.responsePacket h u) s fun b => MailboxShows h p.tag p.rstat p.payload b ∧ ∀ q ∈ (b.port h).outs, q.tag ≠ p.tag := by
  have core := core_mailboxAnswer h p.tag p.rstat p.payload (dropOut h p.tag (arrival h u s.blk))
  refine ends_responsePacket on receives up starts packet (responseIn_mailbox good known mailbox)
    ((Block.now_of_core core).trans (now_dropOut _ _ _)) fun t k => ⟨?_, fun q m => ?_⟩
  · exact (mailboxShows_mailboxAnswer _ _ _ _ _).of_rd (fun off _ _ => k.rd off (by grind)) h.isLt
  · rw [k.port, Block.port_of_core core] at m
    exact tag_of_mem_dropOut m

end

/-! ### Time-outs (R73) -/

/-- An outstanding command whose attempt has failed, as it waits for its next. -/
def retried (o : OutCmd) : OutCmd := { o with attempt := o.attempt + 1, waits := true }

/-- The block in which an outstanding command of port `h` waits for its next attempt. -/
def retryHeld (h : Nat) (o : OutCmd) (b : Block) : Block :=
  b.setPort h { b.port h with outs := outsWith (retried o) (b.port h).outs }

theorem attemptFails_retries {h : Nat} {o : OutCmd} (more : o.attempt < 4) (b : Block) : attemptFails h o b =
    if (retryHeld h o b).laneOn h && (retryHeld h o b).laneFree h then resend h (retried o) (retryHeld h o b)
    else retryHeld h o b := if_neg (Nat.not_le.mpr more)

theorem outs_retryHeld (h : Nat) (o : OutCmd) (b : Block) :
    ((retryHeld h o b).port h).outs = outsWith (retried o) (b.port h).outs := by
  rw [retryHeld, Block.port_setPort_same]

/-- A command that waits for its next attempt leaves the lane as it is. -/
theorem laneFree_retryHeld {h : Nat} {o : OutCmd} {b : Block} (own : ∀ q ∈ (b.port h).outs, q.tag = o.tag → q = o) :
    (retryHeld h o b).laneFree h = b.laneFree h := by
  have same (q : OutCmd) (m : q ∈ (b.port h).outs) : (if q.tag == (retried o).tag then retried o else q).ends = q.ends ∧
      (if q.tag == (retried o).tag then retried o else q).cmd = q.cmd := by
    by_cases tag : q.tag = o.tag
    · rw [if_pos (show (q.tag == (retried o).tag) = true from beq_iff_eq.mpr tag), own q m tag]
      exact ⟨rfl, rfl⟩
    · rw [if_neg (by simpa [retried] using tag)]
      exact ⟨rfl, rfl⟩
  have fold (f : Nat → Nat → HdCmd → Nat) : ((retryHeld h o b).port h).outs.foldl (fun t q => f t q.ends q.cmd) 0 =
      (b.port h).outs.foldl (fun t q => f t q.ends q.cmd) 0 := by
    rw [outs_retryHeld, outsWith, List.foldl_map]
    exact List.foldl_ext _ _ _ fun t q m => by rw [(same q m).1, (same q m).2]
  have ghosts : ((retryHeld h o b).port h).ghosts = (b.port h).ghosts := by rw [retryHeld, Block.port_setPort_same]
  have echoAt : ((retryHeld h o b).port h).echoAt = (b.port h).echoAt := by rw [retryHeld, Block.port_setPort_same]
  have strikeAt : ((retryHeld h o b).port h).strikeAt = (b.port h).strikeAt := by rw [retryHeld, Block.port_setPort_same]
  have start : (retryHeld h o b).laneFrom h = b.laneFrom h := by
    unfold Block.laneFrom
    dsimp only
    rw [List.foldl_append, List.foldl_append, fold fun t e c => max t (e - cmdTime c.payload.length + cmdTime (c.payload.length + 2)),
      ghosts, echoAt, strikeAt]
  rw [Block.laneFree, start, Block.laneFree]
  rfl

section
variable {s : State} {h : Hd} {o : OutCmd} (on : s.blk.unitsOn = true)
  (past : (s.blk.port h).outs.find? (fun o => !o.waits && decide (o.deadline ≤ s.blk.now)) = some o)
include on past

theorem ends_cmdTimeout_of {P : Block → Prop} {c : Block} (acts : attemptFails h o s.blk = c) (now : c.now = s.blk.now)
    (hP : ∀ t, Settles c t → P t) : Ends (.cmdTimeout h) s P := by
  refine ends_upstream (f := commandTimeout h) rfl on ?_ now hP
  rw [commandTimeout, past]
  exact acts

theorem ends_cmdTimeout_again (own : ∀ q ∈ (s.blk.port h).outs, q.tag = o.tag → q = o) (more : o.attempt < 4) :
    Ends (.cmdTimeout h) s fun b =>
      (∃ q ∈ (b.port h).outs, q.tag = o.tag ∧ q.cmd = o.cmd ∧ q.attempt = o.attempt + 1 ∧
        q.waits = !(s.blk.laneOn h && s.blk.laneFree h)) ∧
      (s.blk.laneOn h = true → s.blk.laneFree h = true →
        .command h o.cmd.opc o.tag o.cmd.payload (cmdChars o.cmd.opc o.tag o.cmd.payload) s.blk.now ∈ b.out) := by
  have lane : ((retryHeld h o s.blk).laneOn h && (retryHeld h o s.blk).laneFree h) = (s.blk.laneOn h && s.blk.laneFree h) :=
    congrArg (s.blk.laneOn h && ·) (laneFree_retryHeld own)
  have held : retried o ∈ ((retryHeld h o s.blk).port h).outs := by
    rw [outs_retryHeld]
    exact mem_outsWith (List.mem_of_find?_eq_some past) rfl
  have acts := attemptFails_retries (h := h) more s.blk
  rw [lane] at acts
  cases free : s.blk.laneOn h && s.blk.laneFree h with
  | true =>
    rw [free, if_pos rfl] at acts
    have again := resent_resend h held
    refine ends_cmdTimeout_of on past acts (again.now.trans rfl) fun t k => ?_
    obtain ⟨sent, -, ⟨q, m, tag, cmd, attempt, waits⟩, -⟩ := again.settles k
    exact ⟨⟨q, m, tag, cmd, attempt, waits⟩, fun _ _ => sent⟩
  | false =>
    rw [free, if_neg (by decide)] at acts
    refine ends_cmdTimeout_of on past acts rfl fun t k => ⟨⟨retried o, ?_, rfl, rfl, rfl, rfl⟩, fun hl hf => ?_⟩
    · rw [k.port]
      exact held
    · rw [hl, hf] at free
      exact absurd free (by decide)

end

end Sys2Proof.Machine

namespace Sys2Proof.Machine

/-! ### Commands that fail (R73) -/

/-- From block `a` to `b` the clock stands and CMD_FAIL of port `h` is kept. -/
structure FailKept (h : Nat) (a b : Block) : Prop where
  now : b.now = a.now
  failed : b.bit (Reg.HD_LINK_STAT h) 7 = a.bit (Reg.HD_LINK_STAT h) 7

/-- The block with the lanes of port `h` out of lock and alignment and their headers forgotten, before the link follows. -/
def trainsAnew (h : Nat) (b : Block) : Block :=
  ((b.setPort h { b.port h with retraining := false, sync := [] }).setFld (Reg.HD_LINK_STAT h) 11 8 0).clrBit (Reg.HD_LINK_STAT h) 2

theorem now_trainsAnew (h : Nat) (b : Block) : (trainsAnew h b).now = b.now :=
  (Block.now_clrBit ..).trans ((Block.now_of_core (Block.core_setFld ..)).trans rfl)

section
variable {h : Nat} (hh : h < 24) {a b : Block}
include hh

theorem FailKept.of_closeView (e : b.closeView = a.closeView) : FailKept h a b :=
  ⟨now_of_steady (steady_of_closeView e), congrArg (bitOf · 7) (rd_of_closeView e (by grind))⟩

theorem failKept_failLoad (cause : Nat) (b : Block) : FailKept h b (failLoad h cause b) := by
  have fails (c : Block) (e : c.closeView = b.closeView) : FailKept h b (raiseBit 5 (loadCause h cause (dropLoad h
      (c.setPort h { c.port h with load := none, relink := false })))) := by
    have left : (dropLoad h (c.setPort h { c.port h with load := none, relink := false })).closeView = b.closeView :=
      (closeView_dropLoad _ h).trans ((closeView_setPort c (by rfl)).trans e)
    generalize dropLoad h (c.setPort h { c.port h with load := none, relink := false }) = d at *
    have raised := FailKept.of_closeView hh (closeView_raiseBit (loadCause h cause d) 5)
    have kept := FailKept.of_closeView hh left
    refine ⟨raised.now.trans ((Block.now_of_core (core_loadCause h cause d)).trans kept.now), raised.failed.trans (Eq.trans ?_ kept.failed)⟩
    rw [Block.bit, rd_loadCause, if_pos rfl, bitOf_setFieldOf (by decide) (by decide), if_neg (by decide),
      bitOf_setFieldOf (by decide) (by decide), if_neg (by decide), bitOf_setFieldOf (by decide) (by decide), if_neg (by decide)]
    rfl
  have undigested_ : (undigested h b).closeView = b.closeView := by
    rw [undigested, closeView_syncDescriptor, closeView_clrBit _ (by grind), closeView_clrBit _ (by grind),
      closeView_setPort _ (by rfl)]
  by_cases running : (b.port h).load.isSome = true
  · rw [failLoad_eq running]
    exact fails _ undigested_
  · have idle : failLoad h cause b =
        raiseBit 5 (loadCause h cause (dropLoad h (b.setPort h { b.port h with load := none, relink := false }))) := by
      rw [failLoad, if_neg running]
      rfl
    rw [idle]
    exact fails b rfl

theorem failKept_retrainNow (b : Block) : FailKept h b (retrainNow h b) := by
  obtain ⟨⟨now, -, -, stat, -⟩, -⟩ := refreshed_refreshLink hh (trainsAnew h b)
  refine ⟨now.trans (now_trainsAnew h b), (stat 7 (by decide) (by decide)).trans ?_⟩
  rw [trainsAnew, Block.bit, Block.rd_clrBit, if_pos rfl, bitOf_setFieldOf (by decide) (by decide), if_neg (by decide),
    Block.rd_setFld, if_pos rfl, bitOf_setFieldOf (by decide) (by decide), if_neg (by decide)]
  rfl

end

/-- The block in which a command of port `h` has been given up, before its issuer hears of it. -/
def givenUp (h : Nat) (o : OutCmd) (b : Block) : Block := raiseBit 4 ((dropOut h o.tag b).setBit (Reg.HD_LINK_STAT h) 7)

/-- The mailbox of port `h` reads RSTAT 0xFF. -/
def mailboxFailed (h : Nat) (b : Block) : Block := (b.setFld (Reg.HD_RSP h) 7 0 0xFF).clrBit (Reg.HD_CMD h) 31

theorem core_mailboxFailed (h : Nat) (b : Block) : (mailboxFailed h b).core = b.core := by
  rw [mailboxFailed, Block.clrBit, Block.core_setFld, Block.core_setFld]

section
variable {h : Nat} (hh : h < 24) (o : OutCmd) (b : Block)
include hh

omit hh in
theorem now_givenUp : (givenUp h o b).now = b.now :=
  (now_of_linkView (linkView_raiseBit _ 4)).trans ((Block.now_setBit _ _ _).trans (now_dropOut h o.tag b))

theorem failed_givenUp : (givenUp h o b).bit (Reg.HD_LINK_STAT h) 7 = true :=
  (FailKept.of_closeView hh (closeView_raiseBit _ 4)).failed.trans (Block.bit_setBit_same _ _ (by decide))

omit hh in
theorem port_givenUp : (givenUp h o b).port h = (dropOut h o.tag b).port h :=
  (port_of_linkView (linkView_raiseBit _ 4) h).trans (Block.port_of_core (Block.core_setBit _ _ _) h)

/-- Whoever issued a command, CMD_FAIL stays set once it has been given up. -/
theorem failKept_commandFails : FailKept h (givenUp h o b) (commandFails h o b) := by
  have unfolded : commandFails h o b = match o.cmd.org with
      | .header => failLoad h 5 (givenUp h o b)
      | .section_ _ _ => failLoad h 5 (givenUp h o b)
      | .relink => failLoad h 5 (givenUp h o b)
      | .retrain => retrainNow h (givenUp h o b)
      | .mailbox => mailboxFailed h (givenUp h o b)
      | .shutter close => calFailed h close (givenUp h o b)
      | .ladder run => if run then mgEnd h 5 false (givenUp h o b) else givenUp h o b
      | _ => givenUp h o b := by rfl
  rw [unfolded]
  generalize givenUp h o b = c
  have same : FailKept h c c := ⟨rfl, rfl⟩
  cases o.cmd.org with
  | header => exact failKept_failLoad hh 5 c
  | section_ at_ len => exact failKept_failLoad hh 5 c
  | relink => exact failKept_failLoad hh 5 c
  | retrain => exact failKept_retrainNow hh c
  | mailbox =>
    refine ⟨Block.now_of_core (core_mailboxFailed h c), congrArg (bitOf · 7) ?_⟩
    rw [mailboxFailed, Block.rd_clrBit_other (by grind), Block.rd_setFld_other (by grind)]
  | shutter close => exact .of_closeView hh (closeView_calFailed c hh close)
  | ladder run => exact .of_closeView hh (closeView_ite (closeView_mgEnd c h 5 false) rfl)
  | _ => exact same

end

theorem commandFails_mailbox {h : Nat} {o : OutCmd} (mailbox : o.cmd.org = .mailbox) (b : Block) :
    commandFails h o b = mailboxFailed h (givenUp h o b) := by
  rw [commandFails, mailbox]
  rfl

theorem ends_cmdTimeout_fails {s : State} {h : Hd} {o : OutCmd} (on : s.blk.unitsOn = true)
    (past : (s.blk.port h).outs.find? (fun o => !o.waits && decide (o.deadline ≤ s.blk.now)) = some o) (last : 4 ≤ o.attempt) :
    Ends (.cmdTimeout h) s fun b => b.bit (Reg.HD_LINK_STAT h) 7 = true ∧
      (o.cmd.org = .mailbox → b.fld (Reg.HD_RSP h) 7 0 = 0xFF ∧ b.bit (Reg.HD_CMD h) 31 = false ∧
        ∀ q ∈ (b.port h).outs, q.tag ≠ o.tag) := by
  have kept := failKept_commandFails h.isLt o s.blk
  refine ends_cmdTimeout_of on past (if_pos last) (kept.now.trans (now_givenUp o s.blk)) fun t k =>
    ⟨?_, fun mailbox => ?_⟩
  · rw [Block.bit, k.rd _ (by grind)]
    exact kept.failed.trans (failed_givenUp h.isLt o s.blk)
  · rw [commandFails_mailbox mailbox] at k
    refine ⟨?_, ?_, fun q m => ?_⟩
    · rw [Block.fld, k.rd _ (by grind), mailboxFailed, Block.rd_clrBit_other (by grind), Block.rd_setFld, if_pos rfl,
        fieldOf_setFieldOf_same _ _ _ _ (by decide) (by decide)]
      rfl
    · rw [Block.bit, k.rd _ (by grind)]
      exact Block.bit_clrBit_same _ _ (by decide)
    · rw [k.port, Block.port_of_core (core_mailboxFailed h _), port_givenUp] at m
      exact tag_of_mem_dropOut m

/-- Settles O23: what each command of a head's lane, each response and each time-out ends with. -/
theorem headCommands : Obligations.HeadCommands := by
  unfold Obligations.HeadCommands
  intro s h u a
  refine ⟨fun o on lane free waiting => ?_, fun c cs on lane free none_ queue places => ?_, fun hw idle => ?_,
    fun p on receives up starts packet => ⟨fun bad => ?_, fun good none_ => ?_, fun o good known waits own refused => ?_,
      fun o good known mailbox => ?_⟩,
    fun o on past own => ⟨ends_cmdTimeout_again on past own, ends_cmdTimeout_fails on past⟩⟩
  · exact (ends_commandSend_again on lane free waiting).mono fun _ r => ⟨r.sent, r.queue, r.held⟩
  · exact ends_commandSend_next on lane free none_ queue places
  · by_cases sends : MailboxSends h s.blk
    · refine (ends_cmdGo_sends hw idle sends).mono fun b ⟨busy, regs, queue, core⟩ => ⟨?_, core⟩
      exact (if_pos (c := MailboxSends h s.blk) sends).mpr ⟨busy, regs, queue⟩
    · refine (ends_cmdGo_refuses hw idle sends).mono fun b ⟨rstat, queue, regs, core⟩ => ⟨?_, core⟩
      exact (if_neg (c := MailboxSends h s.blk) sends).mpr ⟨rstat, queue, regs⟩
  · exact ends_response_ignored on receives up starts packet (responseIn_bad bad)
  · exact ends_response_unknown on receives up starts packet good none_
  · exact ends_response_ignored on receives up starts packet (responseIn_waits good known waits own refused)
  · exact (ends_response_mailbox on receives up starts packet good known mailbox).mono fun _ ⟨⟨rstat, len, tag, data, free⟩, gone⟩ =>
      ⟨rstat, len, tag, data, free, gone⟩

end Sys2Proof.Machine
